-- ==== Sys2Proof/Word.lean ====
section
/-!
DEFINITION. The word types of the module: 32-bit registers and memory words, 40-bit stored words
(04 R134: data, check bits, valid bit), 39-bit words of the PE memories (06 R218).
-/

namespace Sys2Proof

/-- A register, a core word, an address on the cores' bus. -/
abbrev Word := BitVec 32

/-- A double word: a floating-point register, a 64-bit count. -/
abbrev DWord := BitVec 64

/-- A byte. -/
abbrev Byte := BitVec 8

/-- A word as MEM stores it: V, C, D (04 R134). -/
abbrev MWord := BitVec 40

/-- A word as the PE memories store it: C, D (06 R218). -/
abbrev PWord := BitVec 39

end Sys2Proof
end

