-- ==== Sys2Proof/Syntax.lean ====
section
/-!
DEFINITION. The commands of the block: one constructor per row of spec/opcode_table.json, with the operands
each carries, and the types of those operands. Times are MONO values in ns (00 R7) unless a docstring names
another clock.
-/

namespace Sys2Proof

/-- The masters of 03 R111: the voted core complex and the two service cores. -/
inductive Master where | cx | sc0 | sc1
deriving DecidableEq, Repr

/-- A register number of the cores, 0 to 31 (03 R89). -/
abbrev RegNo := Fin 32

/-- The integer register operations of major 0x01 (03 R93). -/
inductive IntOp where
  | add | sub | and | or | xor | nor | sll | srl | sra | slli | srli | srai | slt | sltu
  | mul | mulh | mulhu | div | divu | rem | remu | clz | exb | exh | exhu
deriving DecidableEq, Repr

/-- The immediate operations of majors 0x02 to 0x08 (03 R94). -/
inductive ImmOp where | addi | andi | ori | xori | slti | sltiu | lui
deriving DecidableEq, Repr

/-- The integer loads of majors 0x10 to 0x14 (03 R94). -/
inductive LoadKind where | lw | lh | lhu | lb | lbu
deriving DecidableEq, Repr

/-- The integer stores of majors 0x18 to 0x1A (03 R94). -/
inductive StoreKind where | sw | sh | sb
deriving DecidableEq, Repr

/-- The conditions of the branches of majors 0x20 to 0x25 (03 R94). -/
inductive BranchCond where | beq | bne | blt | bge | bltu | bgeu
deriving DecidableEq, Repr

/-- The floating-point operations of major 0x30, by fop (03 R96). -/
inductive FpOp where
  | fadd | fsub | fmul | fdiv | fsqrt | fmadd | fmsub | fnmadd | fmin | fmax | fabs | fneg | fmov | fcvt
  | ftoi | ftoiu | itof | iutof | fceq | fclt | fcle | fcls | ftog | gtof | ftogh | gtofh
deriving DecidableEq, Repr

/-- What a core port presents in a CX clock (02 R47). -/
structure Presentation where
  kind : BitVec 4
  addr : Word
  size : BitVec 4
  wdata : Word
  priv : BitVec 2
  part : BitVec 5
deriving DecidableEq, Repr

/-- The three cores' presentations at one port (02 R46); none: nothing presented. -/
structure PortView where
  p0 : Option Presentation
  p1 : Option Presentation
  p2 : Option Presentation
deriving DecidableEq, Repr

/-- How the transfer of an odd core's state ends (02 R58, R61). -/
inductive ResyncOutcome where
  | released
  /-- The odd core fails its local test (case 1). -/
  | localTestFailed
  /-- The three signatures do not all agree, the agreeing cores' do (case 2). -/
  | signatureDiffers
  /-- The two agreeing cores disagree with each other (P6). -/
  | agreeingPairDisagrees
deriving DecidableEq, Repr

/-- How the comparison of signatures after a replay of the debug log ends (02 R71). -/
inductive ReplayOutcome where
  | agree
  /-- One core's signature differs. -/
  | differs (core : Fin 3)
  /-- Two signatures differ. -/
  | allDiffer
deriving DecidableEq, Repr

/-- A variable of a program's variable table (05 R186): identity, type code, image entry, bit offset in its data. -/
structure VarEntry where
  vid : Nat
  type : Nat
  entry : Nat
  bit : Nat
deriving DecidableEq, Repr

/-- A program as the configuration image carries it, decoded (05 R186, R190, R191, R194). Words by core address in
the DRAM bank of the partition named. -/
structure Program where
  identity : Nat := 0
  vars : List VarEntry := []
  /-- Layout identifier by partition. -/
  layouts : List (Nat × Word) := []
  /-- Initial values of retained variables: partition, core address, value. -/
  retained : List (Nat × Nat × Word) := []
  /-- Initial values of other variables: partition, core address, value. -/
  initial : List (Nat × Nat × Word) := []
  /-- Ranges of other variables cleared to unwritten at a start: partition, core address, length in bytes. -/
  cleared : List (Nat × Nat × Nat) := []
  /-- Pair entry point by task (14 R475). -/
  pairEntries : List (Nat × Word) := []
deriving DecidableEq, Repr

/-- Words to copy from one address to another (05 R197), core addresses in the DRAM bank of the partition. -/
structure CarryRange where
  part : Nat
  src : Nat
  dst : Nat
  words : Nat
deriving DecidableEq, Repr

/-- An image map entry's three registers (05 R173). -/
structure ImageChange where
  index : Nat
  d0 : Word
  d1 : Word
  d2 : Word
deriving DecidableEq, Repr

/-- A changed task: descriptor registers and entry points of the new and of the old program (05 R197, R200). -/
structure TaskChange where
  task : Nat
  per : Word
  rel : Word
  bud : Word
  entry : Word
  back : Word
deriving DecidableEq, Repr

/-- A change package, decoded (05 R190, R193 to R199). `data`: layouts, initial values and pair entry points of the new program. -/
structure ChangePackage where
  base : Nat
  identity : Nat
  /-- Changed partitions, bit p for partition p. -/
  parts : Nat
  plannedNs : Nat
  carry : List CarryRange
  reverse : List CarryRange
  entries : List ImageChange
  tasks : List TaskChange
  /-- New region sources: descriptor and MEM_REGnS value. -/
  sources : List (Nat × Word)
  vars : List VarEntry
  data : Program := {}
deriving DecidableEq, Repr

/-- Registers of PE: V, S 0 to 15; A, F 0 to 7 (07 R242). -/
abbrev PeReg := Fin 16
abbrev PeAcc := Fin 8
abbrev PeFlag := Fin 8

/-- A memory operand of PE (07 R246). -/
structure PeMem where
  xs : PeReg
  space : Fin 4
  off : BitVec 16
deriving DecidableEq, Repr

/-- The conditions of 07 R252, values 0 to 5. -/
inductive PeCond where | eq | ne | lt | le | gt | ge
deriving DecidableEq, Repr

/-- V-slot operations of format VR (07 R249). -/
inductive VArith where
  | vadd | vsub | vmul | vdiv | vfma | vfms | vmin | vmax | vabs | vneg | vsqrt | vmov | vsel | vhadd
deriving DecidableEq, Repr

/-- The V-slot operations other than VLD and VST (07 R248, R249). -/
inductive PeVector where
  | vnop
  | arith (op : VArith) (vd va vb vc : PeReg)
  | vperm (vd va : PeReg) (sel : BitVec 8)
  | vspl (vd sa : PeReg)
  | vins (vd sa : PeReg) (lane : Fin 4)
  | vext (sd va : PeReg) (lane : Fin 4)
  | vcmp (fd : PeFlag) (all : Bool) (va vb : PeReg) (mask : BitVec 4) (cond : PeCond)
deriving DecidableEq, Repr

/-- Every V-slot operation (07 R249). -/
inductive PeVectorSlot where
  | op (o : PeVector)
  | vld (vd : PeReg) (m : PeMem)
  | vst (vs : PeReg) (m : PeMem)
deriving DecidableEq, Repr

/-- Integer operations on two registers (07 R251, sop 0x01 to 0x05, 0x0C). -/
inductive SInt where | sadd | ssub | sand | sor | sxor | smul
deriving DecidableEq, Repr

/-- Shifts (07 R251, sop 0x06 to 0x08). -/
inductive SShift where | sshl | sshr | ssra
deriving DecidableEq, Repr

/-- binary32 operations on two registers (07 R251, sop 0x10 to 0x15). -/
inductive SFloat where | fadd | fsub | fmul | fdiv | fmin | fmax
deriving DecidableEq, Repr

/-- binary32 operations and conversions on one register (07 R251, sop 0x16, 0x17, 0x19 to 0x1C). -/
inductive SUnary where | fabs | fsqrt | fcvti | fcvtf | flg2 | fex2
deriving DecidableEq, Repr

/-- The scalar operations of the S-slot (07 R251). -/
inductive PeScalar where
  | snop
  | int (op : SInt) (sd sa sb : PeReg)
  | shift (op : SShift) (sd sa : PeReg) (n : Fin 32)
  | saddi (sd sa : PeReg) (imm : BitVec 14)
  | sori (sd sa : PeReg) (imm : BitVec 14)
  | slih (sd : PeReg) (imm : BitVec 18)
  | scmp (fd : PeFlag) (sa sb : PeReg) (cond : PeCond)
  | float (op : SFloat) (sd sa sb : PeReg)
  | unary (op : SUnary) (sd sa : PeReg)
  | fcmp (fd : PeFlag) (sa sb : PeReg) (cond : PeCond)
  | flop (fd fa fb : PeFlag) (op : Fin 8)
  | ftos (sd : PeReg)
  | stof (sa : PeReg)
deriving DecidableEq, Repr

/-- The accumulator operations of the S-slot (07 R251, R254). -/
inductive PeAccumulator where
  | aadd (ad : PeAcc) (va : PeReg) (lane : Fin 4)
  | asub (ad : PeAcc) (va : PeReg) (lane : Fin 4)
  | aadds (ad : PeAcc) (sa : PeReg)
  | asubs (ad : PeAcc) (sa : PeReg)
  | ald (ad : PeAcc) (m : PeMem)
  | ast (ad : PeAcc) (m : PeMem)
  | aseti (ad : PeAcc) (imm : BitVec 14)
  | acmp (fd : PeFlag) (ad ab : PeAcc) (cond : PeCond)
  | aflt (sd : PeReg) (ab : PeAcc)
  | amov (ad ab : PeAcc)
  | amax0 (ad : PeAcc)
deriving DecidableEq, Repr

/-- What the AFE measured in a calibration (06 R208, R210), in LSB and ppm. -/
structure CalResult where
  /-- The two comparisons of the own with the spare converter, and the reading. -/
  first : Int
  second : Int
  reading : Int
  /-- The new gain correction in ppm and the new offset in LSB. -/
  gain : Int
  off : Int
deriving DecidableEq, Repr

/-- What NET reads of a received PD frame beside its dataset (11 R383): the source address and the bytes of the PD header. -/
structure PdHeader where
  src : Nat
  bytes : List Byte
deriving DecidableEq, Repr

/-- What a received frame is that is no PD message of a flow (11 R381, R386): message data, an ARP request addressed to
the module or a frame of no flow; anything else, fragments among it. -/
inductive RingFrameKind where | kept | other
deriving DecidableEq, Repr

/-- Link speeds (11 R389). -/
inductive LinkSpeed where | down | mbit100 | mbit1000
deriving DecidableEq, Repr

/-- A share of a memory or flash arbiter delivered short in a window (01 R35): victim, beneficiary, resource, shortfall. -/
structure ShortShare where
  victim : Nat
  benef : Nat
  resource : Nat
  shortfall : Nat
deriving DecidableEq, Repr

/-- A claimant that exceeded its share in a window (01 R37): of a memory arbiter, 0 to 3 SRAM banks, 4 DRAM, as a master of MEM_ARBDAT
(04 R164); of the pair link, by Mbit/s (14 R486). -/
inductive ShareExcess where
  | memory (arbiter master claimant : Nat)
  | pairLink (claimant shortfall : Nat)
deriving DecidableEq, Repr

/-- What a bandwidth window found at arbiters other than the ports: shares delivered short and shares exceeded (01 R35, R37). -/
structure WindowReport where
  shorts : List ShortShare
  excess : List ShareExcess := []
deriving DecidableEq, Repr

/-- A new comparator state of an input (10 R347): `mv`: the voltages at the input over its filter time, in order, from which R346 gives
the comparator states; `sampled`: a 10 µs sample of Girth shows it before the input changes again (08 R289). -/
structure FilteredChange where
  input : Fin 24
  mv : List Nat
  sampled : Bool := true
deriving DecidableEq, Repr

/-- A qualified edge on a counter path (10 R350): the counter, and the voltage at its input after the edge (R346). -/
structure CountedEdge where
  counter : Fin 4
  mv : Nat
deriving DecidableEq, Repr

/-- What the readback of an output has shown for 2 ms (10 R354, R355). -/
structure ReadbackHeld where
  out : Fin 16
  on : Bool := true
deriving DecidableEq, Repr

/-- The core of a load or fetch, and the words of its answer in which the complex finds a check error (02 R48): bit 0 the first word,
bit 1 the second word of an FLD. -/
structure Reading where
  core : Master
  bad : BitVec 2 := 0
deriving DecidableEq, Repr

/-- The end of a code refetch at MONO `t`, and the words in which the complex, where it waits for this word, then finds a check error
(02 R48), as in `Reading`. -/
structure RefetchEnd where
  t : Nat
  bad : BitVec 2 := 0
deriving DecidableEq, Repr

/-- What is wrong with the data of a completion: `bad` on the link (13 R446), `check` a check error that the complex, where it waits
for the answer, finds in the word it receives (02 R48). -/
structure AnswerFlaws where
  bad : Bool := false
  check : Bool := false
deriving DecidableEq, Repr

/-- What an Announce tells (11 R397): the grandmaster with its priorities, class, accuracy and variance, the steps to it, and the clock
that sends. -/
structure PtpClock where
  gm : DWord
  priority1 : Byte := 128#8
  clockClass : Byte := 248#8
  accuracy : Byte := 0xFE#8
  variance : BitVec 16 := 0xFFFF#16
  priority2 : Byte := 128#8
  steps : BitVec 16 := 0#16
  sender : DWord
deriving DecidableEq, Repr

/-- A PTP message as TIME acts on it (11 R393, R397): an Announce; a Sync with its corrected origin time in ns; a completed path delay
measurement in ns; a delay request (of the peer mechanism or not); a message the module does not support or that is of another domain. -/
inductive PtpMessage where
  | announce (clock : PtpClock)
  | sync (origin : Int)
  | delay (mpd : Nat)
  | request (peer : Bool)
  | unsupported
deriving DecidableEq, Repr

/-- The PTP messages TIME sends at an interval (11 R397). -/
inductive PtpSend where | sync | announce | delayRequest
deriving DecidableEq, Repr

/-- A datagram of the maintenance tool channel (11 R406): a request for a nonce; the nonce returned, with the key whose
signature over it is correct, if one is; one register read or write (none: read) with its session sequence number and its CRC-32C. -/
inductive MaintDatagram where
  | request
  | answer (key : Option (Fin 4))
  | access (seq crc : Nat) (addr : Nat) (write : Option Word)
deriving DecidableEq, Repr

/-- An Octette frame as received (12 R413): header, payload, FCS, and no code violation between its delimiters. -/
structure OctFrame where
  header : Word
  payload : List Word
  fcs : Word
  codeOk : Bool
deriving DecidableEq, Repr

/-- An inbound request of a backplane module (13 R442). -/
structure InboundRequest where
  requester : Nat
  addr : Nat
  /-- A memory write: its data; none: any other request. -/
  write : Option Word
deriving DecidableEq, Repr

/-- A timer as a commit record carries it (14 R472): duration in µs, time to the next expiry in ns, expiries counted. -/
structure TimerImage where
  index : Nat
  running : Bool
  periodic : Bool
  durationUs : Nat
  remaining : Nat
  count : Nat
deriving DecidableEq, Repr

/-- A commit record (14 R472): the task, the pair sequence number of its release edge and the active's tick number of that
edge, the task's timers, the SSEQ of each safe flow the task feeds. -/
structure CommitRecord where
  task : Nat
  psn : Nat
  release : Nat
  timers : List TimerImage
  sseqs : List (Nat × Nat)
deriving DecidableEq, Repr

/-- A force as the active forwards it (14 R472): VID, type code, value. -/
structure ForceImage where
  vid : Nat
  type : Nat
  value : DWord
deriving DecidableEq, Repr

/-- What comes over the cross-link to a unit beside heartbeats, commit records, snapshots and kind 7 blocks: a marked or
copied 64-byte block by the key of its first word (14 R472, R480); the active's forces (R472); a switch-over at an edge of
the active (R483); the program identity of a change the partner has prepared; an edge of the active at which it holds a switch; an
edge at which the active switches a change, or reverts it (R482); a start command accepted by the partner; the forces and timers of the
bulk copy (R480), and what the active adds to its tick number in its schedule. -/
inductive PairMessage where
  | block (key : Nat) (words : List Word)
  | forces (l : List ForceImage)
  | switch (tick : Nat)
  | prepared (identity : Nat)
  | held (tick : Nat)
  | change (tick : Nat) (revert : Bool)
  | starting
  | bulk (forces : List ForceImage) (timers : List TimerImage) (shift : Int)
deriving DecidableEq, Repr

/-- A phase of a join that has completed (14 R480); phase 2 with the configuration identity and the pair mode of the partner. -/
inductive JoinPhase where
  | identity
  | configuration (partner mode : Nat)
  | time
  | copy
  | tasks
deriving DecidableEq, Repr

/-- An overlay (15 R502): the fields it sets, by register key, mask and value; the parameters it writes, by context, word and
values. -/
structure Overlay where
  fields : List (Nat × Word × Word) := []
  params : List (Nat × Nat × List Word) := []
deriving DecidableEq, Repr

/-- A partition as a configuration declares it (01 R16, R21, R27; 02 R74): kind, whether it is one of the service cores, window,
DRAM bank, ranges of block registers granted, ranges a service core may cache. -/
structure PartitionDecl where
  index : Nat
  safety : Bool
  service : Bool := false
  lo : Nat
  hi : Nat
  bank : Nat := 0
  grants : List (Nat × Nat) := []
  cacheable : List (Nat × Nat) := []
deriving DecidableEq, Repr

/-- A share a configuration declares on a resource (01 R29): cycles in 64 of a memory arbiter, operations per ms of flash. -/
structure DeclaredShare where
  resource : Nat
  claimant : Nat
  amount : Nat
deriving DecidableEq, Repr

/-- The items of the protection library (07 R257). -/
inductive LibKind where
  | phm3 | rms3 | dcm | frq | seq | oc3 | hs3 | dir3 | uv3 | ov3 | fs | th3 | bf | doc | rise | step | seal
deriving DecidableEq, Repr

/-- A library item as Durad links it into a context (07 R257): where its words begin in the context's data area and its settings, which
lie there first; the channels it reads; where the words of the items begin whose outputs it uses; which of their values it takes (a
phase of PHM3, a mean of DCM); the operate outputs it selects, as item and output bit; the flag SEAL drives and the trigger line an
item raises; the rated current and voltage of its feeder. -/
structure LibItem where
  kind : LibKind
  base : Nat
  settings : List Word
  channels : List (Fin 24) := []
  inputs : List Nat := []
  lane : Fin 4 := 0
  select : List (Nat × Fin 32) := []
  flag : Fin 32 := 0
  line : Option (Fin 8) := none
  ratedI : Word := 0
  ratedU : Word := 0
deriving DecidableEq, Repr

/-- A configuration image, decoded (15 R493, R500 to R502): the serial number it is bound to; its identity; register values by
key; partitions; declared shares (01 R29); the owners of the memory arbiters' slots, arbiter x 64 + slot (04 R147); program; overlays and selection table (mode, train mode, mask); words of the PE memories by offset and the
contexts to verify and enable; the library items linked into contexts (07 R257); the Girth parameter set; what COMTRADE needs (09 R338); the maintenance keys (11 R406). -/
structure Configuration where
  serial : Option Nat := none
  identity : Nat := 0
  values : List (Nat × Word) := []
  parts : List PartitionDecl := []
  shares : List DeclaredShare := []
  slots : List (Nat × Word) := []
  program : Program := {}
  overlays : List Overlay := []
  selection : List (Nat × Nat × Nat) := []
  peWords : List (Nat × Word) := []
  contexts : List (Fin 64) := []
  schemes : List (Fin 64 × List LibItem) := []
  girth : Option (List Word) := none
  station : List Nat := []
  units : List (List Nat) := []
  scales : List Word := []
  lf : List Nat := []
  keys : List (List Byte) := []
deriving DecidableEq, Repr

/-- How the check of an image of a slot ends (15 R513): reason 0 passed; security version, program identity and bound serial number. -/
structure SlotCheck where
  reason : Fin 10
  svn : Nat
  pid : Nat
  serial : Nat
deriving DecidableEq, Repr

/-- What the boot ROM finds (15 R497; 10 R366; 14 R469): the checks of both slots; the SRAM words of the firmware started; the
positions of the jumpers by channel; the slot code pins. -/
structure BootFindings where
  slotA : SlotCheck
  slotB : SlotCheck
  words : List (Nat × Word)
  jumpers : List (Fin 4)
  slotCode : Fin 32
deriving DecidableEq, Repr

/-- What the start-up test finds (15 R498, R499): failed items with their details, failed SRAM cells (address of the word, bit),
its duration in µs, the DRAM words of the firmware copied meanwhile. -/
structure TestFindings where
  failed : List (Fin 14 × Nat)
  cells : List (Nat × Fin 40)
  duration : Nat
  words : List (Nat × Word)
deriving DecidableEq, Repr

/-- What the cryptographic checks of a staged image say (15 R511 to R513): lengths and DIGEST correct; signature correct with the
key it names; an entry of the key table for this unit or the fleet unwraps; GCM tag correct; for kind 5 the owner key it revokes. -/
structure ImageCrypto where
  digest : Bool
  signature : Bool
  key : Bool
  tag : Bool
  revokes : Fin 4
deriving DecidableEq, Repr

/-- Who accesses a block register: a core, or the maintenance tool channel (11 R406). -/
inductive BusUser where
  | core (c : Master)
  | tool
deriving DecidableEq, Repr

/-- What happens to a key: pressed, held for 2 s, released (10 R373). -/
inductive KeyHold where | press | held | release
deriving DecidableEq, Repr

/-- The commands. Each constructor is one row of the opcode table. -/
inductive Instr where
  /-- REGISTER_WRITE (R6): A whole-word write to a block register that has no row of its own acts on each field according to its access type. -/
  | registerWrite (t : Nat) (user : BusUser) (size : Fin 4) (addr value : Word) (pkg : Option ChangePackage)
  /-- MODULE_RESET (R547): A reset holds the module in POWERUP and returns every block, register and memory not retained to its reset state. -/
  | moduleReset (t : Nat)
  /-- POWER_GOOD (R494): Supply at or above 16.8 V for 10 ms with all rails in regulation ends POWERUP and starts BOOT. -/
  | powerGood (t : Nat)
  /-- POWER_FAILURE_SIGNAL (R494): Supply below 16.0 V for 100 µs sets PFAIL, emits 0xE008 and makes REC save its queue to MRAM. -/
  | powerFailureSignal (t mv : Nat)
  /-- POWER_FAILURE_CLEAR (R494): Supply back at 16.8 V or above while rails are still in regulation clears PFAIL and invalidates the MRAM copy of REC. -/
  | powerFailureClear (t mv : Nat)
  /-- RAILS_OUT_OF_REGULATION (R527): Internal rails fall out of regulation after hold-up, holding the module in POWERUP with cores and Girth in reset. -/
  | railsOutOfRegulation (t : Nat)
  /-- SUPPLY_SAMPLE (R548): Once every 1 ms SYS_SUPPLY takes the latest instantaneous sample of the module supply. -/
  | supplySample (t mv : Nat)
  /-- TICK_EDGE (R39): At each tick edge the module performs the ten boundary steps in their fixed order. -/
  | tickEdge (t delay : Nat) (disagree : List (Fin 256))
  /-- ONLINE_CHANGE_SWITCH_END (R44): The switch completes, after which the delayed steps 8 to 10 for the changed partitions follow. -/
  | onlineChangeSwitchEnd (t delay : Nat)
  /-- RESYNC_RELEASE (R58): The transfer ends with the signature comparison and the release of all three cores at one boundary, or with a failed resync. -/
  | resyncRelease (t : Nat) (outcome : ResyncOutcome)
  /-- BANDWIDTH_WINDOW_END (R35): At the end of each 1 ms window a reserved share delivered short with traffic waiting counts a break. -/
  | bandwidthWindowEnd (t : Nat) (shorts : WindowReport)
  /-- VOTER_COMPARE (R50): The voter compares the three presentations of a port in one CX clock and passes, outvotes or demands SAFE by pattern. -/
  | voterCompare (t : Nat) (fetch data : PortView) (nonCode : Option Bool)
  /-- DBG_HALT (R67): Debug command 1 requests a halt of all three cores at one instruction boundary. -/
  | dbgHalt (t cseq : Nat)
  /-- DEBUG_HALT_TAKEN (R67): The complex halts at the first allowed instruction boundary, raising HALTED to Girth and emitting 0x100A. -/
  | debugHaltTaken (t : Nat)
  /-- DBG_RESUME (R71): Debug command 2 replays the action log into the checker cores, compares signatures and lets the cores run. -/
  | dbgResume (t cseq : Nat) (o : ReplayOutcome)
  /-- DBG_STEP (R72): Debug command 3 retires exactly one instruction on each voting core and halts again. -/
  | dbgStep (t cseq : Nat) (o : ReplayOutcome)
  /-- DBG_READ_GP (R68): Debug command 4 returns a general register of the lead core. -/
  | dbgReadGp (t cseq : Nat) (index : RegNo)
  /-- DBG_WRITE_GP (R70): Debug command 5 writes a general register of the lead core and appends it to the action log. -/
  | dbgWriteGp (t cseq : Nat) (index : RegNo)
  /-- DBG_READ_FP (R68): Debug command 6 returns a floating-point register of the lead core. -/
  | dbgReadFp (t cseq : Nat) (index : RegNo)
  /-- DBG_WRITE_FP (R70): Debug command 7 writes a floating-point register of the lead core and logs it. -/
  | dbgWriteFp (t cseq : Nat) (index : RegNo)
  /-- DBG_READ_SPECIAL (R68): Debug command 8 returns a special register of the lead core. -/
  | dbgReadSpecial (t cseq : Nat) (index : RegNo)
  /-- DBG_WRITE_SPECIAL (R70): Debug command 9 writes a special register of the lead core and logs it. -/
  | dbgWriteSpecial (t cseq : Nat) (index : RegNo)
  /-- DBG_LOAD (R69): Debug command 10 performs a voted load by all voting cores at the halt point. -/
  | dbgLoad (t cseq : Nat) (bus : Option Word)
  /-- DBG_STORE (R69): Debug command 11 performs a voted store by all voting cores at the halt point. -/
  | dbgStore (t cseq : Nat) (bus : Bool) (pkg : Option ChangePackage)
  /-- DBG_SET_BREAKPOINT (R72): Debug command 12 sets an instruction or data comparator and logs it. -/
  | dbgSetBreakpoint (t cseq : Nat) (index : RegNo)
  /-- DBG_CLEAR_BREAKPOINT (R72): Debug command 13 clears a comparator and logs it. -/
  | dbgClearBreakpoint (t cseq : Nat) (index : RegNo)
  /-- BREAKPOINT_MATCH (R72): A comparator match halts all three cores at the same count when halting debug is available. -/
  | breakpointMatch (t : Nat) (index : Fin 6) (access : Word)
  /-- SC_WATCHDOG_KICK (R77): A write of 0x0000_00A5 to CORE_SCKICK restarts a service core's watchdog; other values are ignored. -/
  | scWatchdogKick (t : Nat) (core : Fin 2) (key : Word)
  /-- SC_WATCHDOG_EXPIRY (R77): A service core not kicked within WDT ms is reset, sets WDT0 or WDT1 and emits 0x1010. -/
  | scWatchdogExpiry (t : Nat) (core : Fin 2)
  /-- RIC_LO_READ (R84): A read of CORE_RIC_LO or RIC_LO returns the count's low word and latches the high word. -/
  | ricLoRead
  /-- INT_REGISTER_OP (R93): An integer register operation under major 0x01 writes rd, or raises divide-by-zero. -/
  | intRegisterOp (c : Master) (op : IntOp) (rd ra rb : RegNo)
  /-- INT_IMMEDIATE_OP (R94): ADDI, ANDI, ORI, XORI, SLTI, SLTIU or LUI writes rd from ra and the immediate. -/
  | intImmediateOp (c : Master) (op : ImmOp) (rd ra : RegNo) (imm : BitVec 16)
  /-- LOAD (R94): LW, LH, LHU, LB or LBU reads memory at ea into rd after window, protection and alignment checks. -/
  | load (c : Reading) (k : LoadKind) (rd ra : RegNo) (imm : BitVec 16)
  /-- STORE (R94): SW, SH or SB writes rs to memory at ea, through the merge buffer where it applies. -/
  | store (c : Master) (k : StoreKind) (rs ra : RegNo) (imm : BitVec 16) (pkg : Option ChangePackage)
  /-- FLW_FLD (R95): FLW or FLD loads a binary32 or binary64 value into fd. -/
  | flwFld (c : Reading) (double : Bool) (fd ra : RegNo) (imm : BitVec 16)
  /-- FSW_FSD (R95): FSW or FSD stores fs to memory as one or two word transactions. -/
  | fswFsd (c : Master) (double : Bool) (fs ra : RegNo) (imm : BitVec 16) (pkg : Option ChangePackage)
  /-- LDL (R112): LDL loads a word and sets the master's reservation on it. -/
  | ldl (c : Reading) (rd ra : RegNo)
  /-- STC (R113): STC stores only if the master still holds the reservation, writes the outcome to rd and clears the reservation. -/
  | stc (c : Master) (rd ra rb : RegNo)
  /-- BRANCH (R94): BEQ, BNE, BLT, BGE, BLTU or BGEU branches to PC + off × 4 when its condition holds. -/
  | branch (c : Master) (b : BranchCond) (ra rb : RegNo) (off : BitVec 16)
  /-- J (R94): J sets PC to PC + off × 4. -/
  | j (c : Master) (off : BitVec 26)
  /-- JL (R94): JL writes PC + 4 to GP31 and jumps. -/
  | jl (c : Master) (off : BitVec 26)
  /-- JR (R91): JR jumps to ra + imm, raising instruction alignment for a misaligned target. -/
  | jr (c : Master) (ra : RegNo) (imm : BitVec 16)
  /-- JLR (R94): JLR writes PC + 4 to rd and jumps to ra + imm. -/
  | jlr (c : Master) (rd ra : RegNo) (imm : BitVec 16)
  /-- FP_OPERATION (R96): A floating-point operation under major 0x30 computes under IEEE 754 and may raise the floating-point exception. -/
  | fpOperation (c : Master) (op : FpOp) (p : Bool) (fd fa fb fc : RegNo)
  /-- PLD (R110): PLD presents a fetch-ahead load in a prefetchable, permitted range and otherwise nothing. -/
  | pld (c : Master) (ra : RegNo) (imm : BitVec 16)
  /-- SYS (R98): SYS makes an executive call from partition privilege or a monitor call otherwise. -/
  | sys (c : Master) (code : BitVec 11)
  /-- SYS_SAFE_CALL (R503): Executive call SYS 0x7FE makes SYS demand SAFE with code 8. -/
  | sysSafeCall (c : Master)
  /-- BIST_CORE_SLICE_CALL (R506): SYS 0x7FF runs the next core-complex BIST slice if the next tick edge is at least 45 µs away. -/
  | bistCoreSliceCall (t : Nat)
  /-- BRK (R118): BRK halts the complex where halting debug is available, and raises cause 11 otherwise. -/
  | brk (c : Master) (code : BitVec 11)
  /-- ERET (R120): ERET restores PC, privilege, interrupt enable and partition from the level's saved state. -/
  | eret (c : Master)
  /-- MFS (R84): MFS reads a special register subject to its privilege column. -/
  | mfs (c : Master) (rd : RegNo) (spec : BitVec 11)
  /-- MTS (R84): MTS writes a special register subject to its privilege column. -/
  | mts (c : Master) (spec : BitVec 11) (ra : RegNo)
  /-- BAR_M (R107): BAR.M presents a barrier and holds later accesses until earlier ones are performed. -/
  | barM (c : Master)
  /-- BAR_M_COMPLETE (R107): BAR.M completes once earlier accesses are performed, the merge buffer is drained and the fetch buffer emptied. -/
  | barMComplete (c : Master)
  /-- BAR_W (R108): BAR.W performs BAR.M and then waits for the partition's posted writes to complete or fail. -/
  | barW (c : Master) (rd : RegNo)
  /-- BAR_W_COMPLETE (R453): BAR.W completes when no posted write of the partition is untracked and returns the failure count. -/
  | barWComplete (c : Master)
  /-- TRD (R105): TRD writes a snapshot of MONO into rd and ra. -/
  | trd (t : Nat) (c : Master) (rd ra : RegNo)
  /-- TRS (R105): TRS writes a snapshot of SYNC into rd and ra and latches TSHI. -/
  | trs (t : Nat) (c : Master) (rd ra : RegNo)
  /-- CYW (R101): CYW at partition privilege records the task as waiting and enters the executive with cause 12. -/
  | cyw (c : Master) (rd : RegNo)
  /-- CYW_EXECUTIVE_RETURN (R102): An executive CYW returns CYC_DISP.MASK when line 16 becomes pending, releasing the line. -/
  | cywExecutiveReturn (c : Master)
  /-- IMC (R103): IMC performs BAR.M and requests the commit of the task's output image, returning status 0, 1 or 2. -/
  | imc (c : Master) (rd : RegNo)
  /-- CMO (R98): CMO applies a cache operation on a service core and has no effect on the complex. -/
  | cmo (c : Master) (op : BitVec 11) (ra : RegNo)
  /-- INTERRUPT_TAKEN (R122): A pending and enabled interrupt line is taken at an instruction boundary, lowest line first. -/
  | interruptTaken (c : Master)
  /-- TCMP_MATCH (R121): MONO reaching TCMP makes interrupt line 19 pending. -/
  | tcmpMatch (c : Master) (t : Nat)
  /-- MERGE_ENTRY_TIMEOUT (R145): A merge-buffer entry 64 MX clocks old is written to memory, partial entries by read-modify-write. -/
  | mergeEntryTimeout (t : Nat)
  /-- CORRECTION_WRITEBACK (R140): The queued write-back is performed in a free slot and the word is reread to detect a hard error. -/
  | correctionWriteback (t : Nat) (reread : MWord)
  /-- CODE_REFETCH_COMPLETE (R152): The flash read of a code word completes, rewriting the word or poisoning it if the refetch failed. -/
  | codeRefetchComplete (r : RefetchEnd)
  /-- PQINFO_READ (R153): A read of MEM_PQINFO returns and removes the head of the poison queue. -/
  | pqinfoRead
  /-- SRAM_INIT_DONE (R137): Writing the unwritten marker into all SRAM completes and sets MEM_STAT.SINIT. -/
  | sramInitDone (t : Nat)
  /-- DRAM_INIT_DONE (R137): Writing the unwritten marker into all DRAM completes, sets DINIT and lets DRAM segments and frame records begin. -/
  | dramInitDone (t : Nat)
  /-- SCRUB_WORD (R150): A scrubber walker handles one word in an uninterrupted read-check-write. -/
  | scrubWord (t : Nat) (walker : Fin 6) (reread : MWord)
  /-- SCRUB_LAP_OVERTIME (R38): A running lap longer than LAPMAX promotes the scrubber to tier 5. -/
  | scrubLapOvertime (t : Nat)
  /-- FLIP_ARM (R158): Writing MEM_FLIPCTL.ARM = 1 arms the flip mask on the target word, or sets BAD if the target is invalid. -/
  | flipArm
  /-- FLIP_DISARM (R158): Writing MEM_FLIPCTL.ARM = 0 disarms the flip mask. -/
  | flipDisarm
  /-- RANGE_CLEAR (R160): MEM_CLRCMD GO starts writing the unwritten marker into a range of one space. -/
  | rangeClear (cseq : Nat) (go : Bool)
  /-- RANGE_CLEAR_DONE (R160): The range clear completes, clears CLRBUSY and emits 0x2010. -/
  | rangeClearDone (t : Nat)
  /-- CYC_RUN_WRITE (R170): A write to CYC_RUN closes the charge interval and names the task now charged. -/
  | cycRunWrite (t task : Nat) (valid : Bool)
  /-- BUDGET_EXPIRY (R170): A task's charge in its cycle reaches BUD, setting CYC_BUDEXP, holding line 17 and emitting 0x3002. -/
  | budgetExpiry (t : Nat)
  /-- DISP_READ (R171): A read of CYC_DISP returns the dispatch mask and releases line 16. -/
  | dispRead
  /-- CYW_VALUE_READ (R101): A read of CYC_TnWV returns STARTS and OVR and sets both to 0. -/
  | cywValueRead (task : Fin 16)
  /-- TIMER_START (R182): CYC_TMnCTL.START starts or restarts a CYC timer at the MONO of the write. -/
  | timerStart (t : Nat) (timer : Fin 32)
  /-- TIMER_STOP (R182): CYC_TMnCTL.STOP stops a CYC timer, keeping its expiry count. -/
  | timerStop (t : Nat) (timer : Fin 32)
  /-- TIMER_EXPIRY (R182): A CYC timer reaches its expiry time and counts the expiry. -/
  | timerExpiry (t : Nat) (timer : Fin 32)
  /-- EDGE_FIFO_READ (R185): A read of CYC_EDGEINF removes the head entry and latches its timestamp. -/
  | edgeFifoRead
  /-- FORCE_SET (R186): Force command 1 sets or replaces a force on a VID. -/
  | forceSet (cseq type : Nat) (tool : Bool)
  /-- FORCE_REMOVE (R186): Force command 2 removes the force of a VID. -/
  | forceRemove (cseq : Nat) (tool : Bool)
  /-- FORCE_REMOVE_ALL (R186): Force command 3 removes every force. -/
  | forceRemoveAll (cseq : Nat) (tool : Bool)
  /-- FORCE_READ (R186): Force command 4 returns the value and type of a VID's force. -/
  | forceRead (cseq : Nat)
  /-- COLD_START (R190): Restart command 1 in STOP makes a cold start pending. -/
  | coldStart (cseq : Nat)
  /-- WARM_START (R191): Restart command 2 in STOP makes a warm start pending, or is refused on a layout mismatch. -/
  | warmStart (cseq : Nat)
  /-- STOP (R192): Restart command 3 in RUN or RUN_DEGRADED requests a stop at the next tick edge. -/
  | stopCommand (cseq : Nat)
  /-- PREPARE (R194): Online-change command 1 checks the change package and enters PREPARED. -/
  | prepare (cseq : Nat) (pkg : ChangePackage)
  /-- ARM (R196): Online-change command 2 names the switch edge and enters ARMED. -/
  | arm (cseq : Nat)
  /-- REVERT (R200): Online-change command 3 arms a switch back at the next eligible edge. -/
  | revert (cseq : Nat)
  /-- CONFIRM_CHANGE (R200): Online-change command 4 ends the change and emits 0x3012. -/
  | confirmChange (cseq : Nat)
  /-- ABANDON (R193): Online-change command 5 abandons the change in progress. -/
  | abandon (cseq : Nat)
  /-- AFE_FRAME_START (R206): At each quarter-tick the AFE starts a sample frame and sends raw words of every converted channel. -/
  | afeFrameStart (t : Nat) (codes : List (Nat × Int))
  /-- PE_RAW_WORD_RECEIVE (R212): PE takes in a raw word, discarding it on bad parity, channel or frame toggle, and converts it to history. -/
  | peRawWordReceive (t : Nat) (group : Fin 4) (w : Word)
  /-- INTAKE_DEADLINE (R213): At 2.00 µs after frame start groups not complete are missing, with missing markers and group loss counting. -/
  | intakeDeadline (t : Nat)
  /-- PE_SLOT_START (R223): The slot begins, parameters are applied and the enabled contexts are evaluated in ascending index. -/
  | peSlotStart (t bundles : Nat) (upsets : List (Nat × PWord))
  /-- CONTEXT_CUT (R225): A context reaching VWCET without END stops for that frame and keeps its flags. -/
  | contextCut (t : Nat)
  /-- SLOT_DEADLINE (R226): At 33.25 µs after frame start remaining contexts are skipped and a tier 2 break counted. -/
  | slotDeadline (t : Nat)
  /-- VERIFY (R227): Loader command 1 starts VERIFY of a context's program range. -/
  | verify (t cseq : Nat) (cx : Fin 64)
  /-- VERIFY_COMPLETE (R228): VERIFY finishes, setting VWCET and VOK or reporting the broken rule. -/
  | verifyComplete (t : Nat)
  /-- ENABLE (R229): Loader command 2 enables a verified context if the VWCET sum stays within 12 000. -/
  | enable (t cseq : Nat) (cx : Fin 64)
  /-- DISABLE (R220): Loader command 3 disables a context at the start of the next slot. -/
  | disable (t cseq : Nat) (cx : Fin 64)
  /-- PARAMETER_COMMAND (R222): PE_PCMD GO accepts 1 to 16 words for a context's data area. -/
  | parameterCommand (t cseq : Nat) (cx : Fin 64) (go : Bool)
  /-- CALIBRATION_START (R208): Every INT seconds a group's next channel starts background calibration on the spare converter. -/
  | calibrationStart (t : Nat) (group : Fin 4)
  /-- CALIBRATION_PHASE (R208): A calibration phase boundary switches the converter source or measurement. -/
  | calibrationPhase (t : Nat) (group : Fin 4)
  /-- CALIBRATION_END (R210): At 48 ms the calibration succeeds with new trims or fails and counts towards DEG. -/
  | calibrationEnd (t : Nat) (group : Fin 4) (r : CalResult)
  /-- REFERENCE_CHECK (R211): Once per group lap the spare converters compare group references against the median. -/
  | referenceCheck (t : Nat) (r0 r1 r2 r3 : Int)
  /-- PE_VECTOR_OP (R249): A V-slot arithmetic, permute or compare operation acts lane by lane. -/
  | peVectorOp (o : PeVector)
  /-- VLD (R246): VLD loads four words or four channels of one frame into a vector register. -/
  | vld (vd : PeReg) (m : PeMem)
  /-- VST (R246): VST stores a vector register to data memory or the result back buffer. -/
  | vst (vs : PeReg) (m : PeMem)
  /-- PE_SCALAR_OP (R251): An S-slot integer, binary32 or flag operation writes its result at the end of the bundle. -/
  | peScalarOp (o : PeScalar)
  /-- LDS (R251): LDS loads one word into a scalar register. -/
  | lds (sd : PeReg) (m : PeMem)
  /-- STS (R251): STS stores one scalar word, cutting the context on a bad indexed address. -/
  | sts (ss : PeReg) (m : PeMem)
  /-- PE_ACCUMULATOR_OP (R254): An accumulator add, subtract, load, store, compare or convert acts exactly on 64-bit values. -/
  | peAccumulatorOp (o : PeAccumulator)
  /-- BRF (R255): BRF branches forward when a flag equals the sense. -/
  | brf (fa : PeFlag) (sense : Bool) (off : BitVec 14)
  /-- BRA (R255): BRA branches forward unconditionally. -/
  | bra (off : BitVec 14)
  /-- LOOP (R255): LOOP repeats its body k times. -/
  | loopBegin (k : BitVec 12) (m : BitVec 14)
  /-- END (R255): END ends the MEAS or LOGIC entry. -/
  | endEntry
  /-- LIDX (R255): LIDX writes the pass index of a loop level. -/
  | lidx (sd : PeReg) (level : Fin 4)
  /-- TRP (R256): TRP sets a contribution bit from a flag, changing the trip matrix delivered to Girth. -/
  | trp (t : Nat) (k : Fin 32) (fa : PeFlag)
  /-- TRG (R237): TRG raises a record trigger line for the frame within the TRIG mask. -/
  | trg (t : Nat) (j : Fin 8) (fa : PeFlag)
  /-- GIRTH_PDATA_WRITE (R278): A write to GIRTH_PDATA stores a parameter word only in UNLOADED. -/
  | girthPdataWrite (v : Word)
  /-- GIRTH_LOAD (R278): Girth command LOAD checks the parameter set and enters ARMED or refuses it. -/
  | girthLoad (t cseq : Nat)
  /-- INSTRST (R305): Girth command INSTRST resets a latched instantaneous element if its last word is below threshold. -/
  | instrst (t cseq : Nat) (index : Fin 16)
  /-- GIRTH_CLROUT (R295): Girth command CLROUT clears a latched safety output fault when request and readback are off. -/
  | girthClrout (t cseq : Nat) (index : Fin 16) (readback : Bool)
  /-- GIRTH_SAFE_LATCH (R284): On a SAFE cause Girth latches SAFE, withdraws permits, ignores core trips and applies SAFETRIP. -/
  | girthSafeLatch (t : Nat)
  /-- GIRTH_CHANNEL_MISMATCH (R281): A mismatch between Girth's two channels latches SAFE with cause 7. -/
  | girthChannelMismatch (t : Nat) (group : BitVec 8)
  /-- DYNAMIC_ENABLE_LOSS (R282): A driver without an enable toggle for 20 µs opens safety outputs and fires GLTRIP trip outputs. -/
  | dynamicEnableLoss (t : Nat) (driver : Fin 5)
  /-- GLTRIP_PULSE_END (R282): The driver's 200 ms GLTRIP pulse ends and the trip output stops conducting. -/
  | gltripPulseEnd (t : Nat)
  /-- WATCHDOG_RESPONSE (R286): A write to GIRTH_WDRESP is judged on value and time, starting the watchdog, advancing the challenge or latching SAFE. -/
  | watchdogResponse (t : Nat) (v : Word)
  /-- WATCHDOG_TIMEOUT (R286): No correct response by WDMAX latches SAFE with cause 4. -/
  | watchdogTimeout (t : Nat)
  /-- FILTERED_STATE_CHANGE (R347): An input's comparator state held for FILT becomes its new filtered state. -/
  | filteredStateChange (t : Nat) (input : FilteredChange)
  /-- DISCREPANCY_FAULT (R289): The discrepancy count reaching K latches a pair discrepancy fault. -/
  | discrepancyFault (t : Nat) (pair : Fin 4)
  /-- REFRESH_TIMEOUT (R294): A safety output's refresh time runs out and Girth withdraws the permit. -/
  | refreshTimeout (t : Nat) (out : Fin 4)
  /-- SAFETY_EXTERNAL_DRIVE (R295): Readback on for 2 ms while commanded off latches EXTD and opens the low side. -/
  | safetyExternalDrive (t : Nat) (out : Fin 4)
  /-- SWITCH_TEST_START (R295): Every DARKPER Girth opens one switch of a conducting safety output for 200 µs. -/
  | switchTestStart (t : Nat) (out : Fin 4)
  /-- SWITCH_TEST_CHECK (R295): Readback not off within 150 µs, or another output changing, latches SWT. -/
  | switchTestCheck (t : Nat) (off : Bool) (changed : BitVec 4)
  /-- GIRTH_RAW_WORD_RECEIVE (R304): Girth accepts or discards a raw word and counts it in its instantaneous elements, operating at CONSEC. -/
  | girthRawWordReceive (t : Nat) (w : Word)
  /-- RAW_LOST (R306): No accepted word on a watched channel for 4 intervals makes it raw-lost. -/
  | rawLost (t : Nat) (ch : Fin 24)
  /-- PE_SILENT_CHANGE (R298): Eight intervals without a slot-end strobe make PE silent; 64 strobes restore it. -/
  | peSilentChange (t : Nat)
  /-- TRIP_RELEASE (R299): A trip output with all sources 0 and TMIN passed is released. -/
  | tripRelease (t : Nat) (trip : Fin 4)
  /-- TRIP_OVERLOAD_CUTOFF (R300): Current above 2.4 A for 300 ms switches a trip output off. -/
  | tripOverloadCutoff (t : Nat) (trip : Fin 4)
  /-- TRIP_CONFIRM_CHECK (R303): At 5 ms after energising Girth sets CONF or TFAIL by the output current. -/
  | tripConfirmCheck (t : Nat) (trip : Fin 4) (ma : Nat)
  /-- TCS_STATE_CHANGE (R302): A supervision class held for 400 ms changes GIRTH_TCS. -/
  | tcsStateChange (t : Nat) (trip : Fin 4) (supplyMv currentUa acrossMv : Nat)
  /-- TCS_RESUME (R302): Supervision resumes 1 s after a trip output's release. -/
  | tcsResume (t : Nat) (trip : Fin 4)
  /-- REC_EVENT_RECEIVE (R322): REC numbers an emitted event, applies the rate limiter, reads a snapshot set and queues the record. -/
  | recEventReceive (t : Nat)
  /-- RATE_LIMIT_REFILL (R322): A rate limiter bucket gains a token after its PERIOD. -/
  | rateLimitRefill (t : Nat) (entry : Fin 256)
  /-- EVENT_PROGRAM_DONE (R544): A flash program of queued records completes, removing them from the queue and erasing the oldest ring block when needed. -/
  | eventProgramDone (t : Nat) (n : Fin 5) (failed : Bool)
  /-- OPSEC_SAVE (R326): Every 60 s operating seconds and the power-cycle count are written to MRAM. -/
  | opsecSave (t : Nat)
  /-- FROST (R340): REC command FROST freezes the stored records. -/
  | frost (t cseq : Nat) (tool : Bool)
  /-- THAW (R342): REC command THAW returns the recorders to normal, subject to the frost source. -/
  | thaw (t cseq : Nat) (tool : Bool)
  /-- TRIGGER (R331): REC command TRIGGER is a core trigger when enabled. -/
  | trigger (t cseq : Nat)
  /-- EXPORT (R337): REC command EXPORT starts converting a disturbance record into COMTRADE files in DRAM. -/
  | exportRecord (t cseq : Nat)
  /-- EXPORT_COMPLETE (R337): The export completes and emits 0xC00A. -/
  | exportComplete (t : Nat)
  /-- READ (R328): REC command READ copies an event record into REC_EDATA. -/
  | readRecord (cseq : Nat)
  /-- CAPTURE_STORED (R334): A closed capture's copy to flash completes and its DRAM frames are released. -/
  | captureStored (t : Nat) (failedBlocks : List (Fin 3072))
  /-- WIRE_BREAK_CHANGE (R349): A break or intact reading held for 20 ms sets or clears the wire-break flag. -/
  | wireBreakChange (t : Nat) (input : Fin 24) (ua : Nat)
  /-- COUNTER_EDGE (R350): A qualified edge on a counter path increments the counter and stamps its time. -/
  | counterEdge (t : Nat) (counter : CountedEdge)
  /-- OUTPUT_OVERLOAD (R353): An output in current limit or thermal shutdown for 5 ms is switched off and latches OVL. -/
  | outputOverload (t : Nat) (out : Fin 16) (ma : Nat)
  /-- OUTPUT_EXTERNAL_DRIVE (R354): An output 5 to 16 commanded off with readback on for 2 ms latches EXTD or sets PDRV. -/
  | outputExternalDrive (t : Nat) (out : ReadbackHeld)
  /-- TEST_PULSE_START (R356): Every TPPER FIO opens a conducting output for 200 µs. -/
  | testPulseStart (t : Nat) (out : Fin 16)
  /-- TEST_PULSE_CHECK (R356): Readback not off within 150 µs or a change of another output latches TPF or WIRED. -/
  | testPulseCheck (t : Nat) (off : Bool) (changed : BitVec 16)
  /-- OPEN_LOAD (R357): An output conducting below 2 mA for 100 ms sets OPEN. -/
  | openLoad (t : Nat) (out : Fin 16) (ma : Nat)
  /-- FIELD_SUPPLY_STATE_CHANGE (R359): Field supply samples move a group among NORMAL, LOW, LOST and QUALIFIED. -/
  | fieldSupplyStateChange (t : Nat) (second : Bool) (mv : Nat)
  /-- FIO_CLROUT (R358): FIO command CLROUT clears an output's latched faults when request and readback are off. -/
  | fioClrout (t cseq : Nat) (index : Fin 32) (readback : Bool)
  /-- CLRFS (R360): FIO command CLRFS returns a QUALIFIED supply group to service. -/
  | clrfs (t cseq : Nat) (index : Fin 32)
  /-- LOOP_BAND_CHANGE (R364): A loop current entering another NE 43 band changes BAND. -/
  | loopBandChange (t : Nat) (ch : Fin 8) (ua : Int) (headroomMv : Nat)
  /-- LOOP_FLAG_CHANGE (R367): An OPEN or COMPL condition held or absent for 50 ms sets or clears the flag. -/
  | loopFlagChange (t : Nat) (ch : Fin 8) (compl : Bool)
  /-- LOOP_OVERLOAD (R368): Loop current above 30 mA for 1 ms disconnects the channel and sets OVLD. -/
  | loopOverload (t : Nat) (ch : Fin 8) (ua : Nat)
  /-- LOOP_OVERLOAD_RETRY (R368): Every 1 s an overloaded channel is tried again, clearing OVLD at 25 mA or below. -/
  | loopOverloadRetry (t : Nat) (ch : Fin 8) (ua : Nat)
  /-- LOOP_RELEASE_TIMEOUT (R365): An output channel without a release for TMO ms drives the alarm current. -/
  | loopReleaseTimeout (t : Nat) (ch : Fin 8)
  /-- JUMPER_CHANGE (R366): A jumper moved while powered sets JMPCHG and emits 0x7016. -/
  | jumperChange (t : Nat) (ch : Fin 8) (pos : Fin 4)
  /-- HART_GO (R372): ALP_HnCTL GO queues a HART frame for the channel's turn on its modem. -/
  | hartGo (t cseq : Nat) (ch : Fin 8) (len : Nat)
  /-- HART_TRANSACTION_END (R372): A HART transaction ends with a response or failure result in the buffer. -/
  | hartTransactionEnd (t : Nat) (second : Bool) (result : Fin 4) (response : List Byte)
  /-- HART_BURST_FRAME (R370): A frame from a burst-mode device is counted and discarded. -/
  | hartBurstFrame (ch : Fin 8)
  /-- KEY_SEL (R373): A short press of SEL selects the next KEYCAL input channel in SERVICE. -/
  | keySel (t : Nat) (down : Bool)
  /-- KEY_ZERO (R373): Holding ZERO for 2 s sets the selected channel's OFFS. -/
  | keyZero (t : Nat) (k : KeyHold)
  /-- KEY_SPAN (R373): Holding SPAN for 2 s sets the selected channel's GAIN. -/
  | keySpan (t : Nat) (k : KeyHold)
  /-- CLRTRIM (R373): ALP command CLRTRIM sets a channel's OFFS and GAIN to 0. -/
  | clrtrim (t cseq : Nat) (ch : Fin 8)
  /-- PD_RECEIVE (R384): A received process-data copy is checked and accepted as the flow's last block or discarded. -/
  | pdReceive (t : Nat) (port : Fin 3) (h : PdHeader) (data : List Byte)
  /-- SAFE_COPY_RECEIVE (R402): A safe telegram copy is checked by both units and judged by its SSEQ. -/
  | safeCopyReceive (t : Nat) (port : Fin 2) (h : PdHeader) (data : List Byte) (unitsAgree : Bool)
  /-- SKEW_WINDOW_END (R403): The copy window ends without the second copy, delivering a single copy or not under DUAL. -/
  | skewWindowEnd (t : Nat) (flow : Fin 256)
  /-- FLOW_TIMEOUT (R385): A receive flow without a copy or delivery for TMO ms is lost. -/
  | flowTimeout (t : Nat) (flow : Fin 256)
  /-- SAFE_DEADLINE_MISS (R400): A safe telegram not left its ports within DEADL counts a tier 4 break. -/
  | safeDeadlineMiss (t : Nat) (flow : Fin 256) (port : Fin 2) (benef shortfall : Nat)
  /-- RING_FRAME_RECEIVE (R386): Message data and frames of no flow are placed in the receive ring or dropped when full. -/
  | ringFrameReceive (t : Nat) (port : Fin 3) (kind : RingFrameKind) (tagged : Bool) (frame : List Byte)
  /-- ARP_ICMP_RECEIVE (R381): An ARP or ICMP echo request is answered. -/
  | arpIcmpReceive (t : Nat) (port : Fin 3) (arp tagged : Bool) (frame : List Byte)
  /-- TX_RING_POST (R386): Software advancing NET_TXPTR.HEAD hands transmit ring slots to NET. -/
  | txRingPost (t : Nat) (head : Fin 1024)
  /-- FRAME_BOUNDARY (R387): At each frame boundary a port sends the first eligible frame in its fixed order. -/
  | frameBoundary (t : Nat) (port : Fin 3)
  /-- LINK_CHANGE (R389): An Ethernet link comes up or goes down, reporting a slower speed where it applies. -/
  | linkChange (t : Nat) (port : Fin 3) (speed : LinkSpeed)
  /-- ACKSAFE (R405): NET command ACKSAFE completes recovery of a safe flow that waits for it. -/
  | acksafe (cseq : Nat) (flow : Fin 256) (executive : Bool)
  /-- NET_CLRCNT (R409): NET command CLRCNT clears the counts of a flow. -/
  | netClrcnt (cseq : Nat) (flow : Fin 256)
  /-- ENDSESS (R406): NET command ENDSESS closes the maintenance session. -/
  | endsess (cseq : Nat)
  /-- MAINT_DATAGRAM (R406): A maintenance datagram opens a session or performs one register read or write in sequence. -/
  | maintDatagram (t mac ip : Nat) (d : MaintDatagram)
  /-- MAINT_SESSION_TIMEOUT (R406): A session closes after 60 s idle, or a challenge lapses after 5 s. -/
  | maintSessionTimeout (t : Nat)
  /-- PTP_MESSAGE_RECEIVE (R393): A PTP message updates the servo, acquires SYNC or moves the TIME state. -/
  | ptpMessageReceive (t : Nat) (port : Fin 2) (m : PtpMessage)
  /-- PTP_INTERVAL (R397): A Sync, Announce or delay interval ends and TIME sends its PTP message. -/
  | ptpInterval (t : Nat) (port : Fin 2) (m : PtpSend)
  /-- MASTER_LOST (R392): Missing Announce or Sync messages put TIME into HOLDOVER. -/
  | masterLost (t : Nat) (sync : Bool) (port : Fin 2)
  /-- MONO_COMP_UPDATE (R391): Once per second COMP follows its temperature and learned terms within its slew limit. -/
  | monoCompUpdate (t : Nat) (temp pairDiff : Int)
  /-- TIME_STEP (R393): TIME command STEP steps SYNC by the latest offset in STOP with STEPNEED set. -/
  | timeStep (t cseq : Nat)
  /-- MONO_READ (R410): A read of TIME_MONO_LO returns MONO bits [31:0] and latches the high word. -/
  | monoRead (t : Nat)
  /-- SYNC_READ (R410): A read of TIME_SYNC_NS returns nanoseconds and latches the seconds. -/
  | syncRead (t : Nat)
  /-- OCT_BASIC_PERIOD_START (R421): As master OCT sends START on enabled channels 1 µs after a tick edge whose number is a multiple of 4. -/
  | octBasicPeriodStart (t : Nat)
  /-- OCT_ENTRY_DUE (R421): At S an active entry's master frame is sent, or the entry is skipped as a slot not served. -/
  | octEntryDue (t : Nat) (entry : Fin 4096) (delay : Nat) (intruder : Option (Fin 4096))
  /-- OCT_FRAME_RECEIVE (R423): A received Octette frame is checked, windowed and taken by master or followers. -/
  | octFrameReceive (t : Nat) (ch : Fin 2) (start : Nat) (f : OctFrame)
  /-- OCT_REPLY_SEND (R422): A follower sends its REPLY, CLAIM or HANDACK 1 µs after the end of the POLL, ADMIT or HANDOVER. -/
  | octReplySend (t : Nat) (ch : Fin 2)
  /-- OCT_EVENT_SEND (R424): A follower sends an EVENT frame at T0 + S − RTD when its data changed. -/
  | octEventSend (t : Nat) (entry : Fin 4096)
  /-- OCT_PORT_TIMEOUT (R428): An input port without an accepted frame for TMO basic periods is lost. -/
  | octPortTimeout (t : Nat) (port : Fin 512)
  /-- OCT_MASTER_LOSS (R436): No valid START for two basic periods declares the master lost. -/
  | octMasterLoss (t : Nat)
  /-- COLD_START_TIMER_END (R433): A cold-start listen, wait or silence time ends and the candidate moves to its next step. -/
  | coldStartTimerEnd (t : Nat)
  /-- OCT_COLLISION (R434): A sending candidate sees a differing cell or code violation and stops. -/
  | octCollision (t : Nat) (ch : Fin 2)
  /-- HANDOVER (R437): OCT command HANDOVER hands mastership to an admitted target. -/
  | handover (cseq : Nat) (addr : BitVec 7)
  /-- REVOKE (R432): OCT command REVOKE revokes the grants of an address. -/
  | revoke (cseq : Nat) (addr : BitVec 7)
  /-- OCT_CLRCNT (R440): OCT command CLRCNT clears the channel counts. -/
  | octClrcnt (cseq : Nat)
  /-- OCT_START_TIME_READ (R440): A read of OCT_TST_LO returns the last START time and latches its high word. -/
  | octStartTimeRead
  /-- PCIE_LINK_CHANGE (R441): The backplane link comes up or goes down, failing untracked writes when down. -/
  | pcieLinkChange (t : Nat) (up : Bool) (speed width : Nat)
  /-- PCIE_COMPLETION_RECEIVE (R446): A completion answers a held load, flush read, station read or configuration request. -/
  | pcieCompletionReceive (t tag status : Nat) (flaws : AnswerFlaws) (data : List Word)
  /-- COMPLETION_TIMEOUT (R446): A request without completion for CTO gives an error response and emits 0xA003. -/
  | completionTimeout (t tag : Nat)
  /-- FLUSH_TIMER (R450): 100 µs after the oldest untracked write of a window Bridle issues a flush read. -/
  | flushTimer (t win : Nat)
  /-- PCIE_ERROR_MESSAGE (R450): An ERR_NONFATAL or ERR_FATAL message starts AER reads to identify the failed write. -/
  | pcieErrorMessage (t : Nat) (wins : List Nat) (log : Option (Nat × Nat))
  /-- POSTED_WRITE_TIMEOUT (R450): A posted write untracked PWLIM after sending fails with kind 5. -/
  | postedWriteTimeout (t : Nat)
  /-- PCIE_INBOUND_REQUEST (R442): An inbound MSI write sets BRG_MSIPEND; any other inbound request is refused. -/
  | pcieInboundRequest (t : Nat) (r : InboundRequest)
  /-- RESUME (R451): BRG command RESUME reopens a stopped window with no untracked writes. -/
  | resume (cseq : Nat) (win : Fin 16)
  /-- CFGRD (R442): BRG command CFGRD issues a configuration read. -/
  | cfgrd (t cseq : Nat)
  /-- CFGWR (R442): BRG command CFGWR issues a configuration write. -/
  | cfgwr (t cseq : Nat)
  /-- WEFINFO_READ (R452): A read of BRG_WEFINFO returns and removes the write-error FIFO head. -/
  | wefinfoRead
  /-- PFLINFO_READ (R454): A read of BRG_PFLINFO returns and removes the discarded-prefetch log head. -/
  | pflinfoRead
  /-- READAHEAD_EXPIRY (R454): A read-ahead block older than RAHOLD is discarded and logged if unused. -/
  | readaheadExpiry (t : Nat)
  /-- STATION_READ_START (R455): LEAD before an exchange edge Bridle reads a station's input block. -/
  | stationReadStart (t : Nat) (station : Fin 256)
  /-- STATION_READ_TIMEOUT (R455): A station without a successful read for TMO ms is lost. -/
  | stationReadTimeout (t : Nat) (station : Fin 256)
  /-- SIDEBAND_INPUT_CHANGE (R457): A sideband input change sets CHG and may hold line 24. -/
  | sidebandInputChange (t : Nat) (levels : BitVec 8)
  /-- SIDEBAND_OUTPUT_WRITE (R457): A write to BRG_SBOUT drives the output sideband lines within 1 µs. -/
  | sidebandOutputWrite (levels : BitVec 8)
  /-- ROUTE_COPY (R460): On a source block's arrival the gateway copies its route slices, or skips them when the queue is full. -/
  | routeCopy (t : Nat) (kind : Fin 16) (source : Fin 4096) (lost : Bool)
  /-- HEARTBEAT_RECEIVE (R465): A partner heartbeat is checked and keeps its path current, feeding divergence and offset checks. -/
  | heartbeatReceive (t : Nat) (path : Fin 3) (data : List Byte) (delay : Nat)
  /-- LIVE_LINE_LOSS (R463): No live-line edge for 200 µs makes the partner's live line silent. -/
  | liveLineLoss (t : Nat)
  /-- PAIR_BLOCK_RECEIVE (R473): The standby stages a received tracked block in DRAM. -/
  | pairBlockReceive (t : Nat) (m : PairMessage)
  /-- COMMIT_RECORD_RECEIVE (R473): A complete commit record copies the staged blocks into the standby's tracked regions. -/
  | commitRecordReceive (t : Nat) (r : CommitRecord) (good : Bool)
  /-- SNAPSHOT_RECEIVE (R477): The standby receives the active's input snapshot for its corresponding step 9. -/
  | snapshotReceive (t tick : Nat) (entries : List (Nat × List Word))
  /-- PARTNER_BLOCK_RECEIVE (R484): The partner's kind 7 output block arrives over the cross-link as the kind 7 input block. -/
  | partnerBlockReceive (t : Nat) (words : List Word)
  /-- JOIN (R480): PAIR command JOIN starts joining the pair as standby. -/
  | join (t cseq : Nat)
  /-- JOIN_PHASE_COMPLETE (R480): A join phase completes, ending in STANDBY with READY once every task has joined. -/
  | joinPhaseComplete (t : Nat) (p : JoinPhase)
  /-- JOIN_FAIL (R480): A join phase fails or overruns its limit and the unit returns to STOP. -/
  | joinFail (t : Nat) (reason : Fin 7)
  /-- SWITCH (R483): PAIR command SWITCH makes the standby active at the next tick edge. -/
  | switch (cseq : Nat)
  /-- LEAVE_PAIR (R483): PAIR command LEAVE takes a standby out of the pair into STOP. -/
  | leavePair (t cseq : Nat)
  /-- FIRMWARE_LOADED (R497): The boot ROM has checked and copied a firmware image and BOOT ends in START_TEST, or SERVICE if none is bootable. -/
  | firmwareLoaded (t : Nat) (f : BootFindings)
  /-- START_TEST_COMPLETE (R499): The start-up test ends, passing, marking a core failed, resetting to apply repairs or demanding SAFE. -/
  | startTestComplete (t : Nat) (f : TestFindings)
  /-- LOAD_COMPLETE (R500): LOAD reloads engines and the Girth set and ends in CONFIGURE, or STOP for a wrong binding. -/
  | loadComplete (t : Nat) (check : SlotCheck) (cfg : Configuration)
  /-- CONFIGURE_COMPLETE (R501): CONFIGURE ends its checks, sets CFGOK and enters STOP. -/
  | configureComplete (t : Nat)
  /-- PHASE_OVERRUN (R496): A start phase overrunning its limit raises SAFE demand code 4 or 5. -/
  | phaseOverrun (t : Nat)
  /-- GIRTH_SILENT (R504): No toggle of the trip driver enable for 20 µs makes SYS demand SAFE and enter SAFE itself. -/
  | girthSilent (t ns : Nat)
  /-- SERVICE (R495): SYS command SERVICE moves STOP to SERVICE. -/
  | service (t cseq : Nat) (tool : Bool)
  /-- LEAVE (R495): SYS command LEAVE moves SERVICE to STOP. -/
  | leave (t cseq : Nat)
  /-- RESET (R495): SYS command RESET resets the module without loss of supply. -/
  | resetCommand (t cseq : Nat) (tool : Bool)
  /-- SAFE (R503): SYS command SAFE demands SAFE with code 8. -/
  | safeCommand (t cseq : Nat)
  /-- STAGE (R514): SYS command STAGE copies bytes from DRAM into the staging region. -/
  | stage (t cseq : Nat)
  /-- SYS_VERIFY (R513): SYS command VERIFY checks the image set in staging. -/
  | sysVerify (t cseq : Nat)
  /-- INSTALL (R515): SYS command INSTALL writes the verified set into the inactive slot. -/
  | install (t cseq : Nat)
  /-- ACTIVATE (R515): SYS command ACTIVATE makes the inactive slot the trial slot. -/
  | activate (t cseq : Nat)
  /-- CONFIRM (R515): SYS command CONFIRM makes the trial slot active and advances the fused SVNs. -/
  | confirm (t cseq : Nat)
  /-- PKGLOAD (R516): SYS command PKGLOAD checks and decrypts a change package into the package area. -/
  | pkgload (t cseq : Nat)
  /-- LCADV (R489): SYS command LCADV advances the life-cycle state in fuses. -/
  | lcadv (t cseq : Nat) (tool : Bool)
  /-- SYS_FLASH_COMMAND_DONE (R514): A flash command of SYS running as tier 6 work completes and reports its result. -/
  | sysFlashCommandDone (t : Nat) (checks : List ImageCrypto) (payload : List Word)
  /-- OVSEL_WRITE (R502): A write of SYS_OVSEL.TMODE requests the overlay mask of the selection table for the next step 6. -/
  | ovselWrite (tmode : Fin 8)
  /-- BIST_SLICE (R505): A periodic BIST slice runs in an idle slot of its block and may fail with SAFE code 6. -/
  | bistSlice (t : Nat) (slice : BitVec 15) (failed : Option (BitVec 16))
  /-- BIST_LAP_LATE (R507): A running BIST lap longer than LAPMAX sets LATE and may demand SAFE. -/
  | bistLapLate (t : Nat)
  /-- BIST_MANUAL_RUN (R509): BIST_MCMD GO runs one start-up test item in STOP. -/
  | bistManualRun (t cseq : Nat) (item : Fin 16) (go : Bool)
  /-- BIST_MANUAL_DONE (R509): The manual test item completes and reports its result. -/
  | bistManualDone (t : Nat) (failed : Option (BitVec 16))
  /-- LED_REFRESH (R539): Every 100 ms the front-panel LEDs are refreshed from the module state. -/
  | ledRefresh (t : Nat) (trafficA trafficB : Bool)
  /-- ILLEGAL_INSTRUCTION (R90): A core executes an encoding that no opcode table defines, including the all-zero word from an unwritten location, and raises the illegal-instruction exception; or the
  complex finds a check error in the fetched word, whatever it is (02 R48). -/
  | illegalInstruction (c : Reading) (w : Word)
  /-- LIVE_LINE_RETURN (R463): An edge on PAIR_LIVEI after a silence makes the partner's live line toggle again and sets PAIR_STAT.LIVE. -/
  | liveLineReturn (t : Nat)
  /-- CALIBRATION_AGE_EXCEEDED (R211): A channel's AGE count passes 10 times its group lap and the AFE emits event 0x5017. -/
  | calibrationAgeExceeded (t : Nat) (ch : Fin 24)
  /-- COLD_START_FRAME_END (R433): A candidate's cold START ends without a collision, and the module becomes Octette master and emits 0x9001. -/
  | coldStartFrameEnd (t : Nat)
  /-- CARRIER (R433): A signal that does not form a valid frame appears on an Octette channel and restarts a candidate's 2.00 ms listen or sends it back to step 1. -/
  | carrier (t : Nat) (ch : Fin 2)
  /-- FUSE_WRITE_COMPLETE (R489): The fuse write of an accepted LCADV completes within 40 ms and the new life-cycle state takes effect. -/
  | fuseWriteComplete (t : Nat)
deriving DecidableEq, Repr

end Sys2Proof
end

