-- ==== Sys2Proof/Decode.lean ====
section
/-!
DEFINITION. The command a word of the opcode table spells. The table gives no row any bits: commands come as events,
register accesses and core instructions with decoded operands, not as words. Log entry 45.
-/

namespace Sys2Proof

/-- The command spelled by `nbits` bits of `w`: none, since the opcode table gives bits to no row. -/
def decodeTableWord (_nbits _w : Nat) : Option Instr := none

end Sys2Proof
end

