-- ==== Sys2Proof/Machine/Ecc.lean ====
section
/-!
DEFINITION. The check code of stored words (04 R134 to R136, R549): 32 data bits, 7 check bits, a valid bit.
A stored word is V in bit 39, C in bits [38:32], D in bits [31:0].
-/

namespace Sys2Proof.Machine

/-- The columns H(d) of data bits d0 to d31 (04 R134). -/
def eccColumns : List Nat :=
  [0x07, 0x0B, 0x13, 0x23, 0x43, 0x0D, 0x15, 0x25, 0x45, 0x19, 0x29, 0x49, 0x31, 0x51, 0x61, 0x0E,
   0x16, 0x26, 0x46, 0x1A, 0x2A, 0x4A, 0x32, 0x52, 0x62, 0x1C, 0x2C, 0x4C, 0x34, 0x54, 0x64, 0x38]

/-- The exclusive-OR of the columns whose data bit is 1. -/
def checkFold : List Nat → Nat → Nat
  | [], _ => 0
  | h :: t, d => Nat.xor (if d % 2 = 1 then h else 0) (checkFold t (d / 2))

/-- The check bits of data `d`. -/
def checkBits (d : Word) : BitVec 7 := BitVec.ofNat 7 (checkFold eccColumns d.toNat)

/-- A stored word from its parts. -/
def mword (v : Bool) (c : BitVec 7) (d : Word) : MWord := (BitVec.ofBool v ++ c) ++ d

/-- The stored form of written data (04 R134). -/
def encodeWord (d : Word) : MWord := mword true (checkBits d) d

/-- The unwritten marker (04 R136). -/
def unwrittenMarker : MWord := mword false 0x7F#7 0#32

/-- The poison marker (04 R136). -/
def poisonMarker : MWord := mword true 0x7F#7 0#32

def MWord.v (w : MWord) : Bool := w.getLsbD 39
def MWord.c (w : MWord) : BitVec 7 := w.extractLsb' 32 7
def MWord.d (w : MWord) : Word := w.extractLsb' 0 32

/-- C exclusive-OR the check bits computed from D (04 R134). -/
def syndrome (w : MWord) : Nat := (MWord.c w ^^^ checkBits (MWord.d w)).toNat

/-- Number of ones among the low `n` bits. -/
def onesBelow : Nat → Nat → Nat
  | 0, _ => 0
  | n + 1, v => v % 2 + onesBelow n (v / 2)

/-- Position of a value in a list, counting from `i`. -/
def positionFrom (i : Nat) (v : Nat) : List Nat → Option Nat
  | [] => none
  | h :: t => if h = v then some i else positionFrom (i + 1) v t

/-- The data bit a syndrome names, if it equals a column (04 R135). -/
def syndromeBit (syn : Nat) : Option Nat := positionFrom 0 syn eccColumns

/-- What MEM makes of a stored word (04 R135, R136, R549). `fixed`: a correction was made; `vbit`: in V. -/
inductive WordClass where
  | unwritten (fixed : Bool)
  | written (d : Word) (fixed vbit : Bool)
  | poisoned
  | uncorrectable
deriving DecidableEq, Repr

/-- D after correction under R135: none where the syndrome is uncorrectable. -/
def correctedData (w : MWord) : Option (Word × Bool) :=
  let syn := syndrome w
  if syn = 0 then some (MWord.d w, false)
  else match syndromeBit syn with
    | some b => some (MWord.d w ^^^ BitVec.ofNat 32 (2 ^ b), true)
    | none => if onesBelow 7 syn = 1 then some (MWord.d w, true) else none

/-- The classes of 04 R135 (V = 1) and R136 (V = 0). -/
def classify (w : MWord) : WordClass :=
  if MWord.v w then
    if w = poisonMarker then .poisoned
    else match correctedData w with
      | some (d, fixed) => .written d fixed false
      | none => .uncorrectable
  else
    let away := onesBelow 39 (w ^^^ unwrittenMarker).toNat
    if away = 0 then .unwritten false
    else if away = 1 then .unwritten true
    else match correctedData w with
      | some (d, _) => .written d true true
      | none => .uncorrectable

end Sys2Proof.Machine
end

