-- ==== Sys2Proof/Config.lean ====
section
/-!
DEFINITION. What the spec leaves open: free values and functions the spec names by reference only. None has
a body, so no proof can see a value of it.
-/

namespace Sys2Proof.Config

/-- Contents of the boot ROM, word by word (01 R19; the spec gives none). Log entry 6. -/
opaque bootRom : Nat → Word

/-- A free value, drawn with the state's counter `free`. Log entry 5. -/
opaque freeValue : Nat → Word

/-- Whether tininess is detected after rounding. IEEE 754-2019, which 03 R96 follows, leaves the choice to the
implementation, once for all operations. Log entry 10. -/
opaque tininessAfterRounding : Bool

/-- Whether a fused operation on 0 x infinity plus a quiet NaN raises NV. IEEE 754-2019 leaves it open. Log entry 10. -/
opaque fusedZeroInfinityInvalid : Bool

/-- The deviation of Girth's crystal from MONO in each second of MONO, in parts per 10^9; `girthRate` keeps it within the 50 ppm
of 08 R276. Log entry 12. -/
opaque girthPpb : Nat → Int

/-- Whether a tie rounds up, by the floor of the number: the manual's `round` and its unstated roundings do not say
how ties go. Log entry 15. -/
opaque tieUp : Int → Bool

/-- A binary32 scale as decimal text in a COMTRADE configuration file, ASCII codes (09 R338 does not give the form).
Log entry 16. -/
opaque scaleText : Word → List Nat

/-- FLG2 of a positive operand and FEX2 of a number: "accurate to 2 ulp", the result itself is not given (07 R253). Machine/PeIsa.lean
takes these values only within that bound. Log entry 17. -/
opaque log2 : Word → Word
opaque exp2 : Word → Word

/-- The temperature term of TIME_COMP in units of 2^-32 at a temperature: the unit's fused factory curve, of which the manual gives no
point (11 R391). Log entry 23. -/
opaque temperatureTerm : Int → Int

/-- Slices in a BIST lap, the content of BIST_STAT.NSLICE (15 R505 gives no number). Log entry 27. -/
opaque bistSlices : Nat

/-- The words in a line of a service core's data cache, as a power of 2 (02 R74; the manual gives the caches' sizes only).
Log entry 42. -/
opaque cacheLine : Nat

end Sys2Proof.Config
end

