-- ==== Sys2Proof/Machine/CMap.lean ====
section
/-!
DEFINITION. Sparse storage as plain data: a list of key and value pairs in one canonical form, the keys
strictly rising and no entry equal to what an unlisted key reads as (`d`). Registers, memories and buffers
are held so.
-/

namespace Sys2Proof.Machine.CMap

variable {α : Type}

/-- The value at key `k`: the listed one, else the default `d k`. -/
def lookup (d : Nat → α) : List (Nat × α) → Nat → α
  | [], k => d k
  | (a, v) :: r, k => if k = a then v else lookup d r k

/-- Place `v` at key `k` in key order. -/
def place : List (Nat × α) → Nat → α → List (Nat × α)
  | [], k, v => [(k, v)]
  | (a, w) :: r, k, v =>
    if k < a then (k, v) :: (a, w) :: r
    else if k = a then (k, v) :: r
    else (a, w) :: place r k v

/-- Drop every entry at key `k`. -/
def drop (l : List (Nat × α)) (k : Nat) : List (Nat × α) := l.filter fun e => e.1 != k

/-- Write `v` at key `k`, keeping the canonical form. -/
def put [DecidableEq α] (d : Nat → α) (l : List (Nat × α)) (k : Nat) (v : α) : List (Nat × α) :=
  if v = d k then drop l k else place l k v

/-- Change every listed value, keeping the canonical form. -/
def mapValues [DecidableEq α] (d : Nat → α) (f : α → α) (l : List (Nat × α)) : List (Nat × α) :=
  (l.map fun e => (e.1, f e.2)).filter fun e => decide (e.2 ≠ d e.1)

/-- The keys rise strictly, starting above `lo` where one is given. -/
def rising : Option Nat → List (Nat × α) → Bool
  | _, [] => true
  | none, (a, _) :: r => rising (some a) r
  | some b, (a, _) :: r => decide (b < a) && rising (some a) r

/-- The canonical form. -/
def wf [DecidableEq α] (d : Nat → α) (l : List (Nat × α)) : Bool :=
  rising none l && l.all fun e => decide (e.2 ≠ d e.1)

end Sys2Proof.Machine.CMap
end

