-- ==== Sys2Proof/Machine/RegNames.lean ====
section
/-!
DEFINITION. The names of the module's registers and of their fields, as the register tables of the spec
give them (00 R3: block n is at 0x4000_0000 + n x 0x0010_0000). A register array takes its index; a banked
register (one behind a select register) is addressed by its bank key, see `bank`. Generated from the
register tables of spec/02 to spec/15, block by block.
-/

namespace Sys2Proof.Machine

/-- A field of a register: the key of the register, its lowest bit and its width. -/
structure Fld where
  reg : Nat
  lo : Nat
  w : Nat
deriving DecidableEq, Repr

/-- The key of a register behind a select register: its address and the selected index. -/
def bank (reg idx : Nat) : Nat := reg + idx * 0x100000000

namespace Reg

/-! Block CORE, 02_two_out_of_three_core.md -/

/-- 02 R80 -/
def CORE_ID : Nat := 0x40100000
def CORE_ID_PART : Fld := ⟨CORE_ID, 16, 16⟩
def CORE_ID_ISSUE : Fld := ⟨CORE_ID, 8, 8⟩
def CORE_ID_STEP : Fld := ⟨CORE_ID, 0, 8⟩
/-- 02 R80 -/
def CORE_STAT : Nat := 0x40100004
def CORE_STAT_VOTE : Fld := ⟨CORE_STAT, 0, 2⟩
def CORE_STAT_ODD : Fld := ⟨CORE_STAT, 2, 2⟩
def CORE_STAT_FAILED : Fld := ⟨CORE_STAT, 4, 3⟩
def CORE_STAT_LEAD : Fld := ⟨CORE_STAT, 8, 1⟩
def CORE_STAT_HALTED : Fld := ⟨CORE_STAT, 12, 1⟩
/-- 02 R80 -/
def CORE_DIS : Nat := 0x40100008
def CORE_DIS_P2 : Fld := ⟨CORE_DIS, 0, 1⟩
def CORE_DIS_P3 : Fld := ⟨CORE_DIS, 1, 1⟩
def CORE_DIS_P4 : Fld := ⟨CORE_DIS, 2, 1⟩
def CORE_DIS_RSFAIL : Fld := ⟨CORE_DIS, 3, 1⟩
def CORE_DIS_RSLIM : Fld := ⟨CORE_DIS, 4, 1⟩
/-- 02 R80 -/
def CORE_OUTV0 : Nat := 0x4010000C
def CORE_OUTV0_COUNT : Fld := ⟨CORE_OUTV0, 0, 32⟩
/-- 02 R80 -/
def CORE_OUTV1 : Nat := 0x40100010
def CORE_OUTV1_COUNT : Fld := ⟨CORE_OUTV1, 0, 32⟩
/-- 02 R80 -/
def CORE_OUTV2 : Nat := 0x40100014
def CORE_OUTV2_COUNT : Fld := ⟨CORE_OUTV2, 0, 32⟩
/-- 02 R80 -/
def CORE_LASTA : Nat := 0x40100018
def CORE_LASTA_ADDR : Fld := ⟨CORE_LASTA, 0, 32⟩
/-- 02 R80 -/
def CORE_LASTK : Nat := 0x4010001C
def CORE_LASTK_CORE : Fld := ⟨CORE_LASTK, 0, 2⟩
def CORE_LASTK_PORT : Fld := ⟨CORE_LASTK, 2, 1⟩
def CORE_LASTK_FIELD : Fld := ⟨CORE_LASTK, 3, 3⟩
def CORE_LASTK_P4 : Fld := ⟨CORE_LASTK, 6, 1⟩
def CORE_LASTK_PART : Fld := ⟨CORE_LASTK, 8, 5⟩
def CORE_LASTK_RICL : Fld := ⟨CORE_LASTK, 16, 16⟩
/-- 02 R80 -/
def CORE_RIC_LO : Nat := 0x40100020
def CORE_RIC_LO_COUNT : Fld := ⟨CORE_RIC_LO, 0, 32⟩
/-- 02 R80 -/
def CORE_RIC_HI : Nat := 0x40100024
def CORE_RIC_HI_COUNT : Fld := ⟨CORE_RIC_HI, 0, 32⟩
/-- 02 R80 -/
def CORE_CFG : Nat := 0x40100028
def CORE_CFG_RSLIM : Fld := ⟨CORE_CFG, 0, 4⟩
def CORE_CFG_DEGALLOW : Fld := ⟨CORE_CFG, 8, 1⟩
def CORE_CFG_FAILSAFE : Fld := ⟨CORE_CFG, 9, 1⟩
/-- 02 R80 -/
def CORE_RSCNT : Nat := 0x4010002C
def CORE_RSCNT_C0 : Fld := ⟨CORE_RSCNT, 0, 8⟩
def CORE_RSCNT_C1 : Fld := ⟨CORE_RSCNT, 8, 8⟩
def CORE_RSCNT_C2 : Fld := ⟨CORE_RSCNT, 16, 8⟩
/-- 02 R80 -/
def CORE_RSLAST : Nat := 0x40100030
def CORE_RSLAST_DUR : Fld := ⟨CORE_RSLAST, 0, 16⟩
def CORE_RSLAST_CORE : Fld := ⟨CORE_RSLAST, 16, 2⟩
def CORE_RSLAST_OK : Fld := ⟨CORE_RSLAST, 18, 1⟩
def CORE_RSLAST_CASE : Fld := ⟨CORE_RSLAST, 20, 2⟩
/-- 02 R80 -/
def CORE_DBGCMD : Nat := 0x40100040
def CORE_DBGCMD_CMD : Fld := ⟨CORE_DBGCMD, 0, 4⟩
def CORE_DBGCMD_INDEX : Fld := ⟨CORE_DBGCMD, 8, 5⟩
def CORE_DBGCMD_CSEQ : Fld := ⟨CORE_DBGCMD, 16, 16⟩
/-- 02 R80 -/
def CORE_DBGADDR : Nat := 0x40100044
def CORE_DBGADDR_VALUE : Fld := ⟨CORE_DBGADDR, 0, 32⟩
/-- 02 R80 -/
def CORE_DBGDATA_LO : Nat := 0x40100048
def CORE_DBGDATA_LO_VALUE : Fld := ⟨CORE_DBGDATA_LO, 0, 32⟩
/-- 02 R80 -/
def CORE_DBGDATA_HI : Nat := 0x4010004C
def CORE_DBGDATA_HI_VALUE : Fld := ⟨CORE_DBGDATA_HI, 0, 32⟩
/-- 02 R80 -/
def CORE_DBGSTAT : Nat := 0x40100050
def CORE_DBGSTAT_STATE : Fld := ⟨CORE_DBGSTAT, 0, 2⟩
def CORE_DBGSTAT_RESULT : Fld := ⟨CORE_DBGSTAT, 4, 4⟩
def CORE_DBGSTAT_LOGUSED : Fld := ⟨CORE_DBGSTAT, 8, 9⟩
/-- 02 R80 -/
def CORE_DBGSEQ : Nat := 0x40100054
def CORE_DBGSEQ_LASTCMD : Fld := ⟨CORE_DBGSEQ, 0, 16⟩
def CORE_DBGSEQ_LASTEVT : Fld := ⟨CORE_DBGSEQ, 16, 16⟩
/-- 02 R80 -/
def CORE_DBGCTL : Nat := 0x40100058
def CORE_DBGCTL_RSOK : Fld := ⟨CORE_DBGCTL, 0, 1⟩
/-- 02 R80 -/
def CORE_DBGHRIC_LO : Nat := 0x40100060
def CORE_DBGHRIC_LO_COUNT : Fld := ⟨CORE_DBGHRIC_LO, 0, 32⟩
/-- 02 R80 -/
def CORE_DBGHRIC_HI : Nat := 0x40100064
def CORE_DBGHRIC_HI_COUNT : Fld := ⟨CORE_DBGHRIC_HI, 0, 32⟩
/-- 02 R80 -/
def CORE_SCCTL : Nat := 0x40100080
def CORE_SCCTL_EN0 : Fld := ⟨CORE_SCCTL, 0, 1⟩
def CORE_SCCTL_EN1 : Fld := ⟨CORE_SCCTL, 1, 1⟩
def CORE_SCCTL_WDT : Fld := ⟨CORE_SCCTL, 4, 12⟩
/-- 02 R80 -/
def CORE_SCKICK0 : Nat := 0x40100084
def CORE_SCKICK0_KEY : Fld := ⟨CORE_SCKICK0, 0, 32⟩
/-- 02 R80 -/
def CORE_SCKICK1 : Nat := 0x40100088
def CORE_SCKICK1_KEY : Fld := ⟨CORE_SCKICK1, 0, 32⟩
/-- 02 R80 -/
def CORE_SCSTAT : Nat := 0x4010008C
def CORE_SCSTAT_RUN0 : Fld := ⟨CORE_SCSTAT, 0, 1⟩
def CORE_SCSTAT_RUN1 : Fld := ⟨CORE_SCSTAT, 1, 1⟩
def CORE_SCSTAT_WDT0 : Fld := ⟨CORE_SCSTAT, 8, 1⟩
def CORE_SCSTAT_WDT1 : Fld := ⟨CORE_SCSTAT, 9, 1⟩
def CORE_SCSTAT_FWV0 : Fld := ⟨CORE_SCSTAT, 16, 1⟩
def CORE_SCSTAT_FWV1 : Fld := ⟨CORE_SCSTAT, 17, 1⟩
def CORE_SCSTAT_MFLT0 : Fld := ⟨CORE_SCSTAT, 24, 1⟩
def CORE_SCSTAT_MFLT1 : Fld := ⟨CORE_SCSTAT, 25, 1⟩
/-- 02 R80 -/
def CORE_SCFWA0 : Nat := 0x40100090
def CORE_SCFWA0_ADDR : Fld := ⟨CORE_SCFWA0, 0, 32⟩
/-- 02 R80 -/
def CORE_SCFWA1 : Nat := 0x40100094
def CORE_SCFWA1_ADDR : Fld := ⟨CORE_SCFWA1, 0, 32⟩
/-! Block MEM, 04_shared_memory_and_ecc.md -/

/-- 04 R165 -/
def MEM_ID : Nat := 0x40200000
def MEM_ID_PART : Fld := ⟨MEM_ID, 16, 16⟩
def MEM_ID_ISSUE : Fld := ⟨MEM_ID, 8, 8⟩
def MEM_ID_STEP : Fld := ⟨MEM_ID, 0, 8⟩
/-- 04 R165 -/
def MEM_STAT : Nat := 0x40200004
def MEM_STAT_SINIT : Fld := ⟨MEM_STAT, 0, 1⟩
def MEM_STAT_DINIT : Fld := ⟨MEM_STAT, 1, 1⟩
def MEM_STAT_PROMO : Fld := ⟨MEM_STAT, 2, 1⟩
def MEM_STAT_RPPEND : Fld := ⟨MEM_STAT, 3, 1⟩
def MEM_STAT_RPEXH : Fld := ⟨MEM_STAT, 4, 1⟩
def MEM_STAT_LOGBAD : Fld := ⟨MEM_STAT, 5, 1⟩
def MEM_STAT_CLRBUSY : Fld := ⟨MEM_STAT, 8, 1⟩
/-- 04 R165 -/
def MEM_DBANK : Nat := 0x40200008
def MEM_DBANK_CX : Fld := ⟨MEM_DBANK, 0, 2⟩
def MEM_DBANK_SC0 : Fld := ⟨MEM_DBANK, 8, 2⟩
def MEM_DBANK_SC1 : Fld := ⟨MEM_DBANK, 16, 2⟩
/-- 04 R165 -/
def MEM_CECNT : Nat := 0x40200010
def MEM_CECNT_COUNT : Fld := ⟨MEM_CECNT, 0, 32⟩
/-- 04 R165 -/
def MEM_UECNT : Nat := 0x40200014
def MEM_UECNT_COUNT : Fld := ⟨MEM_UECNT, 0, 32⟩
/-- 04 R165 -/
def MEM_LASTCE : Nat := 0x40200018
def MEM_LASTCE_ADDR : Fld := ⟨MEM_LASTCE, 0, 32⟩
/-- 04 R165 -/
def MEM_LASTCS : Nat := 0x4020001C
def MEM_LASTCS_SYN : Fld := ⟨MEM_LASTCS, 0, 7⟩
def MEM_LASTCS_VBIT : Fld := ⟨MEM_LASTCS, 7, 1⟩
def MEM_LASTCS_SPACE : Fld := ⟨MEM_LASTCS, 8, 2⟩
def MEM_LASTCS_SRC : Fld := ⟨MEM_LASTCS, 10, 1⟩
def MEM_LASTCS_HARD : Fld := ⟨MEM_LASTCS, 11, 1⟩
/-- 04 R165 -/
def MEM_PQADDR : Nat := 0x40200020
def MEM_PQADDR_ADDR : Fld := ⟨MEM_PQADDR, 0, 32⟩
/-- 04 R165 -/
def MEM_PQINFO : Nat := 0x40200024
def MEM_PQINFO_PART : Fld := ⟨MEM_PQINFO, 0, 5⟩
def MEM_PQINFO_NOOWN : Fld := ⟨MEM_PQINFO, 5, 1⟩
def MEM_PQINFO_SPACE : Fld := ⟨MEM_PQINFO, 6, 2⟩
def MEM_PQINFO_SAFETY : Fld := ⟨MEM_PQINFO, 8, 1⟩
def MEM_PQINFO_MASTER : Fld := ⟨MEM_PQINFO, 9, 3⟩
def MEM_PQINFO_DEPTH : Fld := ⟨MEM_PQINFO, 16, 5⟩
def MEM_PQINFO_OVF : Fld := ⟨MEM_PQINFO, 31, 1⟩
/-- 04 R165 -/
def MEM_SCRCTL : Nat := 0x40200030
def MEM_SCRCTL_EN : Fld := ⟨MEM_SCRCTL, 0, 1⟩
def MEM_SCRCTL_LAPMAX : Fld := ⟨MEM_SCRCTL, 8, 17⟩
/-- 04 R165 -/
def MEM_SCRLAST : Nat := 0x40200034
def MEM_SCRLAST_VALUE : Fld := ⟨MEM_SCRLAST, 0, 32⟩
/-- 04 R165 -/
def MEM_SCRWORST : Nat := 0x40200038
def MEM_SCRWORST_VALUE : Fld := ⟨MEM_SCRWORST, 0, 32⟩
/-- 04 R165 -/
def MEM_SCRLAPS : Nat := 0x4020003C
def MEM_SCRLAPS_VALUE : Fld := ⟨MEM_SCRLAPS, 0, 32⟩
/-- 04 R165 -/
def MEM_FLIPA : Nat := 0x40200040
def MEM_FLIPA_VALUE : Fld := ⟨MEM_FLIPA, 0, 32⟩
/-- 04 R165 -/
def MEM_FLIPD : Nat := 0x40200044
def MEM_FLIPD_VALUE : Fld := ⟨MEM_FLIPD, 0, 32⟩
/-- 04 R165 -/
def MEM_FLIPC : Nat := 0x40200048
def MEM_FLIPC_CHK : Fld := ⟨MEM_FLIPC, 0, 7⟩
def MEM_FLIPC_VAL : Fld := ⟨MEM_FLIPC, 7, 1⟩
/-- 04 R165 -/
def MEM_FLIPCTL : Nat := 0x4020004C
def MEM_FLIPCTL_ARM : Fld := ⟨MEM_FLIPCTL, 0, 1⟩
def MEM_FLIPCTL_DONE : Fld := ⟨MEM_FLIPCTL, 1, 1⟩
def MEM_FLIPCTL_BAD : Fld := ⟨MEM_FLIPCTL, 2, 1⟩
/-- 04 R165 -/
def MEM_RPSTAT : Nat := 0x40200050
def MEM_RPSTAT_USED : Fld := ⟨MEM_RPSTAT, 0, 8⟩
def MEM_RPSTAT_PEND : Fld := ⟨MEM_RPSTAT, 8, 8⟩
def MEM_RPSTAT_LASTMAC : Fld := ⟨MEM_RPSTAT, 16, 4⟩
/-- 04 R165 -/
def MEM_RPLAST : Nat := 0x40200054
def MEM_RPLAST_ENTRY : Fld := ⟨MEM_RPLAST, 0, 32⟩
/-- 04 R165 -/
def MEM_CLRBASE : Nat := 0x40200060
def MEM_CLRBASE_VALUE : Fld := ⟨MEM_CLRBASE, 0, 32⟩
/-- 04 R165 -/
def MEM_CLRLEN : Nat := 0x40200064
def MEM_CLRLEN_VALUE : Fld := ⟨MEM_CLRLEN, 0, 32⟩
/-- 04 R165 -/
def MEM_CLRCMD : Nat := 0x40200068
def MEM_CLRCMD_GO : Fld := ⟨MEM_CLRCMD, 0, 1⟩
def MEM_CLRCMD_CSEQ : Fld := ⟨MEM_CLRCMD, 16, 16⟩
/-- 04 R165 -/
def MEM_CLRSEQ : Nat := 0x4020006C
def MEM_CLRSEQ_LASTCMD : Fld := ⟨MEM_CLRSEQ, 0, 16⟩
def MEM_CLRSEQ_LASTEVT : Fld := ⟨MEM_CLRSEQ, 16, 16⟩
/-- 04 R165 -/
def MEM_ARBSEL : Nat := 0x40200070
def MEM_ARBSEL_ARB : Fld := ⟨MEM_ARBSEL, 0, 3⟩
def MEM_ARBSEL_SLOT : Fld := ⟨MEM_ARBSEL, 8, 6⟩
/-- 04 R165 -/
def MEM_ARBDAT : Nat := 0x40200074
def MEM_ARBDAT_MASTER : Fld := ⟨MEM_ARBDAT, 0, 4⟩
def MEM_ARBDAT_CLAIM : Fld := ⟨MEM_ARBDAT, 16, 16⟩
/-- 04 R165 -/
def MEM_CLRRES : Nat := 0x40200078
def MEM_CLRRES_RESULT : Fld := ⟨MEM_CLRRES, 0, 4⟩
/-- 04 R165 -/
def MEM_REGnB (n : Nat) : Nat := 0x40200100 + 0x10 * n
def MEM_REGnB_SPACE (n : Nat) : Fld := ⟨MEM_REGnB n, 0, 2⟩
def MEM_REGnB_BASE (n : Nat) : Fld := ⟨MEM_REGnB n, 12, 20⟩
/-- 04 R165 -/
def MEM_REGnL (n : Nat) : Nat := 0x40200104 + 0x10 * n
def MEM_REGnL_EN (n : Nat) : Fld := ⟨MEM_REGnL n, 0, 1⟩
def MEM_REGnL_LIMIT (n : Nat) : Fld := ⟨MEM_REGnL n, 12, 20⟩
/-- 04 R165 -/
def MEM_REGnA (n : Nat) : Nat := 0x40200108 + 0x10 * n
def MEM_REGnA_OWNER (n : Nat) : Fld := ⟨MEM_REGnA n, 0, 5⟩
def MEM_REGnA_SAFETY (n : Nat) : Fld := ⟨MEM_REGnA n, 8, 1⟩
def MEM_REGnA_STRICT (n : Nat) : Fld := ⟨MEM_REGnA n, 9, 1⟩
def MEM_REGnA_CODE (n : Nat) : Fld := ⟨MEM_REGnA n, 10, 1⟩
/-- 04 R165 -/
def MEM_REGnS (n : Nat) : Nat := 0x4020010C + 0x10 * n
def MEM_REGnS_SRC (n : Nat) : Fld := ⟨MEM_REGnS n, 0, 32⟩
/-! Block CYC, 05_cyclic_execution.md -/

/-- 05 R202 -/
def CYC_ID : Nat := 0x40300000
def CYC_ID_PART : Fld := ⟨CYC_ID, 16, 16⟩
def CYC_ID_ISSUE : Fld := ⟨CYC_ID, 8, 8⟩
def CYC_ID_STEP : Fld := ⟨CYC_ID, 0, 8⟩
/-- 05 R202 -/
def CYC_STAT : Nat := 0x40300004
def CYC_STAT_RUN : Fld := ⟨CYC_STAT, 0, 1⟩
def CYC_STAT_WARM : Fld := ⟨CYC_STAT, 1, 1⟩
def CYC_STAT_RESPEND : Fld := ⟨CYC_STAT, 2, 1⟩
def CYC_STAT_NFORCE : Fld := ⟨CYC_STAT, 8, 9⟩
/-- 05 R202 -/
def CYC_CFG : Nat := 0x40300008
def CYC_CFG_SFRUN : Fld := ⟨CYC_CFG, 0, 1⟩
/-- 05 R202 -/
def CYC_DISP : Nat := 0x4030000C
def CYC_DISP_MASK : Fld := ⟨CYC_DISP, 0, 16⟩
/-- 05 R202 -/
def CYC_OVR : Nat := 0x40300010
def CYC_OVR_TASK : Fld := ⟨CYC_OVR, 0, 16⟩
/-- 05 R202 -/
def CYC_BUDEXP : Nat := 0x40300014
def CYC_BUDEXP_TASK : Fld := ⟨CYC_BUDEXP, 0, 16⟩
/-- 05 R202 -/
def CYC_RUN : Nat := 0x40300018
def CYC_RUN_TASK : Fld := ⟨CYC_RUN, 0, 4⟩
def CYC_RUN_VALID : Fld := ⟨CYC_RUN, 31, 1⟩
/-- 05 R202 -/
def CYC_CMD : Nat := 0x40300020
def CYC_CMD_CMD : Fld := ⟨CYC_CMD, 0, 2⟩
def CYC_CMD_CSEQ : Fld := ⟨CYC_CMD, 16, 16⟩
/-- 05 R202 -/
def CYC_CMDSEQ : Nat := 0x40300024
def CYC_CMDSEQ_LASTCMD : Fld := ⟨CYC_CMDSEQ, 0, 16⟩
def CYC_CMDSEQ_LASTEVT : Fld := ⟨CYC_CMDSEQ, 16, 16⟩
/-- 05 R202 -/
def CYC_CMDRES : Nat := 0x40300028
def CYC_CMDRES_RESULT : Fld := ⟨CYC_CMDRES, 0, 4⟩
/-- 05 R202 -/
def CYC_IMSEL : Nat := 0x40300030
def CYC_IMSEL_INDEX : Fld := ⟨CYC_IMSEL, 0, 10⟩
/-- 05 R202 -/
def CYC_IMD0 : Nat := 0x40300034
def CYC_IMD0_KIND : Fld := ⟨CYC_IMD0, 0, 4⟩
def CYC_IMD0_STATION : Fld := ⟨CYC_IMD0, 4, 12⟩
def CYC_IMD0_TASK : Fld := ⟨CYC_IMD0, 16, 4⟩
def CYC_IMD0_DIR : Fld := ⟨CYC_IMD0, 20, 1⟩
def CYC_IMD0_QW : Fld := ⟨CYC_IMD0, 21, 1⟩
def CYC_IMD0_SUBZ : Fld := ⟨CYC_IMD0, 22, 1⟩
def CYC_IMD0_EN : Fld := ⟨CYC_IMD0, 31, 1⟩
/-- 05 R202 -/
def CYC_IMD1 : Nat := 0x40300038
def CYC_IMD1_SRCOFF : Fld := ⟨CYC_IMD1, 0, 16⟩
def CYC_IMD1_LEN : Fld := ⟨CYC_IMD1, 16, 11⟩
/-- 05 R202 -/
def CYC_IMD2 : Nat := 0x4030003C
def CYC_IMD2_DST : Fld := ⟨CYC_IMD2, 2, 30⟩
/-- 05 R202 -/
def CYC_STSEL : Nat := 0x40300040
def CYC_STSEL_KIND : Fld := ⟨CYC_STSEL, 0, 4⟩
def CYC_STSEL_STATION : Fld := ⟨CYC_STSEL, 4, 12⟩
/-- 05 R202 -/
def CYC_STINFO : Nat := 0x40300044
def CYC_STINFO_LOST : Fld := ⟨CYC_STINFO, 0, 1⟩
def CYC_STINFO_RESPEND : Fld := ⟨CYC_STINFO, 1, 1⟩
def CYC_STINFO_NEVER : Fld := ⟨CYC_STINFO, 2, 1⟩
def CYC_STINFO_AGE : Fld := ⟨CYC_STINFO, 16, 16⟩
/-- 05 R202 -/
def CYC_EDGEEN : Nat := 0x40300050
def CYC_EDGEEN_INPUT : Fld := ⟨CYC_EDGEEN, 0, 24⟩
/-- 05 R202 -/
def CYC_EDGE_LO : Nat := 0x40300054
def CYC_EDGE_LO_MONO : Fld := ⟨CYC_EDGE_LO, 0, 32⟩
/-- 05 R202 -/
def CYC_EDGE_HI : Nat := 0x40300058
def CYC_EDGE_HI_MONO : Fld := ⟨CYC_EDGE_HI, 0, 32⟩
/-- 05 R202 -/
def CYC_EDGEINF : Nat := 0x4030005C
def CYC_EDGEINF_INPUT : Fld := ⟨CYC_EDGEINF, 0, 5⟩
def CYC_EDGEINF_RISE : Fld := ⟨CYC_EDGEINF, 8, 1⟩
def CYC_EDGEINF_VALID : Fld := ⟨CYC_EDGEINF, 31, 1⟩
/-- 05 R202 -/
def CYC_EDGESTAT : Nat := 0x40300060
def CYC_EDGESTAT_DEPTH : Fld := ⟨CYC_EDGESTAT, 0, 9⟩
def CYC_EDGESTAT_LOSTCNT : Fld := ⟨CYC_EDGESTAT, 16, 16⟩
/-- 05 R202 -/
def CYC_FVID : Nat := 0x40300080
def CYC_FVID_VALUE : Fld := ⟨CYC_FVID, 0, 32⟩
/-- 05 R202 -/
def CYC_FVAL_LO : Nat := 0x40300084
def CYC_FVAL_LO_VALUE : Fld := ⟨CYC_FVAL_LO, 0, 32⟩
/-- 05 R202 -/
def CYC_FVAL_HI : Nat := 0x40300088
def CYC_FVAL_HI_VALUE : Fld := ⟨CYC_FVAL_HI, 0, 32⟩
/-- 05 R202 -/
def CYC_FCMD : Nat := 0x4030008C
def CYC_FCMD_CMD : Fld := ⟨CYC_FCMD, 0, 3⟩
def CYC_FCMD_TYPE : Fld := ⟨CYC_FCMD, 4, 3⟩
def CYC_FCMD_CSEQ : Fld := ⟨CYC_FCMD, 16, 16⟩
/-- 05 R202 -/
def CYC_FSEQ : Nat := 0x40300090
def CYC_FSEQ_LASTCMD : Fld := ⟨CYC_FSEQ, 0, 16⟩
def CYC_FSEQ_LASTEVT : Fld := ⟨CYC_FSEQ, 16, 16⟩
/-- 05 R202 -/
def CYC_FRES : Nat := 0x40300094
def CYC_FRES_RESULT : Fld := ⟨CYC_FRES, 0, 4⟩
def CYC_FRES_TYPE : Fld := ⟨CYC_FRES, 8, 3⟩
/-- 05 R202 -/
def CYC_OCPKG : Nat := 0x403000A0
def CYC_OCPKG_ADDR : Fld := ⟨CYC_OCPKG, 2, 30⟩
/-- 05 R202 -/
def CYC_OCEDGE : Nat := 0x403000A4
def CYC_OCEDGE_TICK : Fld := ⟨CYC_OCEDGE, 0, 32⟩
/-- 05 R202 -/
def CYC_OCCMD : Nat := 0x403000A8
def CYC_OCCMD_CMD : Fld := ⟨CYC_OCCMD, 0, 3⟩
def CYC_OCCMD_CSEQ : Fld := ⟨CYC_OCCMD, 16, 16⟩
/-- 05 R202 -/
def CYC_OCSEQ : Nat := 0x403000AC
def CYC_OCSEQ_LASTCMD : Fld := ⟨CYC_OCSEQ, 0, 16⟩
def CYC_OCSEQ_LASTEVT : Fld := ⟨CYC_OCSEQ, 16, 16⟩
/-- 05 R202 -/
def CYC_OCSTAT : Nat := 0x403000B0
def CYC_OCSTAT_STATE : Fld := ⟨CYC_OCSTAT, 0, 3⟩
def CYC_OCSTAT_RESULT : Fld := ⟨CYC_OCSTAT, 4, 4⟩
def CYC_OCSTAT_HOLDS : Fld := ⟨CYC_OCSTAT, 8, 4⟩
def CYC_OCSTAT_PARTS : Fld := ⟨CYC_OCSTAT, 16, 16⟩
/-- 05 R202 -/
def CYC_OCTIME : Nat := 0x403000B4
def CYC_OCTIME_NS : Fld := ⟨CYC_OCTIME, 0, 18⟩
/-- 05 R202 -/
def CYC_OCPARTS : Nat := 0x403000B8
def CYC_OCPARTS_PARTS : Fld := ⟨CYC_OCPARTS, 0, 32⟩
/-- 05 R202 -/
def CYC_TnPER (n : Nat) : Nat := 0x40300100 + 0x20 * n
def CYC_TnPER_PER (n : Nat) : Fld := ⟨CYC_TnPER n, 0, 14⟩
def CYC_TnPER_OFFS (n : Nat) : Fld := ⟨CYC_TnPER n, 16, 14⟩
/-- 05 R202 -/
def CYC_TnREL (n : Nat) : Nat := 0x40300104 + 0x20 * n
def CYC_TnREL_REL (n : Nat) : Fld := ⟨CYC_TnREL n, 0, 14⟩
def CYC_TnREL_PART (n : Nat) : Fld := ⟨CYC_TnREL n, 16, 5⟩
def CYC_TnREL_SAFETY (n : Nat) : Fld := ⟨CYC_TnREL n, 24, 1⟩
def CYC_TnREL_EN (n : Nat) : Fld := ⟨CYC_TnREL n, 31, 1⟩
/-- 05 R202 -/
def CYC_TnBUD (n : Nat) : Nat := 0x40300108 + 0x20 * n
def CYC_TnBUD_BUD (n : Nat) : Fld := ⟨CYC_TnBUD n, 0, 24⟩
/-- 05 R202 -/
def CYC_TnWV (n : Nat) : Nat := 0x4030010C + 0x20 * n
def CYC_TnWV_STARTS (n : Nat) : Fld := ⟨CYC_TnWV n, 0, 16⟩
def CYC_TnWV_OVR (n : Nat) : Fld := ⟨CYC_TnWV n, 31, 1⟩
/-- 05 R202 -/
def CYC_TnCNT (n : Nat) : Nat := 0x40300110 + 0x20 * n
def CYC_TnCNT_COUNT (n : Nat) : Fld := ⟨CYC_TnCNT n, 0, 32⟩
/-- 05 R202 -/
def CYC_TnSTAT (n : Nat) : Nat := 0x40300114 + 0x20 * n
def CYC_TnSTAT_WAIT (n : Nat) : Fld := ⟨CYC_TnSTAT n, 0, 1⟩
def CYC_TnSTAT_COMMIT (n : Nat) : Fld := ⟨CYC_TnSTAT n, 1, 1⟩
def CYC_TnSTAT_NEW (n : Nat) : Fld := ⟨CYC_TnSTAT n, 2, 1⟩
def CYC_TnSTAT_HELD (n : Nat) : Fld := ⟨CYC_TnSTAT n, 3, 1⟩
def CYC_TnSTAT_DLY (n : Nat) : Fld := ⟨CYC_TnSTAT n, 8, 8⟩
/-- 05 R202 -/
def CYC_TnENTRY (n : Nat) : Nat := 0x40300118 + 0x20 * n
def CYC_TnENTRY_ADDR (n : Nat) : Fld := ⟨CYC_TnENTRY n, 2, 30⟩
/-- 05 R202 -/
def CYC_TnUSED (n : Nat) : Nat := 0x4030011C + 0x20 * n
def CYC_TnUSED_USED (n : Nat) : Fld := ⟨CYC_TnUSED n, 0, 24⟩
/-- 05 R202 -/
def CYC_TMnCTL (n : Nat) : Nat := 0x40300300 + 0x8 * n
def CYC_TMnCTL_MODE (n : Nat) : Fld := ⟨CYC_TMnCTL n, 0, 2⟩
def CYC_TMnCTL_START (n : Nat) : Fld := ⟨CYC_TMnCTL n, 4, 1⟩
def CYC_TMnCTL_STOP (n : Nat) : Fld := ⟨CYC_TMnCTL n, 5, 1⟩
def CYC_TMnCTL_RUNNING (n : Nat) : Fld := ⟨CYC_TMnCTL n, 8, 1⟩
def CYC_TMnCTL_EXP (n : Nat) : Fld := ⟨CYC_TMnCTL n, 9, 1⟩
def CYC_TMnCTL_EXPCNT (n : Nat) : Fld := ⟨CYC_TMnCTL n, 16, 16⟩
/-- 05 R202 -/
def CYC_TMnDUR (n : Nat) : Nat := 0x40300304 + 0x8 * n
def CYC_TMnDUR_DUR (n : Nat) : Fld := ⟨CYC_TMnDUR n, 0, 32⟩
/-! Block AFE, 06_sampling_and_protection_engine.md -/

/-- 06 R240 -/
def AFE_ID : Nat := 0x40500000
def AFE_ID_PART : Fld := ⟨AFE_ID, 16, 16⟩
def AFE_ID_ISSUE : Fld := ⟨AFE_ID, 8, 8⟩
def AFE_ID_STEP : Fld := ⟨AFE_ID, 0, 8⟩
/-- 06 R240 -/
def AFE_STAT : Nat := 0x40500004
def AFE_STAT_GOK : Fld := ⟨AFE_STAT, 0, 4⟩
def AFE_STAT_REFBAD : Fld := ⟨AFE_STAT, 8, 4⟩
def AFE_STAT_CALRUN : Fld := ⟨AFE_STAT, 16, 4⟩
def AFE_STAT_LOCK : Fld := ⟨AFE_STAT, 24, 1⟩
/-- 06 R240 -/
def AFE_CALCFG : Nat := 0x40500008
def AFE_CALCFG_EN : Fld := ⟨AFE_CALCFG, 0, 1⟩
def AFE_CALCFG_INT : Fld := ⟨AFE_CALCFG, 8, 12⟩
/-- 06 R240 -/
def AFE_GgSTAT (n : Nat) : Nat := 0x40500010 + 0x4 * n
def AFE_GgSTAT_MISS (n : Nat) : Fld := ⟨AFE_GgSTAT n, 0, 16⟩
def AFE_GgSTAT_RUN (n : Nat) : Fld := ⟨AFE_GgSTAT n, 16, 8⟩
def AFE_GgSTAT_LOSSES (n : Nat) : Fld := ⟨AFE_GgSTAT n, 24, 8⟩
/-- 06 R240 -/
def AFE_CHnCFG (n : Nat) : Nat := 0x40500100 + 0x20 * n
def AFE_CHnCFG_RANGE (n : Nat) : Fld := ⟨AFE_CHnCFG n, 0, 2⟩
/-- 06 R240 -/
def AFE_CHnCAL (n : Nat) : Nat := 0x40500104 + 0x20 * n
def AFE_CHnCAL_AGE (n : Nat) : Fld := ⟨AFE_CHnCAL n, 0, 16⟩
def AFE_CHnCAL_FAILS (n : Nat) : Fld := ⟨AFE_CHnCAL n, 16, 4⟩
def AFE_CHnCAL_DEG (n : Nat) : Fld := ⟨AFE_CHnCAL n, 20, 1⟩
def AFE_CHnCAL_SUBST (n : Nat) : Fld := ⟨AFE_CHnCAL n, 21, 1⟩
/-- 06 R240 -/
def AFE_CHnTRIM (n : Nat) : Nat := 0x40500108 + 0x20 * n
def AFE_CHnTRIM_GAIN (n : Nat) : Fld := ⟨AFE_CHnTRIM n, 0, 16⟩
def AFE_CHnTRIM_OFF (n : Nat) : Fld := ⟨AFE_CHnTRIM n, 16, 16⟩
/-- 06 R240 -/
def AFE_CHnRAWG (n : Nat) : Nat := 0x4050010C + 0x20 * n
def AFE_CHnRAWG_GAIN (n : Nat) : Fld := ⟨AFE_CHnRAWG n, 0, 16⟩
/-- 06 R240 -/
def AFE_CHnOVR (n : Nat) : Nat := 0x40500110 + 0x20 * n
def AFE_CHnOVR_COUNT (n : Nat) : Fld := ⟨AFE_CHnOVR n, 0, 16⟩
def AFE_CHnOVR_NOW (n : Nat) : Fld := ⟨AFE_CHnOVR n, 16, 1⟩
/-- 06 R240 -/
def AFE_CHnLAST (n : Nat) : Nat := 0x40500114 + 0x20 * n
def AFE_CHnLAST_WORD (n : Nat) : Fld := ⟨AFE_CHnLAST n, 0, 32⟩
/-! Block PE, 06_sampling_and_protection_engine.md -/

/-- 06 R241 -/
def PE_ID : Nat := 0x40600000
def PE_ID_PART : Fld := ⟨PE_ID, 16, 16⟩
def PE_ID_ISSUE : Fld := ⟨PE_ID, 8, 8⟩
def PE_ID_STEP : Fld := ⟨PE_ID, 0, 8⟩
/-- 06 R241 -/
def PE_STAT : Nat := 0x40600004
def PE_STAT_RUN : Fld := ⟨PE_STAT, 0, 1⟩
def PE_STAT_MISS : Fld := ⟨PE_STAT, 1, 1⟩
def PE_STAT_SKIP : Fld := ⟨PE_STAT, 2, 1⟩
def PE_STAT_UE : Fld := ⟨PE_STAT, 3, 1⟩
/-- 06 R241 -/
def PE_FRAME : Nat := 0x40600008
def PE_FRAME_N : Fld := ⟨PE_FRAME, 0, 32⟩
/-- 06 R241 -/
def PE_SUM : Nat := 0x4060000C
def PE_SUM_SUM : Fld := ⟨PE_SUM, 0, 14⟩
/-- 06 R241 -/
def PE_SLOT : Nat := 0x40600010
def PE_SLOT_LAST : Fld := ⟨PE_SLOT, 0, 14⟩
def PE_SLOT_MAX : Fld := ⟨PE_SLOT, 16, 14⟩
/-- 06 R241 -/
def PE_SKIPCNT : Nat := 0x40600014
def PE_SKIPCNT_COUNT : Fld := ⟨PE_SKIPCNT, 0, 32⟩
/-- 06 R241 -/
def PE_CECNT : Nat := 0x40600018
def PE_CECNT_COUNT : Fld := ⟨PE_CECNT, 0, 32⟩
/-- 06 R241 -/
def PE_UECNT : Nat := 0x4060001C
def PE_UECNT_COUNT : Fld := ⟨PE_UECNT, 0, 32⟩
/-- 06 R241 -/
def PE_FLAGS : Nat := 0x40600020
def PE_FLAGS_FLAG : Fld := ⟨PE_FLAGS, 0, 32⟩
/-- 06 R241 -/
def PE_LCMD : Nat := 0x40600030
def PE_LCMD_CMD : Fld := ⟨PE_LCMD, 0, 2⟩
def PE_LCMD_CX : Fld := ⟨PE_LCMD, 8, 6⟩
def PE_LCMD_CSEQ : Fld := ⟨PE_LCMD, 16, 16⟩
/-- 06 R241 -/
def PE_LSEQ : Nat := 0x40600034
def PE_LSEQ_LASTCMD : Fld := ⟨PE_LSEQ, 0, 16⟩
def PE_LSEQ_LASTEVT : Fld := ⟨PE_LSEQ, 16, 16⟩
/-- 06 R241 -/
def PE_LRES : Nat := 0x40600038
def PE_LRES_RESULT : Fld := ⟨PE_LRES, 0, 4⟩
def PE_LRES_RULE : Fld := ⟨PE_LRES, 4, 3⟩
def PE_LRES_BUNDLE : Fld := ⟨PE_LRES, 16, 15⟩
/-- 06 R241 -/
def PE_PCMD : Nat := 0x40600040
def PE_PCMD_GO : Fld := ⟨PE_PCMD, 0, 1⟩
def PE_PCMD_CX : Fld := ⟨PE_PCMD, 8, 6⟩
def PE_PCMD_CSEQ : Fld := ⟨PE_PCMD, 16, 16⟩
/-- 06 R241 -/
def PE_PSEQ : Nat := 0x40600044
def PE_PSEQ_LASTCMD : Fld := ⟨PE_PSEQ, 0, 16⟩
def PE_PSEQ_LASTEVT : Fld := ⟨PE_PSEQ, 16, 16⟩
/-- 06 R241 -/
def PE_PRES : Nat := 0x40600048
def PE_PRES_RESULT : Fld := ⟨PE_PRES, 0, 4⟩
/-- 06 R241 -/
def PE_PADDR : Nat := 0x4060004C
def PE_PADDR_OFFS : Fld := ⟨PE_PADDR, 2, 16⟩
def PE_PADDR_COUNT : Fld := ⟨PE_PADDR, 20, 4⟩
/-- 06 R241 -/
def PE_PDATAi (n : Nat) : Nat := 0x40600080 + 0x4 * n
def PE_PDATAi_VALUE (n : Nat) : Fld := ⟨PE_PDATAi n, 0, 32⟩
/-- 06 R241 -/
def PE_CXnCTL (n : Nat) : Nat := 0x40600400 + 0x40 * n
def PE_CXnCTL_PART (n : Nat) : Fld := ⟨PE_CXnCTL n, 0, 5⟩
def PE_CXnCTL_FB (n : Nat) : Fld := ⟨PE_CXnCTL n, 5, 2⟩
def PE_CXnCTL_REFILL (n : Nat) : Fld := ⟨PE_CXnCTL n, 8, 12⟩
def PE_CXnCTL_EN (n : Nat) : Fld := ⟨PE_CXnCTL n, 31, 1⟩
/-- 06 R241 -/
def PE_CXnPROG (n : Nat) : Nat := 0x40600404 + 0x40 * n
def PE_CXnPROG_MEAS (n : Nat) : Fld := ⟨PE_CXnPROG n, 0, 15⟩
def PE_CXnPROG_LOGIC (n : Nat) : Fld := ⟨PE_CXnPROG n, 16, 15⟩
/-- 06 R241 -/
def PE_CXnRANGE (n : Nat) : Nat := 0x40600408 + 0x40 * n
def PE_CXnRANGE_FIRST (n : Nat) : Fld := ⟨PE_CXnRANGE n, 0, 15⟩
def PE_CXnRANGE_LAST (n : Nat) : Fld := ⟨PE_CXnRANGE n, 16, 15⟩
/-- 06 R241 -/
def PE_CXnDATA (n : Nat) : Nat := 0x4060040C + 0x40 * n
def PE_CXnDATA_BASE (n : Nat) : Fld := ⟨PE_CXnDATA n, 0, 10⟩
def PE_CXnDATA_LIMIT (n : Nat) : Fld := ⟨PE_CXnDATA n, 16, 10⟩
def PE_CXnDATA_RLEN (n : Nat) : Fld := ⟨PE_CXnDATA n, 26, 6⟩
/-- 06 R241 -/
def PE_CXnCHM (n : Nat) : Nat := 0x40600410 + 0x40 * n
def PE_CXnCHM_CHMASK (n : Nat) : Fld := ⟨PE_CXnCHM n, 0, 24⟩
def PE_CXnCHM_TRIG (n : Nat) : Fld := ⟨PE_CXnCHM n, 24, 8⟩
/-- 06 R241 -/
def PE_CXnFLM (n : Nat) : Nat := 0x40600414 + 0x40 * n
def PE_CXnFLM_FLAGS (n : Nat) : Fld := ⟨PE_CXnFLM n, 0, 32⟩
/-- 06 R241 -/
def PE_CXnFBF (n : Nat) : Nat := 0x40600418 + 0x40 * n
def PE_CXnFBF_FLAGS (n : Nat) : Fld := ⟨PE_CXnFBF n, 0, 32⟩
/-- 06 R241 -/
def PE_CXnBUD (n : Nat) : Nat := 0x4060041C + 0x40 * n
def PE_CXnBUD_BUD (n : Nat) : Fld := ⟨PE_CXnBUD n, 0, 14⟩
/-- 06 R241 -/
def PE_CXnPCRC (n : Nat) : Nat := 0x40600420 + 0x40 * n
def PE_CXnPCRC_CRC (n : Nat) : Fld := ⟨PE_CXnPCRC n, 0, 32⟩
/-- 06 R241 -/
def PE_CXnSTAT (n : Nat) : Nat := 0x40600424 + 0x40 * n
def PE_CXnSTAT_STATE (n : Nat) : Fld := ⟨PE_CXnSTAT n, 0, 3⟩
def PE_CXnSTAT_VOK (n : Nat) : Fld := ⟨PE_CXnSTAT n, 3, 1⟩
def PE_CXnSTAT_RUN (n : Nat) : Fld := ⟨PE_CXnSTAT n, 4, 8⟩
def PE_CXnSTAT_VWCET (n : Nat) : Fld := ⟨PE_CXnSTAT n, 16, 14⟩
/-- 06 R241 -/
def PE_CXnCNT (n : Nat) : Nat := 0x40600428 + 0x40 * n
def PE_CXnCNT_HOLDS (n : Nat) : Fld := ⟨PE_CXnCNT n, 0, 16⟩
def PE_CXnCNT_FBS (n : Nat) : Fld := ⟨PE_CXnCNT n, 16, 16⟩
/-- 06 R241 -/
def PE_CXnCUT (n : Nat) : Nat := 0x4060042C + 0x40 * n
def PE_CXnCUT_CUTS (n : Nat) : Fld := ⟨PE_CXnCUT n, 0, 16⟩
def PE_CXnCUT_SKIPS (n : Nat) : Fld := ⟨PE_CXnCUT n, 16, 16⟩
/-! Block GIRTH, 08_girth_safety_logic_and_trip_path.md -/

/-- 08 R317 -/
def GIRTH_ID : Nat := 0x40700000
def GIRTH_ID_PART : Fld := ⟨GIRTH_ID, 16, 16⟩
def GIRTH_ID_ISSUE : Fld := ⟨GIRTH_ID, 8, 8⟩
def GIRTH_ID_STEP : Fld := ⟨GIRTH_ID, 0, 8⟩
/-- 08 R317 -/
def GIRTH_STAT : Nat := 0x40700004
def GIRTH_STAT_STATE : Fld := ⟨GIRTH_STAT, 0, 2⟩
def GIRTH_STAT_WDRUN : Fld := ⟨GIRTH_STAT, 2, 1⟩
def GIRTH_STAT_HALT : Fld := ⟨GIRTH_STAT, 3, 1⟩
def GIRTH_STAT_PESIL : Fld := ⟨GIRTH_STAT, 4, 1⟩
def GIRTH_STAT_FUSED : Fld := ⟨GIRTH_STAT, 5, 1⟩
def GIRTH_STAT_SOUTON : Fld := ⟨GIRTH_STAT, 8, 4⟩
def GIRTH_STAT_TOUTON : Fld := ⟨GIRTH_STAT, 12, 4⟩
def GIRTH_STAT_INSTOP : Fld := ⟨GIRTH_STAT, 16, 8⟩
/-- 08 R317 -/
def GIRTH_SAFEC : Nat := 0x40700008
def GIRTH_SAFEC_CAUSE : Fld := ⟨GIRTH_SAFEC, 0, 4⟩
def GIRTH_SAFEC_DETAIL : Fld := ⟨GIRTH_SAFEC, 8, 8⟩
/-- 08 R317 -/
def GIRTH_FAULT : Nat := 0x4070000C
def GIRTH_FAULT_DISC : Fld := ⟨GIRTH_FAULT, 0, 4⟩
def GIRTH_FAULT_EXTD : Fld := ⟨GIRTH_FAULT, 4, 4⟩
def GIRTH_FAULT_SWT : Fld := ⟨GIRTH_FAULT, 8, 4⟩
def GIRTH_FAULT_REFR : Fld := ⟨GIRTH_FAULT, 12, 4⟩
def GIRTH_FAULT_TFAIL : Fld := ⟨GIRTH_FAULT, 16, 4⟩
def GIRTH_FAULT_TOVL : Fld := ⟨GIRTH_FAULT, 20, 4⟩
def GIRTH_FAULT_RAWERR : Fld := ⟨GIRTH_FAULT, 24, 1⟩
def GIRTH_FAULT_RAWLOST : Fld := ⟨GIRTH_FAULT, 25, 1⟩
def GIRTH_FAULT_PESIL : Fld := ⟨GIRTH_FAULT, 26, 1⟩
/-- 08 R317 -/
def GIRTH_CMD : Nat := 0x40700010
def GIRTH_CMD_CMD : Fld := ⟨GIRTH_CMD, 0, 3⟩
def GIRTH_CMD_INDEX : Fld := ⟨GIRTH_CMD, 4, 4⟩
def GIRTH_CMD_CSEQ : Fld := ⟨GIRTH_CMD, 16, 16⟩
/-- 08 R317 -/
def GIRTH_SEQ : Nat := 0x40700014
def GIRTH_SEQ_LASTCMD : Fld := ⟨GIRTH_SEQ, 0, 16⟩
def GIRTH_SEQ_LASTEVT : Fld := ⟨GIRTH_SEQ, 16, 16⟩
/-- 08 R317 -/
def GIRTH_RES : Nat := 0x40700018
def GIRTH_RES_RESULT : Fld := ⟨GIRTH_RES, 0, 4⟩
def GIRTH_RES_INDEX : Fld := ⟨GIRTH_RES, 16, 6⟩
/-- 08 R317 -/
def GIRTH_PIDX : Nat := 0x40700020
def GIRTH_PIDX_IDX : Fld := ⟨GIRTH_PIDX, 0, 6⟩
/-- 08 R317 -/
def GIRTH_PDATA : Nat := 0x40700024
def GIRTH_PDATA_VALUE : Fld := ⟨GIRTH_PDATA, 0, 32⟩
/-- 08 R317 -/
def GIRTH_PCRC : Nat := 0x40700028
def GIRTH_PCRC_CRC : Fld := ⟨GIRTH_PCRC, 0, 32⟩
/-- 08 R317 -/
def GIRTH_FCRC : Nat := 0x4070002C
def GIRTH_FCRC_CRC : Fld := ⟨GIRTH_FCRC, 0, 32⟩
/-- 08 R317 -/
def GIRTH_WDCHAL : Nat := 0x40700030
def GIRTH_WDCHAL_CHAL : Fld := ⟨GIRTH_WDCHAL, 0, 32⟩
/-- 08 R317 -/
def GIRTH_WDRESP : Nat := 0x40700034
def GIRTH_WDRESP_RESP : Fld := ⟨GIRTH_WDRESP, 0, 32⟩
/-- 08 R317 -/
def GIRTH_WDLAST : Nat := 0x40700038
def GIRTH_WDLAST_INT : Fld := ⟨GIRTH_WDLAST, 0, 14⟩
/-- 08 R317 -/
def GIRTH_SIN : Nat := 0x40700040
def GIRTH_SIN_PV (j : Nat) : Fld := ⟨GIRTH_SIN, 0 + 8 * j, 1⟩
def GIRTH_SIN_DISC (j : Nat) : Fld := ⟨GIRTH_SIN, 1 + 8 * j, 1⟩
def GIRTH_SIN_FAULT (j : Nat) : Fld := ⟨GIRTH_SIN, 2 + 8 * j, 1⟩
def GIRTH_SIN_STD (j : Nat) : Fld := ⟨GIRTH_SIN, 3 + 8 * j, 1⟩
def GIRTH_SIN_A (j : Nat) : Fld := ⟨GIRTH_SIN, 4 + 8 * j, 1⟩
def GIRTH_SIN_B (j : Nat) : Fld := ⟨GIRTH_SIN, 5 + 8 * j, 1⟩
/-- 08 R317 -/
def GIRTH_SOUT : Nat := 0x40700044
def GIRTH_SOUT_REQ (j : Nat) : Fld := ⟨GIRTH_SOUT, 0 + 8 * j, 1⟩
def GIRTH_SOUT_PERMIT (j : Nat) : Fld := ⟨GIRTH_SOUT, 1 + 8 * j, 1⟩
def GIRTH_SOUT_RB (j : Nat) : Fld := ⟨GIRTH_SOUT, 2 + 8 * j, 1⟩
def GIRTH_SOUT_FAULT (j : Nat) : Fld := ⟨GIRTH_SOUT, 3 + 8 * j, 1⟩
def GIRTH_SOUT_REFTO (j : Nat) : Fld := ⟨GIRTH_SOUT, 4 + 8 * j, 1⟩
/-- 08 R317 -/
def GIRTH_TOUT : Nat := 0x40700048
def GIRTH_TOUT_ON (j : Nat) : Fld := ⟨GIRTH_TOUT, 0 + 8 * j, 1⟩
def GIRTH_TOUT_CORE (j : Nat) : Fld := ⟨GIRTH_TOUT, 1 + 8 * j, 1⟩
def GIRTH_TOUT_PE (j : Nat) : Fld := ⟨GIRTH_TOUT, 2 + 8 * j, 1⟩
def GIRTH_TOUT_INST (j : Nat) : Fld := ⟨GIRTH_TOUT, 3 + 8 * j, 1⟩
def GIRTH_TOUT_SAFE (j : Nat) : Fld := ⟨GIRTH_TOUT, 4 + 8 * j, 1⟩
def GIRTH_TOUT_CONF (j : Nat) : Fld := ⟨GIRTH_TOUT, 5 + 8 * j, 1⟩
def GIRTH_TOUT_OVL (j : Nat) : Fld := ⟨GIRTH_TOUT, 6 + 8 * j, 1⟩
/-- 08 R317 -/
def GIRTH_TCS : Nat := 0x4070004C
def GIRTH_TCS_STATE (j : Nat) : Fld := ⟨GIRTH_TCS, 0 + 8 * j, 3⟩
def GIRTH_TCS_SUSP (j : Nat) : Fld := ⟨GIRTH_TCS, 3 + 8 * j, 1⟩
/-- 08 R317 -/
def GIRTH_INST : Nat := 0x40700050
def GIRTH_INST_PICK : Fld := ⟨GIRTH_INST, 0, 8⟩
def GIRTH_INST_OP : Fld := ⟨GIRTH_INST, 8, 8⟩
def GIRTH_INST_LATCHED : Fld := ⟨GIRTH_INST, 16, 8⟩
def GIRTH_INST_LOST : Fld := ⟨GIRTH_INST, 24, 8⟩
/-- 08 R317 -/
def GIRTH_PEFLAGS : Nat := 0x40700054
def GIRTH_PEFLAGS_FLAG : Fld := ⟨GIRTH_PEFLAGS, 0, 32⟩
/-- 08 R317 -/
def GIRTH_RAWERR : Nat := 0x40700058
def GIRTH_RAWERR_COUNT : Fld := ⟨GIRTH_RAWERR, 0, 32⟩
/-! Block REC, 09_disturbance_and_event_records.md -/

/-- 09 R345 -/
def REC_ID : Nat := 0x40E00000
def REC_ID_PART : Fld := ⟨REC_ID, 16, 16⟩
def REC_ID_ISSUE : Fld := ⟨REC_ID, 8, 8⟩
def REC_ID_STEP : Fld := ⟨REC_ID, 0, 8⟩
/-- 09 R345 -/
def REC_STAT : Nat := 0x40E00004
def REC_STAT_FROZEN : Fld := ⟨REC_STAT, 0, 1⟩
def REC_STAT_FSRC : Fld := ⟨REC_STAT, 1, 3⟩
def REC_STAT_NEW : Fld := ⟨REC_STAT, 4, 1⟩
def REC_STAT_DONE : Fld := ⟨REC_STAT, 5, 1⟩
def REC_STAT_OPEN : Fld := ⟨REC_STAT, 6, 1⟩
def REC_STAT_CAPS : Fld := ⟨REC_STAT, 8, 3⟩
def REC_STAT_QDEPTH : Fld := ⟨REC_STAT, 16, 9⟩
/-- 09 R345 -/
def REC_CFG : Nat := 0x40E00008
def REC_CFG_FRSAFE : Fld := ⟨REC_CFG, 0, 1⟩
def REC_CFG_FRTRIP : Fld := ⟨REC_CFG, 1, 1⟩
def REC_CFG_TSYNC : Fld := ⟨REC_CFG, 2, 1⟩
/-- 09 R345 -/
def REC_CMD : Nat := 0x40E0000C
def REC_CMD_CMD : Fld := ⟨REC_CMD, 0, 3⟩
def REC_CMD_CSEQ : Fld := ⟨REC_CMD, 16, 16⟩
/-- 09 R345 -/
def REC_SEQ : Nat := 0x40E00010
def REC_SEQ_LASTCMD : Fld := ⟨REC_SEQ, 0, 16⟩
def REC_SEQ_LASTEVT : Fld := ⟨REC_SEQ, 16, 16⟩
/-- 09 R345 -/
def REC_RES : Nat := 0x40E00014
def REC_RES_RESULT : Fld := ⟨REC_RES, 0, 4⟩
/-- 09 R345 -/
def REC_ENUM : Nat := 0x40E00018
def REC_ENUM_NUM : Fld := ⟨REC_ENUM, 0, 32⟩
/-- 09 R345 -/
def REC_NUM : Nat := 0x40E0001C
def REC_NUM_NUM : Fld := ⟨REC_NUM, 0, 32⟩
/-- 09 R345 -/
def REC_ELOSS : Nat := 0x40E00020
def REC_ELOSS_QFULL : Fld := ⟨REC_ELOSS, 0, 16⟩
def REC_ELOSS_FROST : Fld := ⟨REC_ELOSS, 16, 16⟩
/-- 09 R345 -/
def REC_OPSEC : Nat := 0x40E00024
def REC_OPSEC_COUNT : Fld := ⟨REC_OPSEC, 0, 32⟩
/-- 09 R345 -/
def REC_PWRCYC : Nat := 0x40E00028
def REC_PWRCYC_COUNT : Fld := ⟨REC_PWRCYC, 0, 32⟩
/-- 09 R345 -/
def REC_DCFG : Nat := 0x40E00030
def REC_DCFG_PRE : Fld := ⟨REC_DCFG, 0, 5⟩
def REC_DCFG_POST : Fld := ⟨REC_DCFG, 8, 7⟩
def REC_DCFG_EXTEND : Fld := ⟨REC_DCFG, 16, 1⟩
/-- 09 R345 -/
def REC_TRIGEN : Nat := 0x40E00034
def REC_TRIGEN_PE : Fld := ⟨REC_TRIGEN, 0, 8⟩
def REC_TRIGEN_CORE : Fld := ⟨REC_TRIGEN, 8, 1⟩
/-- 09 R345 -/
def REC_BTRIG0 : Nat := 0x40E00038
def REC_BTRIG0_EDGE : Fld := ⟨REC_BTRIG0, 0, 32⟩
/-- 09 R345 -/
def REC_BTRIG1 : Nat := 0x40E0003C
def REC_BTRIG1_EDGE : Fld := ⟨REC_BTRIG1, 0, 32⟩
/-- 09 R345 -/
def REC_DNUM : Nat := 0x40E00040
def REC_DNUM_NUM : Fld := ⟨REC_DNUM, 0, 32⟩
/-- 09 R345 -/
def REC_DLOSS : Nat := 0x40E00044
def REC_DLOSS_TRIG : Fld := ⟨REC_DLOSS, 0, 16⟩
def REC_DLOSS_PWR : Fld := ⟨REC_DLOSS, 16, 16⟩
/-- 09 R345 -/
def REC_WEAR : Nat := 0x40E00048
def REC_WEAR_MAXERASE : Fld := ⟨REC_WEAR, 0, 17⟩
def REC_WEAR_RETIRED : Fld := ⟨REC_WEAR, 24, 8⟩
/-- 09 R345 -/
def REC_XADDR : Nat := 0x40E00050
def REC_XADDR_VALUE : Fld := ⟨REC_XADDR, 0, 32⟩
/-- 09 R345 -/
def REC_XLEN : Nat := 0x40E00054
def REC_XLEN_VALUE : Fld := ⟨REC_XLEN, 0, 32⟩
/-- 09 R345 -/
def REC_RLSEL : Nat := 0x40E00060
def REC_RLSEL_ENTRY : Fld := ⟨REC_RLSEL, 0, 8⟩
/-- 09 R345 -/
def REC_RLDAT0 : Nat := 0x40E00064
def REC_RLDAT0_CODE : Fld := ⟨REC_RLDAT0, 0, 16⟩
def REC_RLDAT0_SET : Fld := ⟨REC_RLDAT0, 16, 5⟩
def REC_RLDAT0_EN : Fld := ⟨REC_RLDAT0, 31, 1⟩
/-- 09 R345 -/
def REC_RLDAT1 : Nat := 0x40E00068
def REC_RLDAT1_BURST : Fld := ⟨REC_RLDAT1, 0, 8⟩
def REC_RLDAT1_PERIOD : Fld := ⟨REC_RLDAT1, 16, 16⟩
/-- 09 R345 -/
def REC_SSSEL : Nat := 0x40E00070
def REC_SSSEL_SET : Fld := ⟨REC_SSSEL, 0, 5⟩
def REC_SSSEL_SLOT : Fld := ⟨REC_SSSEL, 8, 3⟩
/-- 09 R345 -/
def REC_SSADDR : Nat := 0x40E00074
def REC_SSADDR_ADDR : Fld := ⟨REC_SSADDR, 2, 30⟩
/-- 09 R345 -/
def REC_EDATAi (n : Nat) : Nat := 0x40E00080 + 0x4 * n
def REC_EDATAi_WORD (n : Nat) : Fld := ⟨REC_EDATAi n, 0, 32⟩
/-! Block FIO, 10_field_io.md -/

/-- 10 R377 -/
def FIO_ID : Nat := 0x40800000
def FIO_ID_PART : Fld := ⟨FIO_ID, 16, 16⟩
def FIO_ID_ISSUE : Fld := ⟨FIO_ID, 8, 8⟩
def FIO_ID_STEP : Fld := ⟨FIO_ID, 0, 8⟩
/-- 10 R377 -/
def FIO_STAT : Nat := 0x40800004
def FIO_STAT_FS1 : Fld := ⟨FIO_STAT, 0, 2⟩
def FIO_STAT_FS2 : Fld := ⟨FIO_STAT, 2, 2⟩
def FIO_STAT_TRQ : Fld := ⟨FIO_STAT, 8, 4⟩
/-- 10 R377 -/
def FIO_GCFG : Nat := 0x40800008
def FIO_GCFG_V1 : Fld := ⟨FIO_GCFG, 0, 2⟩
def FIO_GCFG_T1 : Fld := ⟨FIO_GCFG, 2, 1⟩
def FIO_GCFG_V2 : Fld := ⟨FIO_GCFG, 4, 2⟩
def FIO_GCFG_T2 : Fld := ⟨FIO_GCFG, 6, 1⟩
def FIO_GCFG_V3 : Fld := ⟨FIO_GCFG, 8, 2⟩
def FIO_GCFG_T3 : Fld := ⟨FIO_GCFG, 10, 1⟩
/-- 10 R377 -/
def FIO_IN : Nat := 0x40800010
def FIO_IN_INPUT : Fld := ⟨FIO_IN, 0, 24⟩
/-- 10 R377 -/
def FIO_WB : Nat := 0x40800014
def FIO_WB_INPUT : Fld := ⟨FIO_WB, 0, 24⟩
/-- 10 R377 -/
def FIO_INnCFG (n : Nat) : Nat := 0x40800020 + 0x4 * (n - 1)
def FIO_INnCFG_FILT (n : Nat) : Fld := ⟨FIO_INnCFG n, 0, 3⟩
def FIO_INnCFG_WBEN (n : Nat) : Fld := ⟨FIO_INnCFG n, 3, 1⟩
def FIO_INnCFG_CNT (n : Nat) : Fld := ⟨FIO_INnCFG n, 4, 2⟩
/-- 10 R377 -/
def FIO_OUT : Nat := 0x40800080
def FIO_OUT_REQ : Fld := ⟨FIO_OUT, 0, 16⟩
def FIO_OUT_RB : Fld := ⟨FIO_OUT, 16, 16⟩
/-- 10 R377 -/
def FIO_CMD : Nat := 0x408000C0
def FIO_CMD_CMD : Fld := ⟨FIO_CMD, 0, 2⟩
def FIO_CMD_INDEX : Fld := ⟨FIO_CMD, 4, 5⟩
def FIO_CMD_CSEQ : Fld := ⟨FIO_CMD, 16, 16⟩
/-- 10 R377 -/
def FIO_SEQ : Nat := 0x408000C4
def FIO_SEQ_LASTCMD : Fld := ⟨FIO_SEQ, 0, 16⟩
def FIO_SEQ_LASTEVT : Fld := ⟨FIO_SEQ, 16, 16⟩
/-- 10 R377 -/
def FIO_RES : Nat := 0x408000C8
def FIO_RES_RESULT : Fld := ⟨FIO_RES, 0, 4⟩
/-- 10 R377 -/
def FIO_FS1 : Nat := 0x408000D0
def FIO_FS1_MV : Fld := ⟨FIO_FS1, 0, 16⟩
def FIO_FS1_QUAL : Fld := ⟨FIO_FS1, 16, 1⟩
/-- 10 R377 -/
def FIO_FS2 : Nat := 0x408000D4
def FIO_FS2_MV : Fld := ⟨FIO_FS2, 0, 16⟩
def FIO_FS2_QUAL : Fld := ⟨FIO_FS2, 16, 1⟩
/-- 10 R377 -/
def FIO_CNTc (n : Nat) : Nat := 0x408000E0 + 0x4 * n
def FIO_CNTc_COUNT (n : Nat) : Fld := ⟨FIO_CNTc n, 0, 32⟩
/-- 10 R377 -/
def FIO_OnSTAT (n : Nat) : Nat := 0x40800100 + 0x4 * (n - 1)
def FIO_OnSTAT_REQ (n : Nat) : Fld := ⟨FIO_OnSTAT n, 0, 1⟩
def FIO_OnSTAT_RB (n : Nat) : Fld := ⟨FIO_OnSTAT n, 1, 1⟩
def FIO_OnSTAT_OVL (n : Nat) : Fld := ⟨FIO_OnSTAT n, 2, 1⟩
def FIO_OnSTAT_EXTD (n : Nat) : Fld := ⟨FIO_OnSTAT n, 3, 1⟩
def FIO_OnSTAT_TPF (n : Nat) : Fld := ⟨FIO_OnSTAT n, 4, 1⟩
def FIO_OnSTAT_WIRED (n : Nat) : Fld := ⟨FIO_OnSTAT n, 5, 1⟩
def FIO_OnSTAT_OPEN (n : Nat) : Fld := ⟨FIO_OnSTAT n, 6, 1⟩
def FIO_OnSTAT_PDRV (n : Nat) : Fld := ⟨FIO_OnSTAT n, 7, 1⟩
def FIO_OnSTAT_MA (n : Nat) : Fld := ⟨FIO_OnSTAT n, 16, 16⟩
/-- 10 R377 -/
def FIO_OnCFG (n : Nat) : Nat := 0x40800140 + 0x4 * (n - 1)
def FIO_OnCFG_TP (n : Nat) : Fld := ⟨FIO_OnCFG n, 0, 1⟩
def FIO_OnCFG_DIODEOR (n : Nat) : Fld := ⟨FIO_OnCFG n, 1, 1⟩
def FIO_OnCFG_OLEN (n : Nat) : Fld := ⟨FIO_OnCFG n, 2, 1⟩
def FIO_OnCFG_TPPER (n : Nat) : Fld := ⟨FIO_OnCFG n, 4, 12⟩
/-! Block ALP, 10_field_io.md -/

/-- 10 R378 -/
def ALP_ID : Nat := 0x40900000
def ALP_ID_PART : Fld := ⟨ALP_ID, 16, 16⟩
def ALP_ID_ISSUE : Fld := ⟨ALP_ID, 8, 8⟩
def ALP_ID_STEP : Fld := ⟨ALP_ID, 0, 8⟩
/-- 10 R378 -/
def ALP_STAT : Nat := 0x40900004
def ALP_STAT_FLT : Fld := ⟨ALP_STAT, 0, 8⟩
def ALP_STAT_JMPCHG : Fld := ⟨ALP_STAT, 8, 1⟩
def ALP_STAT_HBUSY : Fld := ⟨ALP_STAT, 12, 2⟩
/-- 10 R378 -/
def ALP_JMP : Nat := 0x40900008
def ALP_JMP_POS (j : Nat) : Fld := ⟨ALP_JMP, 0 + 2 * j, 2⟩
/-- 10 R378 -/
def ALP_KEYS : Nat := 0x4090000C
def ALP_KEYS_SEL : Fld := ⟨ALP_KEYS, 0, 1⟩
def ALP_KEYS_ZERO : Fld := ⟨ALP_KEYS, 1, 1⟩
def ALP_KEYS_SPAN : Fld := ⟨ALP_KEYS, 2, 1⟩
def ALP_KEYS_CALCH : Fld := ⟨ALP_KEYS, 4, 4⟩
/-- 10 R378 -/
def ALP_CMD : Nat := 0x40900010
def ALP_CMD_CMD : Fld := ⟨ALP_CMD, 0, 2⟩
def ALP_CMD_CH : Fld := ⟨ALP_CMD, 4, 3⟩
def ALP_CMD_CSEQ : Fld := ⟨ALP_CMD, 16, 16⟩
/-- 10 R378 -/
def ALP_SEQ : Nat := 0x40900014
def ALP_SEQ_LASTCMD : Fld := ⟨ALP_SEQ, 0, 16⟩
def ALP_SEQ_LASTEVT : Fld := ⟨ALP_SEQ, 16, 16⟩
/-- 10 R378 -/
def ALP_RES : Nat := 0x40900018
def ALP_RES_RESULT : Fld := ⟨ALP_RES, 0, 4⟩
/-- 10 R378 -/
def ALP_CHnCFG (n : Nat) : Nat := 0x40900100 + 0x20 * n
def ALP_CHnCFG_MODE (n : Nat) : Fld := ⟨ALP_CHnCFG n, 0, 2⟩
def ALP_CHnCFG_ACTIVE (n : Nat) : Fld := ⟨ALP_CHnCFG n, 2, 1⟩
def ALP_CHnCFG_HART (n : Nat) : Fld := ⟨ALP_CHnCFG n, 3, 1⟩
def ALP_CHnCFG_HEXCL (n : Nat) : Fld := ⟨ALP_CHnCFG n, 4, 1⟩
def ALP_CHnCFG_HMAST (n : Nat) : Fld := ⟨ALP_CHnCFG n, 5, 1⟩
def ALP_CHnCFG_HRETRY (n : Nat) : Fld := ⟨ALP_CHnCFG n, 6, 2⟩
def ALP_CHnCFG_ALM (n : Nat) : Fld := ⟨ALP_CHnCFG n, 8, 2⟩
def ALP_CHnCFG_KEYCAL (n : Nat) : Fld := ⟨ALP_CHnCFG n, 10, 1⟩
def ALP_CHnCFG_HPRE (n : Nat) : Fld := ⟨ALP_CHnCFG n, 11, 2⟩
def ALP_CHnCFG_TMO (n : Nat) : Fld := ⟨ALP_CHnCFG n, 16, 16⟩
/-- 10 R378 -/
def ALP_CHnVAL (n : Nat) : Nat := 0x40900104 + 0x20 * n
def ALP_CHnVAL_UA (n : Nat) : Fld := ⟨ALP_CHnVAL n, 0, 32⟩
/-- 10 R378 -/
def ALP_CHnHEAD (n : Nat) : Nat := 0x40900108 + 0x20 * n
def ALP_CHnHEAD_MV (n : Nat) : Fld := ⟨ALP_CHnHEAD n, 0, 16⟩
/-- 10 R378 -/
def ALP_CHnSTAT (n : Nat) : Nat := 0x4090010C + 0x20 * n
def ALP_CHnSTAT_BAND (n : Nat) : Fld := ⟨ALP_CHnSTAT n, 0, 3⟩
def ALP_CHnSTAT_OPEN (n : Nat) : Fld := ⟨ALP_CHnSTAT n, 3, 1⟩
def ALP_CHnSTAT_COMPL (n : Nat) : Fld := ⟨ALP_CHnSTAT n, 4, 1⟩
def ALP_CHnSTAT_OVLD (n : Nat) : Fld := ⟨ALP_CHnSTAT n, 5, 1⟩
def ALP_CHnSTAT_CLAMP (n : Nat) : Fld := ⟨ALP_CHnSTAT n, 6, 1⟩
def ALP_CHnSTAT_ALARM (n : Nat) : Fld := ⟨ALP_CHnSTAT n, 7, 1⟩
def ALP_CHnSTAT_TRIM (n : Nat) : Fld := ⟨ALP_CHnSTAT n, 8, 1⟩
/-- 10 R378 -/
def ALP_CHnTRIM (n : Nat) : Nat := 0x40900110 + 0x20 * n
def ALP_CHnTRIM_OFFS (n : Nat) : Fld := ⟨ALP_CHnTRIM n, 0, 16⟩
def ALP_CHnTRIM_GAIN (n : Nat) : Fld := ⟨ALP_CHnTRIM n, 16, 16⟩
/-- 10 R378 -/
def ALP_HnCTL (n : Nat) : Nat := 0x40900114 + 0x20 * n
def ALP_HnCTL_LEN (n : Nat) : Fld := ⟨ALP_HnCTL n, 0, 9⟩
def ALP_HnCTL_GO (n : Nat) : Fld := ⟨ALP_HnCTL n, 12, 1⟩
def ALP_HnCTL_CSEQ (n : Nat) : Fld := ⟨ALP_HnCTL n, 16, 16⟩
/-- 10 R378 -/
def ALP_HnSEQ (n : Nat) : Nat := 0x40900118 + 0x20 * n
def ALP_HnSEQ_LASTCMD (n : Nat) : Fld := ⟨ALP_HnSEQ n, 0, 16⟩
def ALP_HnSEQ_LASTEVT (n : Nat) : Fld := ⟨ALP_HnSEQ n, 16, 16⟩
/-- 10 R378 -/
def ALP_HnRES (n : Nat) : Nat := 0x4090011C + 0x20 * n
def ALP_HnRES_RESULT (n : Nat) : Fld := ⟨ALP_HnRES n, 0, 4⟩
def ALP_HnRES_BURSTS (n : Nat) : Fld := ⟨ALP_HnRES n, 8, 8⟩
def ALP_HnRES_RLEN (n : Nat) : Fld := ⟨ALP_HnRES n, 16, 9⟩
/-- 10 R378 -/
def ALP_HnBUFi (n i : Nat) : Nat := 0x40901000 + 0x200 * n + 0x4 * i
def ALP_HnBUFi_BYTES (n i : Nat) : Fld := ⟨ALP_HnBUFi n i, 0, 32⟩
/-! Block NET, 11_backbone_time_and_safe_telegrams.md -/

/-- 11 R409 -/
def NET_ID : Nat := 0x40A00000
def NET_ID_PART : Fld := ⟨NET_ID, 16, 16⟩
def NET_ID_ISSUE : Fld := ⟨NET_ID, 8, 8⟩
def NET_ID_STEP : Fld := ⟨NET_ID, 0, 8⟩
/-- 11 R409 -/
def NET_STAT : Nat := 0x40A00004
def NET_STAT_LINK : Fld := ⟨NET_STAT, 0, 3⟩
def NET_STAT_SPD : Fld := ⟨NET_STAT, 4, 6⟩
def NET_STAT_SESS : Fld := ⟨NET_STAT, 16, 1⟩
def NET_STAT_KEY : Fld := ⟨NET_STAT, 17, 2⟩
def NET_STAT_SENDOFF : Fld := ⟨NET_STAT, 24, 1⟩
/-- 11 R409 -/
def NET_ETBTOPO : Nat := 0x40A00008
def NET_ETBTOPO_COUNT : Fld := ⟨NET_ETBTOPO, 0, 32⟩
/-- 11 R409 -/
def NET_OPTOPO : Nat := 0x40A0000C
def NET_OPTOPO_COUNT : Fld := ⟨NET_OPTOPO, 0, 32⟩
/-- 11 R409 -/
def NET_PnCFG (n : Nat) : Nat := 0x40A00010 + 0x4 * n
def NET_PnCFG_SPEED (n : Nat) : Fld := ⟨NET_PnCFG n, 0, 2⟩
def NET_PnCFG_VID (n : Nat) : Fld := ⟨NET_PnCFG n, 4, 12⟩
def NET_PnCFG_PCP (n : Nat) : Fld := ⟨NET_PnCFG n, 16, 3⟩
def NET_PnCFG_PREFIX (n : Nat) : Fld := ⟨NET_PnCFG n, 24, 5⟩
/-- 11 R409 -/
def NET_PnSTAT (n : Nat) : Nat := 0x40A00020 + 0x4 * n
def NET_PnSTAT_DROP (n : Nat) : Fld := ⟨NET_PnSTAT n, 0, 16⟩
def NET_PnSTAT_BADHDR (n : Nat) : Fld := ⟨NET_PnSTAT n, 16, 16⟩
/-- 11 R409 -/
def NET_PnIP (n : Nat) : Nat := 0x40A00030 + 0x4 * n
def NET_PnIP_ADDR (n : Nat) : Fld := ⟨NET_PnIP n, 0, 32⟩
/-- 11 R409 -/
def NET_CMD : Nat := 0x40A00040
def NET_CMD_CMD : Fld := ⟨NET_CMD, 0, 2⟩
def NET_CMD_FLOW : Fld := ⟨NET_CMD, 8, 8⟩
def NET_CMD_CSEQ : Fld := ⟨NET_CMD, 16, 16⟩
/-- 11 R409 -/
def NET_SEQ : Nat := 0x40A00044
def NET_SEQ_LASTCMD : Fld := ⟨NET_SEQ, 0, 16⟩
def NET_SEQ_LASTEVT : Fld := ⟨NET_SEQ, 16, 16⟩
/-- 11 R409 -/
def NET_RES : Nat := 0x40A00048
def NET_RES_RESULT : Fld := ⟨NET_RES, 0, 4⟩
/-- 11 R409 -/
def NET_RXCFG : Nat := 0x40A00050
def NET_RXCFG_SLOTS : Fld := ⟨NET_RXCFG, 0, 10⟩
def NET_RXCFG_BASE : Fld := ⟨NET_RXCFG, 12, 10⟩
def NET_RXCFG_PART : Fld := ⟨NET_RXCFG, 24, 5⟩
def NET_RXCFG_EN : Fld := ⟨NET_RXCFG, 31, 1⟩
/-- 11 R409 -/
def NET_RXPTR : Nat := 0x40A00054
def NET_RXPTR_HEAD : Fld := ⟨NET_RXPTR, 0, 10⟩
def NET_RXPTR_TAIL : Fld := ⟨NET_RXPTR, 16, 10⟩
/-- 11 R409 -/
def NET_TXCFG : Nat := 0x40A00058
def NET_TXCFG_SLOTS : Fld := ⟨NET_TXCFG, 0, 10⟩
def NET_TXCFG_BASE : Fld := ⟨NET_TXCFG, 12, 10⟩
def NET_TXCFG_PART : Fld := ⟨NET_TXCFG, 24, 5⟩
def NET_TXCFG_EN : Fld := ⟨NET_TXCFG, 31, 1⟩
/-- 11 R409 -/
def NET_TXPTR : Nat := 0x40A0005C
def NET_TXPTR_HEAD : Fld := ⟨NET_TXPTR, 0, 10⟩
def NET_TXPTR_TAIL : Fld := ⟨NET_TXPTR, 16, 10⟩
/-- 11 R409 -/
def NET_FSEL : Nat := 0x40A00100
def NET_FSEL_FLOW : Fld := ⟨NET_FSEL, 0, 8⟩
/-- 11 R409 -/
def NET_FD0 : Nat := 0x40A00104
def NET_FD0_DIR : Fld := ⟨NET_FD0, 0, 1⟩
def NET_FD0_KIND : Fld := ⟨NET_FD0, 1, 2⟩
def NET_FD0_PORTS : Fld := ⟨NET_FD0, 4, 3⟩
def NET_FD0_PCP : Fld := ⟨NET_FD0, 8, 3⟩
def NET_FD0_PART : Fld := ⟨NET_FD0, 16, 5⟩
def NET_FD0_PAIRSEQ : Fld := ⟨NET_FD0, 24, 1⟩
def NET_FD0_DUAL : Fld := ⟨NET_FD0, 25, 1⟩
def NET_FD0_RESTART : Fld := ⟨NET_FD0, 26, 1⟩
def NET_FD0_EN : Fld := ⟨NET_FD0, 31, 1⟩
/-- 11 R409 -/
def NET_FD1 : Nat := 0x40A00108
def NET_FD1_VALUE : Fld := ⟨NET_FD1, 0, 32⟩
/-- 11 R409 -/
def NET_FD2 : Nat := 0x40A0010C
def NET_FD2_VALUE : Fld := ⟨NET_FD2, 0, 32⟩
/-- 11 R409 -/
def NET_FD3 : Nat := 0x40A00110
def NET_FD3_VID : Fld := ⟨NET_FD3, 0, 12⟩
def NET_FD3_LEN : Fld := ⟨NET_FD3, 16, 11⟩
/-- 11 R409 -/
def NET_FD4 : Nat := 0x40A00114
def NET_FD4_PERD : Fld := ⟨NET_FD4, 0, 14⟩
def NET_FD4_OFFS : Fld := ⟨NET_FD4, 16, 14⟩
/-- 11 R409 -/
def NET_FD5 : Nat := 0x40A00118
def NET_FD5_TIME : Fld := ⟨NET_FD5, 0, 16⟩
def NET_FD5_RESV : Fld := ⟨NET_FD5, 16, 16⟩
/-- 11 R409 -/
def NET_FD6 : Nat := 0x40A0011C
def NET_FD6_SID : Fld := ⟨NET_FD6, 0, 32⟩
/-- 11 R409 -/
def NET_FD7 : Nat := 0x40A00120
def NET_FD7_SID : Fld := ⟨NET_FD7, 0, 32⟩
/-- 11 R409 -/
def NET_FD8 : Nat := 0x40A00124
def NET_FD8_SEQWIN : Fld := ⟨NET_FD8, 0, 16⟩
def NET_FD8_RECOV : Fld := ⟨NET_FD8, 16, 8⟩
def NET_FD8_SKEW : Fld := ⟨NET_FD8, 24, 8⟩
/-- 11 R409 -/
def NET_FD9 : Nat := 0x40A00128
def NET_FD9_SAFEV : Fld := ⟨NET_FD9, 2, 20⟩
/-- 11 R409 -/
def NET_FSTAT : Nat := 0x40A00130
def NET_FSTAT_LOST : Fld := ⟨NET_FSTAT, 0, 1⟩
def NET_FSTAT_FAULT : Fld := ⟨NET_FSTAT, 1, 1⟩
def NET_FSTAT_ACKWAIT : Fld := ⟨NET_FSTAT, 2, 1⟩
def NET_FSTAT_CAUSE : Fld := ⟨NET_FSTAT, 4, 3⟩
def NET_FSTAT_GOOD : Fld := ⟨NET_FSTAT, 8, 8⟩
/-- 11 R409 -/
def NET_FLAST : Nat := 0x40A00134
def NET_FLAST_SEQ : Fld := ⟨NET_FLAST, 0, 32⟩
/-- 11 R409 -/
def NET_FCNT : Nat := 0x40A00138
def NET_FCNT_CRCERR : Fld := ⟨NET_FCNT, 0, 8⟩
def NET_FCNT_SEQERR : Fld := ⟨NET_FCNT, 8, 8⟩
def NET_FCNT_DIFF : Fld := ⟨NET_FCNT, 16, 8⟩
def NET_FCNT_SINGLE : Fld := ⟨NET_FCNT, 24, 8⟩
/-! Block TIME, 11_backbone_time_and_safe_telegrams.md -/

/-- 11 R410 -/
def TIME_ID : Nat := 0x40400000
def TIME_ID_PART : Fld := ⟨TIME_ID, 16, 16⟩
def TIME_ID_ISSUE : Fld := ⟨TIME_ID, 8, 8⟩
def TIME_ID_STEP : Fld := ⟨TIME_ID, 0, 8⟩
/-- 11 R410 -/
def TIME_STAT : Nat := 0x40400004
def TIME_STAT_STATE : Fld := ⟨TIME_STAT, 0, 2⟩
def TIME_STAT_STEPNEED : Fld := ⟨TIME_STAT, 2, 1⟩
def TIME_STAT_NOACQ : Fld := ⟨TIME_STAT, 3, 1⟩
def TIME_STAT_SLEWLIM : Fld := ⟨TIME_STAT, 4, 1⟩
def TIME_STAT_GM : Fld := ⟨TIME_STAT, 5, 1⟩
def TIME_STAT_SLAVE : Fld := ⟨TIME_STAT, 8, 2⟩
/-- 11 R410 -/
def TIME_CFG : Nat := 0x40400008
def TIME_CFG_MODE : Fld := ⟨TIME_CFG, 0, 2⟩
def TIME_CFG_TRANSP : Fld := ⟨TIME_CFG, 2, 1⟩
def TIME_CFG_DOMAIN : Fld := ⟨TIME_CFG, 8, 7⟩
def TIME_CFG_LEARN : Fld := ⟨TIME_CFG, 16, 1⟩
/-- 11 R410 -/
def TIME_PTPCFG : Nat := 0x4040000C
def TIME_PTPCFG_PRIO1 : Fld := ⟨TIME_PTPCFG, 0, 8⟩
def TIME_PTPCFG_PRIO2 : Fld := ⟨TIME_PTPCFG, 8, 8⟩
def TIME_PTPCFG_SYNCI : Fld := ⟨TIME_PTPCFG, 16, 4⟩
def TIME_PTPCFG_ANNI : Fld := ⟨TIME_PTPCFG, 20, 4⟩
def TIME_PTPCFG_ANNTO : Fld := ⟨TIME_PTPCFG, 24, 4⟩
/-- 11 R410 -/
def TIME_MONO_LO : Nat := 0x40400010
def TIME_MONO_LO_NS : Fld := ⟨TIME_MONO_LO, 0, 32⟩
/-- 11 R410 -/
def TIME_MONO_HI : Nat := 0x40400014
def TIME_MONO_HI_NS : Fld := ⟨TIME_MONO_HI, 0, 32⟩
/-- 11 R410 -/
def TIME_SYNC_NS : Nat := 0x40400018
def TIME_SYNC_NS_VALUE : Fld := ⟨TIME_SYNC_NS, 0, 32⟩
/-- 11 R410 -/
def TIME_SYNC_SLO : Nat := 0x4040001C
def TIME_SYNC_SLO_VALUE : Fld := ⟨TIME_SYNC_SLO, 0, 32⟩
/-- 11 R410 -/
def TIME_SYNC_SHI : Nat := 0x40400020
def TIME_SYNC_SHI_VALUE : Fld := ⟨TIME_SYNC_SHI, 0, 32⟩
/-- 11 R410 -/
def TIME_OFFS : Nat := 0x40400024
def TIME_OFFS_VALUE : Fld := ⟨TIME_OFFS, 0, 32⟩
/-- 11 R410 -/
def TIME_RATE : Nat := 0x40400028
def TIME_RATE_VALUE : Fld := ⟨TIME_RATE, 0, 32⟩
/-- 11 R410 -/
def TIME_COMP : Nat := 0x4040002C
def TIME_COMP_VALUE : Fld := ⟨TIME_COMP, 0, 32⟩
/-- 11 R410 -/
def TIME_MPD : Nat := 0x40400030
def TIME_MPD_NS : Fld := ⟨TIME_MPD, 0, 32⟩
/-- 11 R410 -/
def TIME_GM_LO : Nat := 0x40400034
def TIME_GM_LO_ID : Fld := ⟨TIME_GM_LO, 0, 32⟩
/-- 11 R410 -/
def TIME_GM_HI : Nat := 0x40400038
def TIME_GM_HI_ID : Fld := ⟨TIME_GM_HI, 0, 32⟩
/-- 11 R410 -/
def TIME_CMD : Nat := 0x40400040
def TIME_CMD_CMD : Fld := ⟨TIME_CMD, 0, 2⟩
def TIME_CMD_CSEQ : Fld := ⟨TIME_CMD, 16, 16⟩
/-- 11 R410 -/
def TIME_SEQ : Nat := 0x40400044
def TIME_SEQ_LASTCMD : Fld := ⟨TIME_SEQ, 0, 16⟩
def TIME_SEQ_LASTEVT : Fld := ⟨TIME_SEQ, 16, 16⟩
/-- 11 R410 -/
def TIME_RES : Nat := 0x40400048
def TIME_RES_RESULT : Fld := ⟨TIME_RES, 0, 4⟩
/-- 11 R410 -/
def TIME_PnCFG (n : Nat) : Nat := 0x40400050 + 0x4 * n
def TIME_PnCFG_PTPEN (n : Nat) : Fld := ⟨TIME_PnCFG n, 0, 1⟩
def TIME_PnCFG_P2P (n : Nat) : Fld := ⟨TIME_PnCFG n, 1, 1⟩
def TIME_PnCFG_ONESTEP (n : Nat) : Fld := ⟨TIME_PnCFG n, 2, 1⟩
def TIME_PnCFG_DREQI (n : Nat) : Fld := ⟨TIME_PnCFG n, 4, 3⟩
/-- 11 R410 -/
def TIME_PnASYM (n : Nat) : Nat := 0x40400060 + 0x4 * n
def TIME_PnASYM_PS (n : Nat) : Fld := ⟨TIME_PnASYM n, 0, 32⟩
/-- 11 R410 -/
def TIME_PnPST (n : Nat) : Nat := 0x40400070 + 0x4 * n
def TIME_PnPST_STATE (n : Nat) : Fld := ⟨TIME_PnPST n, 0, 4⟩
/-! Block OCT, 12_octette_consist_bus.md -/

/-- 12 R440 -/
def OCT_ID : Nat := 0x40B00000
def OCT_ID_PART : Fld := ⟨OCT_ID, 16, 16⟩
def OCT_ID_ISSUE : Fld := ⟨OCT_ID, 8, 8⟩
def OCT_ID_STEP : Fld := ⟨OCT_ID, 0, 8⟩
/-- 12 R440 -/
def OCT_STAT : Nat := 0x40B00004
def OCT_STAT_ROLE : Fld := ⟨OCT_STAT, 0, 2⟩
def OCT_STAT_CSSTEP : Fld := ⟨OCT_STAT, 2, 3⟩
def OCT_STAT_MASTER : Fld := ⟨OCT_STAT, 8, 7⟩
def OCT_STAT_IDMIS : Fld := ⟨OCT_STAT, 16, 1⟩
def OCT_STAT_HOPEND : Fld := ⟨OCT_STAT, 17, 1⟩
/-- 12 R440 -/
def OCT_CFG : Nat := 0x40B00008
def OCT_CFG_ADDR : Fld := ⟨OCT_CFG, 0, 7⟩
def OCT_CFG_MCAP : Fld := ⟨OCT_CFG, 8, 1⟩
def OCT_CFG_TERMA : Fld := ⟨OCT_CFG, 9, 1⟩
def OCT_CFG_TERMB : Fld := ⟨OCT_CFG, 10, 1⟩
def OCT_CFG_CHEN : Fld := ⟨OCT_CFG, 12, 2⟩
def OCT_CFG_RTDMAX : Fld := ⟨OCT_CFG, 16, 8⟩
def OCT_CFG_MACRO : Fld := ⟨OCT_CFG, 24, 4⟩
/-- 12 R440 -/
def OCT_SCHID : Nat := 0x40B0000C
def OCT_SCHID_CRC : Fld := ⟨OCT_SCHID, 0, 32⟩
/-- 12 R440 -/
def OCT_CMD : Nat := 0x40B00010
def OCT_CMD_CMD : Fld := ⟨OCT_CMD, 0, 2⟩
def OCT_CMD_ADDR : Fld := ⟨OCT_CMD, 8, 7⟩
def OCT_CMD_CSEQ : Fld := ⟨OCT_CMD, 16, 16⟩
/-- 12 R440 -/
def OCT_SEQ : Nat := 0x40B00014
def OCT_SEQ_LASTCMD : Fld := ⟨OCT_SEQ, 0, 16⟩
def OCT_SEQ_LASTEVT : Fld := ⟨OCT_SEQ, 16, 16⟩
/-- 12 R440 -/
def OCT_RES : Nat := 0x40B00018
def OCT_RES_RESULT : Fld := ⟨OCT_RES, 0, 4⟩
/-- 12 R440 -/
def OCT_TST_LO : Nat := 0x40B00020
def OCT_TST_LO_MONO : Fld := ⟨OCT_TST_LO, 0, 32⟩
/-- 12 R440 -/
def OCT_TST_HI : Nat := 0x40B00024
def OCT_TST_HI_MONO : Fld := ⟨OCT_TST_HI, 0, 32⟩
/-- 12 R440 -/
def OCT_MCNT : Nat := 0x40B00028
def OCT_MCNT_INDEX : Fld := ⟨OCT_MCNT, 0, 10⟩
def OCT_MCNT_COUNT : Fld := ⟨OCT_MCNT, 16, 16⟩
/-- 12 R440 -/
def OCT_CHnCNT (n : Nat) : Nat := 0x40B00030 + 0x4 * n
def OCT_CHnCNT_FCS (n : Nat) : Fld := ⟨OCT_CHnCNT n, 0, 8⟩
def OCT_CHnCNT_CODE (n : Nat) : Fld := ⟨OCT_CHnCNT n, 8, 8⟩
def OCT_CHnCNT_LENW (n : Nat) : Fld := ⟨OCT_CHnCNT n, 16, 8⟩
def OCT_CHnCNT_COLL (n : Nat) : Fld := ⟨OCT_CHnCNT n, 24, 8⟩
/-- 12 R440 -/
def OCT_OWN : Nat := 0x40B00038
def OCT_OWN_LAST : Fld := ⟨OCT_OWN, 0, 4⟩
def OCT_OWN_RTD : Fld := ⟨OCT_OWN, 4, 12⟩
def OCT_OWN_DISC : Fld := ⟨OCT_OWN, 16, 16⟩
/-- 12 R440 -/
def OCT_ESEL : Nat := 0x40B00040
def OCT_ESEL_ENTRY : Fld := ⟨OCT_ESEL, 0, 12⟩
/-- 12 R440 -/
def OCT_ED0 : Nat := 0x40B00044
def OCT_ED0_OFFS : Fld := ⟨OCT_ED0, 0, 16⟩
def OCT_ED0_CH : Fld := ⟨OCT_ED0, 16, 1⟩
def OCT_ED0_KIND : Fld := ⟨OCT_ED0, 17, 3⟩
def OCT_ED0_EXP : Fld := ⟨OCT_ED0, 20, 4⟩
def OCT_ED0_EN : Fld := ⟨OCT_ED0, 31, 1⟩
/-- 12 R440 -/
def OCT_ED1 : Nat := 0x40B00048
def OCT_ED1_PHASE : Fld := ⟨OCT_ED1, 0, 10⟩
def OCT_ED1_ADDR : Fld := ⟨OCT_ED1, 10, 7⟩
def OCT_ED1_LENW : Fld := ⟨OCT_ED1, 17, 7⟩
/-- 12 R440 -/
def OCT_ED2 : Nat := 0x40B0004C
def OCT_ED2_PORT : Fld := ⟨OCT_ED2, 0, 12⟩
def OCT_ED2_GADDR : Fld := ⟨OCT_ED2, 16, 7⟩
def OCT_ED2_GRANT : Fld := ⟨OCT_ED2, 31, 1⟩
/-- 12 R440 -/
def OCT_PSEL : Nat := 0x40B00050
def OCT_PSEL_INDEX : Fld := ⟨OCT_PSEL, 0, 9⟩
/-- 12 R440 -/
def OCT_PCFG : Nat := 0x40B00054
def OCT_PCFG_PORT : Fld := ⟨OCT_PCFG, 0, 12⟩
def OCT_PCFG_DIR : Fld := ⟨OCT_PCFG, 12, 1⟩
def OCT_PCFG_LENW : Fld := ⟨OCT_PCFG, 13, 7⟩
def OCT_PCFG_TMO : Fld := ⟨OCT_PCFG, 20, 8⟩
def OCT_PCFG_EN : Fld := ⟨OCT_PCFG, 31, 1⟩
/-- 12 R440 -/
def OCT_PSTAT : Nat := 0x40B00058
def OCT_PSTAT_LOST : Fld := ⟨OCT_PSTAT, 0, 1⟩
def OCT_PSTAT_NEVER : Fld := ⟨OCT_PSTAT, 1, 1⟩
def OCT_PSTAT_MISS : Fld := ⟨OCT_PSTAT, 8, 8⟩
def OCT_PSTAT_COUNT : Fld := ⟨OCT_PSTAT, 16, 16⟩
/-- 12 R440 -/
def OCT_NSEL : Nat := 0x40B00060
def OCT_NSEL_ADDR : Fld := ⟨OCT_NSEL, 0, 7⟩
/-- 12 R440 -/
def OCT_NSTAT : Nat := 0x40B00064
def OCT_NSTAT_ADM : Fld := ⟨OCT_NSTAT, 0, 1⟩
def OCT_NSTAT_GRANT : Fld := ⟨OCT_NSTAT, 1, 1⟩
def OCT_NSTAT_RTD : Fld := ⟨OCT_NSTAT, 2, 12⟩
def OCT_NSTAT_LAST : Fld := ⟨OCT_NSTAT, 14, 4⟩
def OCT_NSTAT_ERR : Fld := ⟨OCT_NSTAT, 18, 8⟩
def OCT_NSTAT_NOREP : Fld := ⟨OCT_NSTAT, 26, 6⟩
/-! Block BRG, 13_bridle_bridges_and_gateway.md -/

/-- 13 R462 -/
def BRG_ID : Nat := 0x40C00000
def BRG_ID_PART : Fld := ⟨BRG_ID, 16, 16⟩
def BRG_ID_ISSUE : Fld := ⟨BRG_ID, 8, 8⟩
def BRG_ID_STEP : Fld := ⟨BRG_ID, 0, 8⟩
/-- 13 R462 -/
def BRG_STAT : Nat := 0x40C00004
def BRG_STAT_LINK : Fld := ⟨BRG_STAT, 0, 1⟩
def BRG_STAT_SPEED : Fld := ⟨BRG_STAT, 1, 2⟩
def BRG_STAT_WIDTH : Fld := ⟨BRG_STAT, 3, 3⟩
/-- 13 R462 -/
def BRG_CFG : Nat := 0x40C00008
def BRG_CFG_CTO : Fld := ⟨BRG_CFG, 0, 10⟩
def BRG_CFG_PWLIM : Fld := ⟨BRG_CFG, 10, 10⟩
def BRG_CFG_RAHOLD : Fld := ⟨BRG_CFG, 20, 8⟩
/-- 13 R462 -/
def BRG_CMD : Nat := 0x40C0000C
def BRG_CMD_CMD : Fld := ⟨BRG_CMD, 0, 3⟩
def BRG_CMD_WIN : Fld := ⟨BRG_CMD, 4, 4⟩
def BRG_CMD_CSEQ : Fld := ⟨BRG_CMD, 16, 16⟩
/-- 13 R462 -/
def BRG_SEQ : Nat := 0x40C00010
def BRG_SEQ_LASTCMD : Fld := ⟨BRG_SEQ, 0, 16⟩
def BRG_SEQ_LASTEVT : Fld := ⟨BRG_SEQ, 16, 16⟩
/-- 13 R462 -/
def BRG_RES : Nat := 0x40C00014
def BRG_RES_RESULT : Fld := ⟨BRG_RES, 0, 4⟩
/-- 13 R462 -/
def BRG_CFGADDR : Nat := 0x40C00018
def BRG_CFGADDR_REG : Fld := ⟨BRG_CFGADDR, 2, 10⟩
def BRG_CFGADDR_FUNC : Fld := ⟨BRG_CFGADDR, 12, 3⟩
def BRG_CFGADDR_DEV : Fld := ⟨BRG_CFGADDR, 15, 5⟩
def BRG_CFGADDR_BUS : Fld := ⟨BRG_CFGADDR, 20, 8⟩
/-- 13 R462 -/
def BRG_CFGDATA : Nat := 0x40C0001C
def BRG_CFGDATA_DATA : Fld := ⟨BRG_CFGDATA, 0, 32⟩
/-- 13 R462 -/
def BRG_WEFADDR : Nat := 0x40C00020
def BRG_WEFADDR_ADDR : Fld := ⟨BRG_WEFADDR, 0, 32⟩
/-- 13 R462 -/
def BRG_WEFINFO : Nat := 0x40C00024
def BRG_WEFINFO_SEQ : Fld := ⟨BRG_WEFINFO, 0, 24⟩
def BRG_WEFINFO_KIND : Fld := ⟨BRG_WEFINFO, 24, 3⟩
def BRG_WEFINFO_SIZE : Fld := ⟨BRG_WEFINFO, 27, 2⟩
def BRG_WEFINFO_SRC : Fld := ⟨BRG_WEFINFO, 29, 1⟩
def BRG_WEFINFO_VALID : Fld := ⟨BRG_WEFINFO, 31, 1⟩
/-- 13 R462 -/
def BRG_WEFSTAT : Nat := 0x40C00028
def BRG_WEFSTAT_DEPTH : Fld := ⟨BRG_WEFSTAT, 0, 6⟩
def BRG_WEFSTAT_PART : Fld := ⟨BRG_WEFSTAT, 8, 5⟩
def BRG_WEFSTAT_OVF : Fld := ⟨BRG_WEFSTAT, 16, 1⟩
def BRG_WEFSTAT_LOST : Fld := ⟨BRG_WEFSTAT, 24, 8⟩
/-- 13 R462 -/
def BRG_PWSEL : Nat := 0x40C00030
def BRG_PWSEL_PART : Fld := ⟨BRG_PWSEL, 0, 5⟩
/-- 13 R462 -/
def BRG_PWSTAT : Nat := 0x40C00034
def BRG_PWSTAT_LAST : Fld := ⟨BRG_PWSTAT, 0, 24⟩
/-- 13 R462 -/
def BRG_PWTRK : Nat := 0x40C00038
def BRG_PWTRK_DONE : Fld := ⟨BRG_PWTRK, 0, 24⟩
def BRG_PWTRK_OPEN : Fld := ⟨BRG_PWTRK, 24, 8⟩
/-- 13 R462 -/
def BRG_PWFAIL : Nat := 0x40C0003C
def BRG_PWFAIL_COUNT : Fld := ⟨BRG_PWFAIL, 0, 32⟩
/-- 13 R462 -/
def BRG_PFLADDR : Nat := 0x40C00040
def BRG_PFLADDR_ADDR : Fld := ⟨BRG_PFLADDR, 0, 32⟩
/-- 13 R462 -/
def BRG_PFLINFO : Nat := 0x40C00044
def BRG_PFLINFO_UNUSED : Fld := ⟨BRG_PFLINFO, 0, 5⟩
def BRG_PFLINFO_PART : Fld := ⟨BRG_PFLINFO, 8, 5⟩
def BRG_PFLINFO_CAUSE : Fld := ⟨BRG_PFLINFO, 16, 3⟩
def BRG_PFLINFO_VALID : Fld := ⟨BRG_PFLINFO, 31, 1⟩
/-- 13 R462 -/
def BRG_PFLSTAT : Nat := 0x40C00048
def BRG_PFLSTAT_DEPTH : Fld := ⟨BRG_PFLSTAT, 0, 5⟩
def BRG_PFLSTAT_LOSTCNT : Fld := ⟨BRG_PFLSTAT, 16, 16⟩
/-- 13 R462 -/
def BRG_MSIPEND : Nat := 0x40C00050
def BRG_MSIPEND_VEC : Fld := ⟨BRG_MSIPEND, 0, 32⟩
/-- 13 R462 -/
def BRG_MSIEN : Nat := 0x40C00054
def BRG_MSIEN_VEC : Fld := ⟨BRG_MSIEN, 0, 32⟩
/-- 13 R462 -/
def BRG_LATE : Nat := 0x40C00058
def BRG_LATE_LATE : Fld := ⟨BRG_LATE, 0, 16⟩
def BRG_LATE_INUR : Fld := ⟨BRG_LATE, 16, 16⟩
/-- 13 R462 -/
def BRG_SBCFG : Nat := 0x40C00060
def BRG_SBCFG_DIR : Fld := ⟨BRG_SBCFG, 0, 8⟩
def BRG_SBCFG_SAFEEN : Fld := ⟨BRG_SBCFG, 8, 8⟩
def BRG_SBCFG_SAFEVAL : Fld := ⟨BRG_SBCFG, 16, 8⟩
def BRG_SBCFG_IRQEN : Fld := ⟨BRG_SBCFG, 24, 8⟩
/-- 13 R462 -/
def BRG_SBIN : Nat := 0x40C00064
def BRG_SBIN_LVL : Fld := ⟨BRG_SBIN, 0, 8⟩
def BRG_SBIN_CHG : Fld := ⟨BRG_SBIN, 8, 8⟩
/-- 13 R462 -/
def BRG_SBOUT : Nat := 0x40C00068
def BRG_SBOUT_LVL : Fld := ⟨BRG_SBOUT, 0, 8⟩
/-- 13 R462 -/
def BRG_CRSEL : Nat := 0x40C00070
def BRG_CRSEL_PART : Fld := ⟨BRG_CRSEL, 0, 5⟩
/-- 13 R462 -/
def BRG_CRDAT : Nat := 0x40C00074
def BRG_CRDAT_O3 : Fld := ⟨BRG_CRDAT, 0, 6⟩
def BRG_CRDAT_O4 : Fld := ⟨BRG_CRDAT, 8, 5⟩
/-- 13 R462 -/
def BRG_SSEL : Nat := 0x40C00080
def BRG_SSEL_INDEX : Fld := ⟨BRG_SSEL, 0, 8⟩
/-- 13 R462 -/
def BRG_SD0 : Nat := 0x40C00084
def BRG_SD0_STATION : Fld := ⟨BRG_SD0, 0, 12⟩
def BRG_SD0_INLEN : Fld := ⟨BRG_SD0, 12, 7⟩
def BRG_SD0_OUTLEN : Fld := ⟨BRG_SD0, 19, 7⟩
def BRG_SD0_EN : Fld := ⟨BRG_SD0, 31, 1⟩
/-- 13 R462 -/
def BRG_SD1 : Nat := 0x40C00088
def BRG_SD1_ADDR : Fld := ⟨BRG_SD1, 2, 30⟩
/-- 13 R462 -/
def BRG_SD2 : Nat := 0x40C0008C
def BRG_SD2_ADDR : Fld := ⟨BRG_SD2, 2, 30⟩
/-- 13 R462 -/
def BRG_SD3 : Nat := 0x40C00090
def BRG_SD3_PERD : Fld := ⟨BRG_SD3, 0, 14⟩
def BRG_SD3_OFFS : Fld := ⟨BRG_SD3, 14, 14⟩
/-- 13 R462 -/
def BRG_SD4 : Nat := 0x40C00094
def BRG_SD4_LEAD : Fld := ⟨BRG_SD4, 0, 7⟩
def BRG_SD4_TMO : Fld := ⟨BRG_SD4, 8, 16⟩
/-- 13 R462 -/
def BRG_SSTAT : Nat := 0x40C00098
def BRG_SSTAT_LOST : Fld := ⟨BRG_SSTAT, 0, 1⟩
def BRG_SSTAT_NEVER : Fld := ⟨BRG_SSTAT, 1, 1⟩
def BRG_SSTAT_RDERR : Fld := ⟨BRG_SSTAT, 8, 8⟩
def BRG_SSTAT_WRERR : Fld := ⟨BRG_SSTAT, 16, 16⟩
/-- 13 R462 -/
def BRG_RCOUNT : Nat := 0x40C000A0
def BRG_RCOUNT_COUNT : Fld := ⟨BRG_RCOUNT, 0, 15⟩
/-- 13 R462 -/
def BRG_RSEL : Nat := 0x40C000A4
def BRG_RSEL_INDEX : Fld := ⟨BRG_RSEL, 0, 14⟩
/-- 13 R462 -/
def BRG_RD0 : Nat := 0x40C000A8
def BRG_RD0_WORD : Fld := ⟨BRG_RD0, 0, 32⟩
/-- 13 R462 -/
def BRG_RD1 : Nat := 0x40C000AC
def BRG_RD1_WORD : Fld := ⟨BRG_RD1, 0, 32⟩
/-- 13 R462 -/
def BRG_RD2 : Nat := 0x40C000B0
def BRG_RD2_WORD : Fld := ⟨BRG_RD2, 0, 32⟩
/-- 13 R462 -/
def BRG_WnCTL (n : Nat) : Nat := 0x40C00100 + 0x10 * n
def BRG_WnCTL_EN (n : Nat) : Fld := ⟨BRG_WnCTL n, 0, 1⟩
def BRG_WnCTL_POSTED (n : Nat) : Fld := ⟨BRG_WnCTL n, 1, 1⟩
def BRG_WnCTL_PREF (n : Nat) : Fld := ⟨BRG_WnCTL n, 2, 1⟩
def BRG_WnCTL_STOPERR (n : Nat) : Fld := ⟨BRG_WnCTL n, 3, 1⟩
def BRG_WnCTL_WORD (n : Nat) : Fld := ⟨BRG_WnCTL n, 4, 1⟩
def BRG_WnCTL_PART (n : Nat) : Fld := ⟨BRG_WnCTL n, 8, 5⟩
def BRG_WnCTL_SIZE (n : Nat) : Fld := ⟨BRG_WnCTL n, 16, 5⟩
/-- 13 R462 -/
def BRG_WnBASE (n : Nat) : Nat := 0x40C00104 + 0x10 * n
def BRG_WnBASE_UNIT (n : Nat) : Fld := ⟨BRG_WnBASE n, 0, 16⟩
/-- 13 R462 -/
def BRG_WnTGT (n : Nat) : Nat := 0x40C00108 + 0x10 * n
def BRG_WnTGT_UNIT (n : Nat) : Fld := ⟨BRG_WnTGT n, 0, 16⟩
/-- 13 R462 -/
def BRG_WnSTAT (n : Nat) : Nat := 0x40C0010C + 0x10 * n
def BRG_WnSTAT_STOPPED (n : Nat) : Fld := ⟨BRG_WnSTAT n, 0, 1⟩
def BRG_WnSTAT_OPEN (n : Nat) : Fld := ⟨BRG_WnSTAT n, 8, 8⟩
def BRG_WnSTAT_REFUSED (n : Nat) : Fld := ⟨BRG_WnSTAT n, 16, 16⟩
/-! Block PAIR, 14_redundant_pair.md -/

/-- 14 R487 -/
def PAIR_ID : Nat := 0x40D00000
def PAIR_ID_PART : Fld := ⟨PAIR_ID, 16, 16⟩
def PAIR_ID_ISSUE : Fld := ⟨PAIR_ID, 8, 8⟩
def PAIR_ID_STEP : Fld := ⟨PAIR_ID, 0, 8⟩
/-- 14 R487 -/
def PAIR_STAT : Nat := 0x40D00004
def PAIR_STAT_ROLE : Fld := ⟨PAIR_STAT, 0, 2⟩
def PAIR_STAT_READY : Fld := ⟨PAIR_STAT, 2, 1⟩
def PAIR_STAT_XL : Fld := ⟨PAIR_STAT, 3, 1⟩
def PAIR_STAT_NA : Fld := ⟨PAIR_STAT, 4, 1⟩
def PAIR_STAT_NB : Fld := ⟨PAIR_STAT, 5, 1⟩
def PAIR_STAT_LIVE : Fld := ⟨PAIR_STAT, 6, 1⟩
def PAIR_STAT_COND : Fld := ⟨PAIR_STAT, 8, 3⟩
def PAIR_STAT_SLOT : Fld := ⟨PAIR_STAT, 16, 5⟩
def PAIR_STAT_PSLOT : Fld := ⟨PAIR_STAT, 24, 5⟩
/-- 14 R487 -/
def PAIR_CFG : Nat := 0x40D00008
def PAIR_CFG_MODE : Fld := ⟨PAIR_CFG, 0, 2⟩
def PAIR_CFG_NETLOSS : Fld := ⟨PAIR_CFG, 2, 10⟩
def PAIR_CFG_DIVLIM : Fld := ⟨PAIR_CFG, 12, 4⟩
/-- 14 R487 -/
def PAIR_PSER : Nat := 0x40D0000C
def PAIR_PSER_SERIAL : Fld := ⟨PAIR_PSER, 0, 32⟩
/-- 14 R487 -/
def PAIR_CMD : Nat := 0x40D00010
def PAIR_CMD_CMD : Fld := ⟨PAIR_CMD, 0, 2⟩
def PAIR_CMD_CSEQ : Fld := ⟨PAIR_CMD, 16, 16⟩
/-- 14 R487 -/
def PAIR_SEQ : Nat := 0x40D00014
def PAIR_SEQ_LASTCMD : Fld := ⟨PAIR_SEQ, 0, 16⟩
def PAIR_SEQ_LASTEVT : Fld := ⟨PAIR_SEQ, 16, 16⟩
/-- 14 R487 -/
def PAIR_RES : Nat := 0x40D00018
def PAIR_RES_RESULT : Fld := ⟨PAIR_RES, 0, 4⟩
def PAIR_RES_REASON : Fld := ⟨PAIR_RES, 8, 4⟩
/-- 14 R487 -/
def PAIR_PSN : Nat := 0x40D00020
def PAIR_PSN_PSN : Fld := ⟨PAIR_PSN, 0, 32⟩
/-- 14 R487 -/
def PAIR_PPSN : Nat := 0x40D00024
def PAIR_PPSN_PSN : Fld := ⟨PAIR_PPSN, 0, 32⟩
/-- 14 R487 -/
def PAIR_OFFS : Nat := 0x40D00028
def PAIR_OFFS_NS : Fld := ⟨PAIR_OFFS, 0, 18⟩
def PAIR_OFFS_HELD : Fld := ⟨PAIR_OFFS, 31, 1⟩
/-- 14 R487 -/
def PAIR_DTICK : Nat := 0x40D0002C
def PAIR_DTICK_DTICK : Fld := ⟨PAIR_DTICK, 0, 32⟩
/-- 14 R487 -/
def PAIR_MISS : Nat := 0x40D00030
def PAIR_MISS_XL : Fld := ⟨PAIR_MISS, 0, 8⟩
def PAIR_MISS_NA : Fld := ⟨PAIR_MISS, 8, 8⟩
def PAIR_MISS_NB : Fld := ⟨PAIR_MISS, 16, 8⟩
/-- 14 R487 -/
def PAIR_DIV : Nat := 0x40D00034
def PAIR_DIV_COUNT : Fld := ⟨PAIR_DIV, 0, 16⟩
def PAIR_DIV_RUN : Fld := ⟨PAIR_DIV, 16, 4⟩
def PAIR_DIV_SNAPMISS : Fld := ⟨PAIR_DIV, 24, 8⟩
/-- 14 R487 -/
def PAIR_LASTSW : Nat := 0x40D00038
def PAIR_LASTSW_GAP : Fld := ⟨PAIR_LASTSW, 0, 20⟩
def PAIR_LASTSW_CAUSE : Fld := ⟨PAIR_LASTSW, 20, 4⟩
def PAIR_LASTSW_STALE : Fld := ⟨PAIR_LASTSW, 24, 1⟩
/-- 14 R487 -/
def PAIR_HBCOM : Nat := 0x40D00040
def PAIR_HBCOM_COMID : Fld := ⟨PAIR_HBCOM, 0, 32⟩
/-- 14 R487 -/
def PAIR_PIPA : Nat := 0x40D00044
def PAIR_PIPA_ADDR : Fld := ⟨PAIR_PIPA, 0, 32⟩
/-- 14 R487 -/
def PAIR_PIPB : Nat := 0x40D00048
def PAIR_PIPB_ADDR : Fld := ⟨PAIR_PIPB, 0, 32⟩
/-- 14 R487 -/
def PAIR_RrCFG (n : Nat) : Nat := 0x40D00080 + 0x4 * n
def PAIR_RrCFG_REGION (n : Nat) : Fld := ⟨PAIR_RrCFG n, 0, 5⟩
def PAIR_RrCFG_TASK (n : Nat) : Fld := ⟨PAIR_RrCFG n, 8, 4⟩
def PAIR_RrCFG_EN (n : Nat) : Fld := ⟨PAIR_RrCFG n, 31, 1⟩
/-! Block SYS, 15_life_cycle_start_and_update.md -/

/-- 15 R519 -/
def SYS_ID : Nat := 0x40000000
def SYS_ID_PART : Fld := ⟨SYS_ID, 16, 16⟩
def SYS_ID_ISSUE : Fld := ⟨SYS_ID, 8, 8⟩
def SYS_ID_STEP : Fld := ⟨SYS_ID, 0, 8⟩
/-- 15 R519 -/
def SYS_MODE : Nat := 0x40000004
def SYS_MODE_MODE : Fld := ⟨SYS_MODE, 0, 4⟩
def SYS_MODE_PREV : Fld := ⟨SYS_MODE, 8, 4⟩
/-- 15 R519 -/
def SYS_STAT : Nat := 0x40000008
def SYS_STAT_CFGOK : Fld := ⟨SYS_STAT, 0, 1⟩
def SYS_STAT_PFAIL : Fld := ⟨SYS_STAT, 1, 1⟩
def SYS_STAT_GSIL : Fld := ⟨SYS_STAT, 2, 1⟩
def SYS_STAT_RPRST : Fld := ⟨SYS_STAT, 3, 1⟩
def SYS_STAT_RECOV : Fld := ⟨SYS_STAT, 4, 1⟩
def SYS_STAT_TRIAL : Fld := ⟨SYS_STAT, 5, 1⟩
def SYS_STAT_SLOT : Fld := ⟨SYS_STAT, 6, 1⟩
/-- 15 R519 -/
def SYS_LC : Nat := 0x4000000C
def SYS_LC_STATE : Fld := ⟨SYS_LC, 0, 3⟩
def SYS_LC_REVOKED : Fld := ⟨SYS_LC, 4, 4⟩
def SYS_LC_FUSED : Fld := ⟨SYS_LC, 8, 4⟩
/-- 15 R519 -/
def SYS_CFG : Nat := 0x40000010
def SYS_CFG_AUTO : Fld := ⟨SYS_CFG, 0, 2⟩
def SYS_CFG_PLAIN : Fld := ⟨SYS_CFG, 2, 1⟩
/-- 15 R519 -/
def SYS_SAFED : Nat := 0x40000014
def SYS_SAFED_CODE : Fld := ⟨SYS_SAFED, 0, 4⟩
def SYS_SAFED_DETAIL : Fld := ⟨SYS_SAFED, 16, 16⟩
/-- 15 R519 -/
def SYS_CMD : Nat := 0x40000018
def SYS_CMD_CMD : Fld := ⟨SYS_CMD, 0, 4⟩
def SYS_CMD_CSEQ : Fld := ⟨SYS_CMD, 16, 16⟩
/-- 15 R519 -/
def SYS_SEQ : Nat := 0x4000001C
def SYS_SEQ_LASTCMD : Fld := ⟨SYS_SEQ, 0, 16⟩
def SYS_SEQ_LASTEVT : Fld := ⟨SYS_SEQ, 16, 16⟩
/-- 15 R519 -/
def SYS_RES : Nat := 0x40000020
def SYS_RES_RESULT : Fld := ⟨SYS_RES, 0, 4⟩
def SYS_RES_REASON : Fld := ⟨SYS_RES, 8, 4⟩
/-- 15 R519 -/
def SYS_CARG0 : Nat := 0x40000024
def SYS_CARG0_VALUE : Fld := ⟨SYS_CARG0, 0, 32⟩
/-- 15 R519 -/
def SYS_CARG1 : Nat := 0x40000028
def SYS_CARG1_VALUE : Fld := ⟨SYS_CARG1, 0, 32⟩
/-- 15 R519 -/
def SYS_CARG2 : Nat := 0x4000002C
def SYS_CARG2_VALUE : Fld := ⟨SYS_CARG2, 0, 32⟩
/-- 15 R519 -/
def SYS_CFGRES0 : Nat := 0x40000030
def SYS_CFGRES0_RESULT : Fld := ⟨SYS_CFGRES0, 0, 8⟩
def SYS_CFGRES0_INDEX : Fld := ⟨SYS_CFGRES0, 8, 16⟩
def SYS_CFGRES0_COMB : Fld := ⟨SYS_CFGRES0, 24, 8⟩
/-- 15 R519 -/
def SYS_CFGRES1 : Nat := 0x40000034
def SYS_CFGRES1_RESOURCE : Fld := ⟨SYS_CFGRES1, 0, 16⟩
def SYS_CFGRES1_INDEX2 : Fld := ⟨SYS_CFGRES1, 16, 16⟩
/-- 15 R519 -/
def SYS_CFGRES2 : Nat := 0x40000038
def SYS_CFGRES2_CLAIMB : Fld := ⟨SYS_CFGRES2, 0, 16⟩
def SYS_CFGRES2_CLAIMA : Fld := ⟨SYS_CFGRES2, 16, 16⟩
/-- 15 R519 -/
def SYS_OVSEL : Nat := 0x40000040
def SYS_OVSEL_TMODE : Fld := ⟨SYS_OVSEL, 0, 3⟩
def SYS_OVSEL_ACTIVE : Fld := ⟨SYS_OVSEL, 8, 8⟩
/-- 15 R519 -/
def SYS_SER : Nat := 0x40000050
def SYS_SER_SERIAL : Fld := ⟨SYS_SER, 0, 32⟩
/-- 15 R519 -/
def SYS_SVN : Nat := 0x40000054
def SYS_SVN_FW : Fld := ⟨SYS_SVN, 0, 6⟩
def SYS_SVN_CFG : Fld := ⟨SYS_SVN, 8, 6⟩
/-- 15 R519 -/
def SYS_BOOT : Nat := 0x40000058
def SYS_BOOT_ACT : Fld := ⟨SYS_BOOT, 0, 1⟩
def SYS_BOOT_TRIALV : Fld := ⟨SYS_BOOT, 1, 1⟩
def SYS_BOOT_COUNT : Fld := ⟨SYS_BOOT, 4, 2⟩
def SYS_BOOT_TFAIL : Fld := ⟨SYS_BOOT, 6, 1⟩
/-- 15 R519 -/
def SYS_PKGA : Nat := 0x4000005C
def SYS_PKGA_VALUE : Fld := ⟨SYS_PKGA, 0, 32⟩
/-- 15 R519 -/
def SYS_PKGL : Nat := 0x40000060
def SYS_PKGL_VALUE : Fld := ⟨SYS_PKGL, 0, 32⟩
/-- 15 R519 -/
def SYS_SUPPLY : Nat := 0x40000064
def SYS_SUPPLY_MV : Fld := ⟨SYS_SUPPLY, 0, 16⟩
/-- 15 R519 -/
def SYS_GBRKt (n : Nat) : Nat := 0x40000070 + 0x4 * (n - 2)
def SYS_GBRKt_COUNT (n : Nat) : Fld := ⟨SYS_GBRKt n, 0, 32⟩
/-! Block BIST, 15_life_cycle_start_and_update.md -/

/-- 15 R520 -/
def BIST_ID : Nat := 0x40F00000
def BIST_ID_PART : Fld := ⟨BIST_ID, 16, 16⟩
def BIST_ID_ISSUE : Fld := ⟨BIST_ID, 8, 8⟩
def BIST_ID_STEP : Fld := ⟨BIST_ID, 0, 8⟩
/-- 15 R520 -/
def BIST_STAT : Nat := 0x40F00004
def BIST_STAT_DONE : Fld := ⟨BIST_STAT, 0, 16⟩
def BIST_STAT_NSLICE : Fld := ⟨BIST_STAT, 16, 15⟩
def BIST_STAT_LATE : Fld := ⟨BIST_STAT, 31, 1⟩
/-- 15 R520 -/
def BIST_SUTRES : Nat := 0x40F00008
def BIST_SUTRES_ITEM : Fld := ⟨BIST_SUTRES, 0, 14⟩
/-- 15 R520 -/
def BIST_SUTTIME : Nat := 0x40F0000C
def BIST_SUTTIME_VALUE : Fld := ⟨BIST_SUTTIME, 0, 32⟩
/-- 15 R520 -/
def BIST_CFG : Nat := 0x40F00010
def BIST_CFG_LAPMAX : Fld := ⟨BIST_CFG, 0, 5⟩
def BIST_CFG_LATESAFE : Fld := ⟨BIST_CFG, 8, 1⟩
/-- 15 R520 -/
def BIST_LAPLAST : Nat := 0x40F00014
def BIST_LAPLAST_VALUE : Fld := ⟨BIST_LAPLAST, 0, 32⟩
/-- 15 R520 -/
def BIST_FAIL : Nat := 0x40F00018
def BIST_FAIL_SLICE : Fld := ⟨BIST_FAIL, 0, 15⟩
def BIST_FAIL_DETAIL : Fld := ⟨BIST_FAIL, 16, 16⟩
/-- 15 R520 -/
def BIST_MCMD : Nat := 0x40F00030
def BIST_MCMD_ITEM : Fld := ⟨BIST_MCMD, 0, 4⟩
def BIST_MCMD_GO : Fld := ⟨BIST_MCMD, 8, 1⟩
def BIST_MCMD_CSEQ : Fld := ⟨BIST_MCMD, 16, 16⟩
/-- 15 R520 -/
def BIST_MSEQ : Nat := 0x40F00034
def BIST_MSEQ_LASTCMD : Fld := ⟨BIST_MSEQ, 0, 16⟩
def BIST_MSEQ_LASTEVT : Fld := ⟨BIST_MSEQ, 16, 16⟩
/-- 15 R520 -/
def BIST_MRES : Nat := 0x40F00038
def BIST_MRES_RESULT : Fld := ⟨BIST_MRES, 0, 4⟩
def BIST_MRES_DETAIL : Fld := ⟨BIST_MRES, 16, 16⟩

end Reg

end Sys2Proof.Machine
end

