-- ==== Sys2Proof/Machine/RegTable.lean ====
section
/-!
DEFINITION. What the register tables of the spec say of every register: where its copies are, its reset value
and the access type of each field (00 R4 to R6). Where the spec gives the reset value as "from fuses" or "from
MRAM at BOOT" the value here is 0 (DESIGN CHOICE, log entry 3). Generated from the register tables of spec/02 to spec/15.
-/

namespace Sys2Proof.Machine

/-- The access types of 00 R5; `cfg` is RW marked "configuration", writable only in CONFIGURE (15 R500, R501). -/
inductive Access where | rw | ro | w1c | wo | rs | lc | cfg
deriving DecidableEq, Repr

/-- A field: lowest bit, width, access, and for a field repeated within the register its step and count. -/
structure FieldInfo where
  lo : Nat
  w : Nat
  acc : Access
  rep : Nat := 0
  cnt : Nat := 1
deriving DecidableEq, Repr

/-- A register: first address, steps and counts of its copies, reset value, fields. -/
structure RegInfo where
  addr : Nat
  dims : List (Nat × Nat)
  reset : Nat
  fields : List FieldInfo
deriving DecidableEq, Repr

def regsSys0 : List RegInfo := [
  -- SYS_ID
  ⟨0x40000000, [], 0x93040100, [⟨16, 16, .ro, 0, 1⟩, ⟨8, 8, .ro, 0, 1⟩, ⟨0, 8, .ro, 0, 1⟩]⟩,
  -- SYS_MODE
  ⟨0x40000004, [], 0x1, [⟨0, 4, .ro, 0, 1⟩, ⟨8, 4, .ro, 0, 1⟩]⟩,
  -- SYS_STAT
  ⟨0x40000008, [], 0x0, [⟨0, 1, .ro, 0, 1⟩, ⟨1, 1, .ro, 0, 1⟩, ⟨2, 1, .ro, 0, 1⟩, ⟨3, 1, .ro, 0, 1⟩, ⟨4, 1, .ro, 0, 1⟩, ⟨5, 1, .ro, 0, 1⟩, ⟨6, 1, .ro, 0, 1⟩]⟩,
  -- SYS_LC
  ⟨0x4000000C, [], 0x0, [⟨0, 3, .ro, 0, 1⟩, ⟨4, 4, .ro, 0, 1⟩, ⟨8, 4, .ro, 0, 1⟩]⟩,
  -- SYS_CFG
  ⟨0x40000010, [], 0x0, [⟨0, 2, .lc, 0, 1⟩, ⟨2, 1, .lc, 0, 1⟩]⟩,
  -- SYS_SAFED
  ⟨0x40000014, [], 0x0, [⟨0, 4, .ro, 0, 1⟩, ⟨16, 16, .ro, 0, 1⟩]⟩,
  -- SYS_CMD
  ⟨0x40000018, [], 0x0, [⟨0, 4, .wo, 0, 1⟩, ⟨16, 16, .wo, 0, 1⟩]⟩,
  -- SYS_SEQ
  ⟨0x4000001C, [], 0x0, [⟨0, 16, .ro, 0, 1⟩, ⟨16, 16, .ro, 0, 1⟩]⟩,
  -- SYS_RES
  ⟨0x40000020, [], 0x0, [⟨0, 4, .ro, 0, 1⟩, ⟨8, 4, .ro, 0, 1⟩]⟩,
  -- SYS_CARG0
  ⟨0x40000024, [], 0x0, [⟨0, 32, .rw, 0, 1⟩]⟩,
  -- SYS_CARG1
  ⟨0x40000028, [], 0x0, [⟨0, 32, .rw, 0, 1⟩]⟩,
  -- SYS_CARG2
  ⟨0x4000002C, [], 0x0, [⟨0, 32, .rw, 0, 1⟩]⟩]

def regsSys1 : List RegInfo := [
  -- SYS_CFGRES0
  ⟨0x40000030, [], 0x0, [⟨0, 8, .ro, 0, 1⟩, ⟨8, 16, .ro, 0, 1⟩, ⟨24, 8, .ro, 0, 1⟩]⟩,
  -- SYS_CFGRES1
  ⟨0x40000034, [], 0x0, [⟨0, 16, .ro, 0, 1⟩, ⟨16, 16, .ro, 0, 1⟩]⟩,
  -- SYS_CFGRES2
  ⟨0x40000038, [], 0x0, [⟨0, 16, .ro, 0, 1⟩, ⟨16, 16, .ro, 0, 1⟩]⟩,
  -- SYS_OVSEL
  ⟨0x40000040, [], 0x0, [⟨0, 3, .rw, 0, 1⟩, ⟨8, 8, .ro, 0, 1⟩]⟩,
  -- SYS_SER
  ⟨0x40000050, [], 0x0, [⟨0, 32, .ro, 0, 1⟩]⟩,
  -- SYS_SVN
  ⟨0x40000054, [], 0x0, [⟨0, 6, .ro, 0, 1⟩, ⟨8, 6, .ro, 0, 1⟩]⟩,
  -- SYS_BOOT
  ⟨0x40000058, [], 0x0, [⟨0, 1, .ro, 0, 1⟩, ⟨1, 1, .ro, 0, 1⟩, ⟨4, 2, .ro, 0, 1⟩, ⟨6, 1, .ro, 0, 1⟩]⟩,
  -- SYS_PKGA
  ⟨0x4000005C, [], 0x0, [⟨0, 32, .ro, 0, 1⟩]⟩,
  -- SYS_PKGL
  ⟨0x40000060, [], 0x0, [⟨0, 32, .ro, 0, 1⟩]⟩,
  -- SYS_SUPPLY
  ⟨0x40000064, [], 0x0, [⟨0, 16, .ro, 0, 1⟩]⟩,
  -- SYS_GBRKt
  ⟨0x40000070, [(0x4, 5)], 0x0, [⟨0, 32, .ro, 0, 1⟩]⟩]

/-- The registers of block SYS. -/
def regsSys : List RegInfo := regsSys0 ++ regsSys1

def regsCore0 : List RegInfo := [
  -- CORE_ID
  ⟨0x40100000, [], 0x93040100, [⟨16, 16, .ro, 0, 1⟩, ⟨8, 8, .ro, 0, 1⟩, ⟨0, 8, .ro, 0, 1⟩]⟩,
  -- CORE_STAT
  ⟨0x40100004, [], 0xC, [⟨0, 2, .ro, 0, 1⟩, ⟨2, 2, .ro, 0, 1⟩, ⟨4, 3, .ro, 0, 1⟩, ⟨8, 1, .ro, 0, 1⟩, ⟨12, 1, .ro, 0, 1⟩]⟩,
  -- CORE_DIS
  ⟨0x40100008, [], 0x0, [⟨0, 1, .w1c, 0, 1⟩, ⟨1, 1, .w1c, 0, 1⟩, ⟨2, 1, .w1c, 0, 1⟩, ⟨3, 1, .w1c, 0, 1⟩, ⟨4, 1, .w1c, 0, 1⟩]⟩,
  -- CORE_OUTV0
  ⟨0x4010000C, [], 0x0, [⟨0, 32, .ro, 0, 1⟩]⟩,
  -- CORE_OUTV1
  ⟨0x40100010, [], 0x0, [⟨0, 32, .ro, 0, 1⟩]⟩,
  -- CORE_OUTV2
  ⟨0x40100014, [], 0x0, [⟨0, 32, .ro, 0, 1⟩]⟩,
  -- CORE_LASTA
  ⟨0x40100018, [], 0x0, [⟨0, 32, .ro, 0, 1⟩]⟩,
  -- CORE_LASTK
  ⟨0x4010001C, [], 0x0, [⟨0, 2, .ro, 0, 1⟩, ⟨2, 1, .ro, 0, 1⟩, ⟨3, 3, .ro, 0, 1⟩, ⟨6, 1, .ro, 0, 1⟩, ⟨8, 5, .ro, 0, 1⟩, ⟨16, 16, .ro, 0, 1⟩]⟩,
  -- CORE_RIC_LO
  ⟨0x40100020, [], 0x0, [⟨0, 32, .rs, 0, 1⟩]⟩,
  -- CORE_RIC_HI
  ⟨0x40100024, [], 0x0, [⟨0, 32, .ro, 0, 1⟩]⟩,
  -- CORE_CFG
  ⟨0x40100028, [], 0x103, [⟨0, 4, .lc, 0, 1⟩, ⟨8, 1, .lc, 0, 1⟩, ⟨9, 1, .lc, 0, 1⟩]⟩,
  -- CORE_RSCNT
  ⟨0x4010002C, [], 0x0, [⟨0, 8, .ro, 0, 1⟩, ⟨8, 8, .ro, 0, 1⟩, ⟨16, 8, .ro, 0, 1⟩]⟩]

def regsCore1 : List RegInfo := [
  -- CORE_RSLAST
  ⟨0x40100030, [], 0x0, [⟨0, 16, .ro, 0, 1⟩, ⟨16, 2, .ro, 0, 1⟩, ⟨18, 1, .ro, 0, 1⟩, ⟨20, 2, .ro, 0, 1⟩]⟩,
  -- CORE_DBGCMD
  ⟨0x40100040, [], 0x0, [⟨0, 4, .wo, 0, 1⟩, ⟨8, 5, .wo, 0, 1⟩, ⟨16, 16, .wo, 0, 1⟩]⟩,
  -- CORE_DBGADDR
  ⟨0x40100044, [], 0x0, [⟨0, 32, .rw, 0, 1⟩]⟩,
  -- CORE_DBGDATA_LO
  ⟨0x40100048, [], 0x0, [⟨0, 32, .rw, 0, 1⟩]⟩,
  -- CORE_DBGDATA_HI
  ⟨0x4010004C, [], 0x0, [⟨0, 32, .rw, 0, 1⟩]⟩,
  -- CORE_DBGSTAT
  ⟨0x40100050, [], 0x0, [⟨0, 2, .ro, 0, 1⟩, ⟨4, 4, .ro, 0, 1⟩, ⟨8, 9, .ro, 0, 1⟩]⟩,
  -- CORE_DBGSEQ
  ⟨0x40100054, [], 0x0, [⟨0, 16, .ro, 0, 1⟩, ⟨16, 16, .ro, 0, 1⟩]⟩,
  -- CORE_DBGCTL
  ⟨0x40100058, [], 0x0, [⟨0, 1, .rw, 0, 1⟩]⟩,
  -- CORE_DBGHRIC_LO
  ⟨0x40100060, [], 0x0, [⟨0, 32, .ro, 0, 1⟩]⟩,
  -- CORE_DBGHRIC_HI
  ⟨0x40100064, [], 0x0, [⟨0, 32, .ro, 0, 1⟩]⟩,
  -- CORE_SCCTL
  ⟨0x40100080, [], 0x0, [⟨0, 1, .rw, 0, 1⟩, ⟨1, 1, .rw, 0, 1⟩, ⟨4, 12, .rw, 0, 1⟩]⟩,
  -- CORE_SCKICK0
  ⟨0x40100084, [], 0x0, [⟨0, 32, .wo, 0, 1⟩]⟩]

def regsCore2 : List RegInfo := [
  -- CORE_SCKICK1
  ⟨0x40100088, [], 0x0, [⟨0, 32, .wo, 0, 1⟩]⟩,
  -- CORE_SCSTAT
  ⟨0x4010008C, [], 0x0, [⟨0, 1, .ro, 0, 1⟩, ⟨1, 1, .ro, 0, 1⟩, ⟨8, 1, .w1c, 0, 1⟩, ⟨9, 1, .w1c, 0, 1⟩, ⟨16, 1, .w1c, 0, 1⟩, ⟨17, 1, .w1c, 0, 1⟩, ⟨24, 1, .w1c, 0, 1⟩, ⟨25, 1, .w1c, 0, 1⟩]⟩,
  -- CORE_SCFWA0
  ⟨0x40100090, [], 0x0, [⟨0, 32, .ro, 0, 1⟩]⟩,
  -- CORE_SCFWA1
  ⟨0x40100094, [], 0x0, [⟨0, 32, .ro, 0, 1⟩]⟩]

/-- The registers of block CORE. -/
def regsCore : List RegInfo := regsCore0 ++ regsCore1 ++ regsCore2

def regsMem0 : List RegInfo := [
  -- MEM_ID
  ⟨0x40200000, [], 0x93040100, [⟨16, 16, .ro, 0, 1⟩, ⟨8, 8, .ro, 0, 1⟩, ⟨0, 8, .ro, 0, 1⟩]⟩,
  -- MEM_STAT
  ⟨0x40200004, [], 0x0, [⟨0, 1, .ro, 0, 1⟩, ⟨1, 1, .ro, 0, 1⟩, ⟨2, 1, .ro, 0, 1⟩, ⟨3, 1, .ro, 0, 1⟩, ⟨4, 1, .w1c, 0, 1⟩, ⟨5, 1, .w1c, 0, 1⟩, ⟨8, 1, .ro, 0, 1⟩]⟩,
  -- MEM_DBANK
  ⟨0x40200008, [], 0x0, [⟨0, 2, .rw, 0, 1⟩, ⟨8, 2, .rw, 0, 1⟩, ⟨16, 2, .rw, 0, 1⟩]⟩,
  -- MEM_CECNT
  ⟨0x40200010, [], 0x0, [⟨0, 32, .ro, 0, 1⟩]⟩,
  -- MEM_UECNT
  ⟨0x40200014, [], 0x0, [⟨0, 32, .ro, 0, 1⟩]⟩,
  -- MEM_LASTCE
  ⟨0x40200018, [], 0x0, [⟨0, 32, .ro, 0, 1⟩]⟩,
  -- MEM_LASTCS
  ⟨0x4020001C, [], 0x0, [⟨0, 7, .ro, 0, 1⟩, ⟨7, 1, .ro, 0, 1⟩, ⟨8, 2, .ro, 0, 1⟩, ⟨10, 1, .ro, 0, 1⟩, ⟨11, 1, .ro, 0, 1⟩]⟩,
  -- MEM_PQADDR
  ⟨0x40200020, [], 0x0, [⟨0, 32, .ro, 0, 1⟩]⟩,
  -- MEM_PQINFO
  ⟨0x40200024, [], 0x0, [⟨0, 5, .rs, 0, 1⟩, ⟨5, 1, .rs, 0, 1⟩, ⟨6, 2, .rs, 0, 1⟩, ⟨8, 1, .rs, 0, 1⟩, ⟨9, 3, .rs, 0, 1⟩, ⟨16, 5, .rs, 0, 1⟩, ⟨31, 1, .rs, 0, 1⟩]⟩,
  -- MEM_SCRCTL
  ⟨0x40200030, [], 0xE1001, [⟨0, 1, .rw, 0, 1⟩, ⟨8, 17, .rw, 0, 1⟩]⟩,
  -- MEM_SCRLAST
  ⟨0x40200034, [], 0x0, [⟨0, 32, .ro, 0, 1⟩]⟩,
  -- MEM_SCRWORST
  ⟨0x40200038, [], 0x0, [⟨0, 32, .ro, 0, 1⟩]⟩]

def regsMem1 : List RegInfo := [
  -- MEM_SCRLAPS
  ⟨0x4020003C, [], 0x0, [⟨0, 32, .ro, 0, 1⟩]⟩,
  -- MEM_FLIPA
  ⟨0x40200040, [], 0x0, [⟨0, 32, .rw, 0, 1⟩]⟩,
  -- MEM_FLIPD
  ⟨0x40200044, [], 0x0, [⟨0, 32, .rw, 0, 1⟩]⟩,
  -- MEM_FLIPC
  ⟨0x40200048, [], 0x0, [⟨0, 7, .rw, 0, 1⟩, ⟨7, 1, .rw, 0, 1⟩]⟩,
  -- MEM_FLIPCTL
  ⟨0x4020004C, [], 0x0, [⟨0, 1, .rw, 0, 1⟩, ⟨1, 1, .w1c, 0, 1⟩, ⟨2, 1, .w1c, 0, 1⟩]⟩,
  -- MEM_RPSTAT
  ⟨0x40200050, [], 0x0, [⟨0, 8, .ro, 0, 1⟩, ⟨8, 8, .ro, 0, 1⟩, ⟨16, 4, .ro, 0, 1⟩]⟩,
  -- MEM_RPLAST
  ⟨0x40200054, [], 0x0, [⟨0, 32, .ro, 0, 1⟩]⟩,
  -- MEM_CLRBASE
  ⟨0x40200060, [], 0x0, [⟨0, 32, .rw, 0, 1⟩]⟩,
  -- MEM_CLRLEN
  ⟨0x40200064, [], 0x0, [⟨0, 32, .rw, 0, 1⟩]⟩,
  -- MEM_CLRCMD
  ⟨0x40200068, [], 0x0, [⟨0, 1, .wo, 0, 1⟩, ⟨16, 16, .wo, 0, 1⟩]⟩,
  -- MEM_CLRSEQ
  ⟨0x4020006C, [], 0x0, [⟨0, 16, .ro, 0, 1⟩, ⟨16, 16, .ro, 0, 1⟩]⟩,
  -- MEM_ARBSEL
  ⟨0x40200070, [], 0x0, [⟨0, 3, .rw, 0, 1⟩, ⟨8, 6, .rw, 0, 1⟩]⟩]

def regsMem2 : List RegInfo := [
  -- MEM_ARBDAT
  ⟨0x40200074, [], 0x0, [⟨0, 4, .rw, 0, 1⟩, ⟨16, 16, .rw, 0, 1⟩]⟩,
  -- MEM_CLRRES
  ⟨0x40200078, [], 0x0, [⟨0, 4, .ro, 0, 1⟩]⟩,
  -- MEM_REGnB
  ⟨0x40200100, [(0x10, 32)], 0x0, [⟨0, 2, .lc, 0, 1⟩, ⟨12, 20, .lc, 0, 1⟩]⟩,
  -- MEM_REGnL
  ⟨0x40200104, [(0x10, 32)], 0x0, [⟨0, 1, .lc, 0, 1⟩, ⟨12, 20, .lc, 0, 1⟩]⟩,
  -- MEM_REGnA
  ⟨0x40200108, [(0x10, 32)], 0x0, [⟨0, 5, .lc, 0, 1⟩, ⟨8, 1, .lc, 0, 1⟩, ⟨9, 1, .lc, 0, 1⟩, ⟨10, 1, .lc, 0, 1⟩]⟩,
  -- MEM_REGnS
  ⟨0x4020010C, [(0x10, 32)], 0x0, [⟨0, 32, .rw, 0, 1⟩]⟩]

/-- The registers of block MEM. -/
def regsMem : List RegInfo := regsMem0 ++ regsMem1 ++ regsMem2

def regsCyc0 : List RegInfo := [
  -- CYC_ID
  ⟨0x40300000, [], 0x93040100, [⟨16, 16, .ro, 0, 1⟩, ⟨8, 8, .ro, 0, 1⟩, ⟨0, 8, .ro, 0, 1⟩]⟩,
  -- CYC_STAT
  ⟨0x40300004, [], 0x0, [⟨0, 1, .ro, 0, 1⟩, ⟨1, 1, .ro, 0, 1⟩, ⟨2, 1, .ro, 0, 1⟩, ⟨8, 9, .ro, 0, 1⟩]⟩,
  -- CYC_CFG
  ⟨0x40300008, [], 0x0, [⟨0, 1, .lc, 0, 1⟩]⟩,
  -- CYC_DISP
  ⟨0x4030000C, [], 0x0, [⟨0, 16, .rs, 0, 1⟩]⟩,
  -- CYC_OVR
  ⟨0x40300010, [], 0x0, [⟨0, 16, .w1c, 0, 1⟩]⟩,
  -- CYC_BUDEXP
  ⟨0x40300014, [], 0x0, [⟨0, 16, .w1c, 0, 1⟩]⟩,
  -- CYC_RUN
  ⟨0x40300018, [], 0x0, [⟨0, 4, .rw, 0, 1⟩, ⟨31, 1, .rw, 0, 1⟩]⟩,
  -- CYC_CMD
  ⟨0x40300020, [], 0x0, [⟨0, 2, .wo, 0, 1⟩, ⟨16, 16, .wo, 0, 1⟩]⟩,
  -- CYC_CMDSEQ
  ⟨0x40300024, [], 0x0, [⟨0, 16, .ro, 0, 1⟩, ⟨16, 16, .ro, 0, 1⟩]⟩,
  -- CYC_CMDRES
  ⟨0x40300028, [], 0x0, [⟨0, 4, .ro, 0, 1⟩]⟩,
  -- CYC_IMSEL
  ⟨0x40300030, [], 0x0, [⟨0, 10, .rw, 0, 1⟩]⟩,
  -- CYC_IMD0
  ⟨0x40300034, [], 0x0, [⟨0, 4, .cfg, 0, 1⟩, ⟨4, 12, .cfg, 0, 1⟩, ⟨16, 4, .cfg, 0, 1⟩, ⟨20, 1, .cfg, 0, 1⟩, ⟨21, 1, .cfg, 0, 1⟩, ⟨22, 1, .cfg, 0, 1⟩, ⟨31, 1, .cfg, 0, 1⟩]⟩]

def regsCyc1 : List RegInfo := [
  -- CYC_IMD1
  ⟨0x40300038, [], 0x0, [⟨0, 16, .cfg, 0, 1⟩, ⟨16, 11, .cfg, 0, 1⟩]⟩,
  -- CYC_IMD2
  ⟨0x4030003C, [], 0x0, [⟨2, 30, .cfg, 0, 1⟩]⟩,
  -- CYC_STSEL
  ⟨0x40300040, [], 0x0, [⟨0, 4, .rw, 0, 1⟩, ⟨4, 12, .rw, 0, 1⟩]⟩,
  -- CYC_STINFO
  ⟨0x40300044, [], 0x0, [⟨0, 1, .ro, 0, 1⟩, ⟨1, 1, .ro, 0, 1⟩, ⟨2, 1, .ro, 0, 1⟩, ⟨16, 16, .ro, 0, 1⟩]⟩,
  -- CYC_EDGEEN
  ⟨0x40300050, [], 0x0, [⟨0, 24, .rw, 0, 1⟩]⟩,
  -- CYC_EDGE_LO
  ⟨0x40300054, [], 0x0, [⟨0, 32, .ro, 0, 1⟩]⟩,
  -- CYC_EDGE_HI
  ⟨0x40300058, [], 0x0, [⟨0, 32, .ro, 0, 1⟩]⟩,
  -- CYC_EDGEINF
  ⟨0x4030005C, [], 0x0, [⟨0, 5, .rs, 0, 1⟩, ⟨8, 1, .rs, 0, 1⟩, ⟨31, 1, .rs, 0, 1⟩]⟩,
  -- CYC_EDGESTAT
  ⟨0x40300060, [], 0x0, [⟨0, 9, .ro, 0, 1⟩, ⟨16, 16, .w1c, 0, 1⟩]⟩,
  -- CYC_FVID
  ⟨0x40300080, [], 0x0, [⟨0, 32, .rw, 0, 1⟩]⟩,
  -- CYC_FVAL_LO
  ⟨0x40300084, [], 0x0, [⟨0, 32, .rw, 0, 1⟩]⟩,
  -- CYC_FVAL_HI
  ⟨0x40300088, [], 0x0, [⟨0, 32, .rw, 0, 1⟩]⟩]

def regsCyc2 : List RegInfo := [
  -- CYC_FCMD
  ⟨0x4030008C, [], 0x0, [⟨0, 3, .wo, 0, 1⟩, ⟨4, 3, .wo, 0, 1⟩, ⟨16, 16, .wo, 0, 1⟩]⟩,
  -- CYC_FSEQ
  ⟨0x40300090, [], 0x0, [⟨0, 16, .ro, 0, 1⟩, ⟨16, 16, .ro, 0, 1⟩]⟩,
  -- CYC_FRES
  ⟨0x40300094, [], 0x0, [⟨0, 4, .ro, 0, 1⟩, ⟨8, 3, .ro, 0, 1⟩]⟩,
  -- CYC_OCPKG
  ⟨0x403000A0, [], 0x0, [⟨2, 30, .rw, 0, 1⟩]⟩,
  -- CYC_OCEDGE
  ⟨0x403000A4, [], 0x0, [⟨0, 32, .rw, 0, 1⟩]⟩,
  -- CYC_OCCMD
  ⟨0x403000A8, [], 0x0, [⟨0, 3, .wo, 0, 1⟩, ⟨16, 16, .wo, 0, 1⟩]⟩,
  -- CYC_OCSEQ
  ⟨0x403000AC, [], 0x0, [⟨0, 16, .ro, 0, 1⟩, ⟨16, 16, .ro, 0, 1⟩]⟩,
  -- CYC_OCSTAT
  ⟨0x403000B0, [], 0x0, [⟨0, 3, .ro, 0, 1⟩, ⟨4, 4, .ro, 0, 1⟩, ⟨8, 4, .ro, 0, 1⟩, ⟨16, 16, .ro, 0, 1⟩]⟩,
  -- CYC_OCTIME
  ⟨0x403000B4, [], 0x0, [⟨0, 18, .ro, 0, 1⟩]⟩,
  -- CYC_OCPARTS
  ⟨0x403000B8, [], 0x0, [⟨0, 32, .ro, 0, 1⟩]⟩,
  -- CYC_TnPER
  ⟨0x40300100, [(0x20, 16)], 0x2, [⟨0, 14, .cfg, 0, 1⟩, ⟨16, 14, .cfg, 0, 1⟩]⟩,
  -- CYC_TnREL
  ⟨0x40300104, [(0x20, 16)], 0x1, [⟨0, 14, .cfg, 0, 1⟩, ⟨16, 5, .cfg, 0, 1⟩, ⟨24, 1, .ro, 0, 1⟩, ⟨31, 1, .cfg, 0, 1⟩]⟩]

def regsCyc3 : List RegInfo := [
  -- CYC_TnBUD
  ⟨0x40300108, [(0x20, 16)], 0x0, [⟨0, 24, .cfg, 0, 1⟩]⟩,
  -- CYC_TnWV
  ⟨0x4030010C, [(0x20, 16)], 0x0, [⟨0, 16, .rs, 0, 1⟩, ⟨31, 1, .rs, 0, 1⟩]⟩,
  -- CYC_TnCNT
  ⟨0x40300110, [(0x20, 16)], 0x0, [⟨0, 32, .ro, 0, 1⟩]⟩,
  -- CYC_TnSTAT
  ⟨0x40300114, [(0x20, 16)], 0x0, [⟨0, 1, .ro, 0, 1⟩, ⟨1, 1, .ro, 0, 1⟩, ⟨2, 1, .ro, 0, 1⟩, ⟨3, 1, .ro, 0, 1⟩, ⟨8, 8, .ro, 0, 1⟩]⟩,
  -- CYC_TnENTRY
  ⟨0x40300118, [(0x20, 16)], 0x0, [⟨2, 30, .ro, 0, 1⟩]⟩,
  -- CYC_TnUSED
  ⟨0x4030011C, [(0x20, 16)], 0x0, [⟨0, 24, .ro, 0, 1⟩]⟩,
  -- CYC_TMnCTL
  ⟨0x40300300, [(0x8, 32)], 0x0, [⟨0, 2, .rw, 0, 1⟩, ⟨4, 1, .wo, 0, 1⟩, ⟨5, 1, .wo, 0, 1⟩, ⟨8, 1, .ro, 0, 1⟩, ⟨9, 1, .ro, 0, 1⟩, ⟨16, 16, .ro, 0, 1⟩]⟩,
  -- CYC_TMnDUR
  ⟨0x40300304, [(0x8, 32)], 0x0, [⟨0, 32, .rw, 0, 1⟩]⟩]

/-- The registers of block CYC. -/
def regsCyc : List RegInfo := regsCyc0 ++ regsCyc1 ++ regsCyc2 ++ regsCyc3

def regsTime0 : List RegInfo := [
  -- TIME_ID
  ⟨0x40400000, [], 0x93040100, [⟨16, 16, .ro, 0, 1⟩, ⟨8, 8, .ro, 0, 1⟩, ⟨0, 8, .ro, 0, 1⟩]⟩,
  -- TIME_STAT
  ⟨0x40400004, [], 0x308, [⟨0, 2, .ro, 0, 1⟩, ⟨2, 1, .ro, 0, 1⟩, ⟨3, 1, .ro, 0, 1⟩, ⟨4, 1, .ro, 0, 1⟩, ⟨5, 1, .ro, 0, 1⟩, ⟨8, 2, .ro, 0, 1⟩]⟩,
  -- TIME_CFG
  ⟨0x40400008, [], 0x10001, [⟨0, 2, .cfg, 0, 1⟩, ⟨2, 1, .cfg, 0, 1⟩, ⟨8, 7, .cfg, 0, 1⟩, ⟨16, 1, .cfg, 0, 1⟩]⟩,
  -- TIME_PTPCFG
  ⟨0x4040000C, [], 0x3038080, [⟨0, 8, .cfg, 0, 1⟩, ⟨8, 8, .cfg, 0, 1⟩, ⟨16, 4, .cfg, 0, 1⟩, ⟨20, 4, .cfg, 0, 1⟩, ⟨24, 4, .cfg, 0, 1⟩]⟩,
  -- TIME_MONO_LO
  ⟨0x40400010, [], 0x0, [⟨0, 32, .rs, 0, 1⟩]⟩,
  -- TIME_MONO_HI
  ⟨0x40400014, [], 0x0, [⟨0, 32, .ro, 0, 1⟩]⟩,
  -- TIME_SYNC_NS
  ⟨0x40400018, [], 0x0, [⟨0, 32, .rs, 0, 1⟩]⟩,
  -- TIME_SYNC_SLO
  ⟨0x4040001C, [], 0x0, [⟨0, 32, .ro, 0, 1⟩]⟩,
  -- TIME_SYNC_SHI
  ⟨0x40400020, [], 0x0, [⟨0, 32, .ro, 0, 1⟩]⟩,
  -- TIME_OFFS
  ⟨0x40400024, [], 0x0, [⟨0, 32, .ro, 0, 1⟩]⟩,
  -- TIME_RATE
  ⟨0x40400028, [], 0x0, [⟨0, 32, .ro, 0, 1⟩]⟩,
  -- TIME_COMP
  ⟨0x4040002C, [], 0x0, [⟨0, 32, .ro, 0, 1⟩]⟩]

def regsTime1 : List RegInfo := [
  -- TIME_MPD
  ⟨0x40400030, [], 0x0, [⟨0, 32, .ro, 0, 1⟩]⟩,
  -- TIME_GM_LO
  ⟨0x40400034, [], 0x0, [⟨0, 32, .ro, 0, 1⟩]⟩,
  -- TIME_GM_HI
  ⟨0x40400038, [], 0x0, [⟨0, 32, .ro, 0, 1⟩]⟩,
  -- TIME_CMD
  ⟨0x40400040, [], 0x0, [⟨0, 2, .wo, 0, 1⟩, ⟨16, 16, .wo, 0, 1⟩]⟩,
  -- TIME_SEQ
  ⟨0x40400044, [], 0x0, [⟨0, 16, .ro, 0, 1⟩, ⟨16, 16, .ro, 0, 1⟩]⟩,
  -- TIME_RES
  ⟨0x40400048, [], 0x0, [⟨0, 4, .ro, 0, 1⟩]⟩,
  -- TIME_PnCFG
  ⟨0x40400050, [(0x4, 2)], 0x1, [⟨0, 1, .cfg, 0, 1⟩, ⟨1, 1, .cfg, 0, 1⟩, ⟨2, 1, .cfg, 0, 1⟩, ⟨4, 3, .cfg, 0, 1⟩]⟩,
  -- TIME_PnASYM
  ⟨0x40400060, [(0x4, 2)], 0x0, [⟨0, 32, .rw, 0, 1⟩]⟩,
  -- TIME_PnPST
  ⟨0x40400070, [(0x4, 2)], 0x1, [⟨0, 4, .ro, 0, 1⟩]⟩]

/-- The registers of block TIME. -/
def regsTime : List RegInfo := regsTime0 ++ regsTime1

def regsAfe0 : List RegInfo := [
  -- AFE_ID
  ⟨0x40500000, [], 0x93040100, [⟨16, 16, .ro, 0, 1⟩, ⟨8, 8, .ro, 0, 1⟩, ⟨0, 8, .ro, 0, 1⟩]⟩,
  -- AFE_STAT
  ⟨0x40500004, [], 0x0, [⟨0, 4, .ro, 0, 1⟩, ⟨8, 4, .w1c, 0, 1⟩, ⟨16, 4, .ro, 0, 1⟩, ⟨24, 1, .ro, 0, 1⟩]⟩,
  -- AFE_CALCFG
  ⟨0x40500008, [], 0xA01, [⟨0, 1, .rw, 0, 1⟩, ⟨8, 12, .rw, 0, 1⟩]⟩,
  -- AFE_GgSTAT
  ⟨0x40500010, [(0x4, 4)], 0x0, [⟨0, 16, .ro, 0, 1⟩, ⟨16, 8, .ro, 0, 1⟩, ⟨24, 8, .ro, 0, 1⟩]⟩,
  -- AFE_CHnCFG
  ⟨0x40500100, [(0x20, 24)], 0x0, [⟨0, 2, .lc, 0, 1⟩]⟩,
  -- AFE_CHnCAL
  ⟨0x40500104, [(0x20, 24)], 0x0, [⟨0, 16, .ro, 0, 1⟩, ⟨16, 4, .ro, 0, 1⟩, ⟨20, 1, .ro, 0, 1⟩, ⟨21, 1, .ro, 0, 1⟩]⟩,
  -- AFE_CHnTRIM
  ⟨0x40500108, [(0x20, 24)], 0x0, [⟨0, 16, .ro, 0, 1⟩, ⟨16, 16, .ro, 0, 1⟩]⟩,
  -- AFE_CHnRAWG
  ⟨0x4050010C, [(0x20, 24)], 0x0, [⟨0, 16, .ro, 0, 1⟩]⟩,
  -- AFE_CHnOVR
  ⟨0x40500110, [(0x20, 24)], 0x0, [⟨0, 16, .ro, 0, 1⟩, ⟨16, 1, .ro, 0, 1⟩]⟩,
  -- AFE_CHnLAST
  ⟨0x40500114, [(0x20, 24)], 0x0, [⟨0, 32, .ro, 0, 1⟩]⟩]

/-- The registers of block AFE. -/
def regsAfe : List RegInfo := regsAfe0

def regsPe0 : List RegInfo := [
  -- PE_ID
  ⟨0x40600000, [], 0x93040100, [⟨16, 16, .ro, 0, 1⟩, ⟨8, 8, .ro, 0, 1⟩, ⟨0, 8, .ro, 0, 1⟩]⟩,
  -- PE_STAT
  ⟨0x40600004, [], 0x0, [⟨0, 1, .ro, 0, 1⟩, ⟨1, 1, .ro, 0, 1⟩, ⟨2, 1, .w1c, 0, 1⟩, ⟨3, 1, .w1c, 0, 1⟩]⟩,
  -- PE_FRAME
  ⟨0x40600008, [], 0x0, [⟨0, 32, .ro, 0, 1⟩]⟩,
  -- PE_SUM
  ⟨0x4060000C, [], 0x0, [⟨0, 14, .ro, 0, 1⟩]⟩,
  -- PE_SLOT
  ⟨0x40600010, [], 0x0, [⟨0, 14, .ro, 0, 1⟩, ⟨16, 14, .ro, 0, 1⟩]⟩,
  -- PE_SKIPCNT
  ⟨0x40600014, [], 0x0, [⟨0, 32, .ro, 0, 1⟩]⟩,
  -- PE_CECNT
  ⟨0x40600018, [], 0x0, [⟨0, 32, .ro, 0, 1⟩]⟩,
  -- PE_UECNT
  ⟨0x4060001C, [], 0x0, [⟨0, 32, .ro, 0, 1⟩]⟩,
  -- PE_FLAGS
  ⟨0x40600020, [], 0x0, [⟨0, 32, .ro, 0, 1⟩]⟩,
  -- PE_LCMD
  ⟨0x40600030, [], 0x0, [⟨0, 2, .wo, 0, 1⟩, ⟨8, 6, .wo, 0, 1⟩, ⟨16, 16, .wo, 0, 1⟩]⟩,
  -- PE_LSEQ
  ⟨0x40600034, [], 0x0, [⟨0, 16, .ro, 0, 1⟩, ⟨16, 16, .ro, 0, 1⟩]⟩,
  -- PE_LRES
  ⟨0x40600038, [], 0x0, [⟨0, 4, .ro, 0, 1⟩, ⟨4, 3, .ro, 0, 1⟩, ⟨16, 15, .ro, 0, 1⟩]⟩]

def regsPe1 : List RegInfo := [
  -- PE_PCMD
  ⟨0x40600040, [], 0x0, [⟨0, 1, .wo, 0, 1⟩, ⟨8, 6, .wo, 0, 1⟩, ⟨16, 16, .wo, 0, 1⟩]⟩,
  -- PE_PSEQ
  ⟨0x40600044, [], 0x0, [⟨0, 16, .ro, 0, 1⟩, ⟨16, 16, .ro, 0, 1⟩]⟩,
  -- PE_PRES
  ⟨0x40600048, [], 0x0, [⟨0, 4, .ro, 0, 1⟩]⟩,
  -- PE_PADDR
  ⟨0x4060004C, [], 0x0, [⟨2, 16, .rw, 0, 1⟩, ⟨20, 4, .rw, 0, 1⟩]⟩,
  -- PE_PDATAi
  ⟨0x40600080, [(0x4, 16)], 0x0, [⟨0, 32, .rw, 0, 1⟩]⟩,
  -- PE_CXnCTL
  ⟨0x40600400, [(0x40, 64)], 0x100, [⟨0, 5, .lc, 0, 1⟩, ⟨5, 2, .lc, 0, 1⟩, ⟨8, 12, .lc, 0, 1⟩, ⟨31, 1, .ro, 0, 1⟩]⟩,
  -- PE_CXnPROG
  ⟨0x40600404, [(0x40, 64)], 0x0, [⟨0, 15, .lc, 0, 1⟩, ⟨16, 15, .lc, 0, 1⟩]⟩,
  -- PE_CXnRANGE
  ⟨0x40600408, [(0x40, 64)], 0x0, [⟨0, 15, .lc, 0, 1⟩, ⟨16, 15, .lc, 0, 1⟩]⟩,
  -- PE_CXnDATA
  ⟨0x4060040C, [(0x40, 64)], 0x0, [⟨0, 10, .lc, 0, 1⟩, ⟨16, 10, .lc, 0, 1⟩, ⟨26, 6, .lc, 0, 1⟩]⟩,
  -- PE_CXnCHM
  ⟨0x40600410, [(0x40, 64)], 0x0, [⟨0, 24, .lc, 0, 1⟩, ⟨24, 8, .lc, 0, 1⟩]⟩,
  -- PE_CXnFLM
  ⟨0x40600414, [(0x40, 64)], 0x0, [⟨0, 32, .lc, 0, 1⟩]⟩,
  -- PE_CXnFBF
  ⟨0x40600418, [(0x40, 64)], 0x0, [⟨0, 32, .lc, 0, 1⟩]⟩]

def regsPe2 : List RegInfo := [
  -- PE_CXnBUD
  ⟨0x4060041C, [(0x40, 64)], 0x0, [⟨0, 14, .lc, 0, 1⟩]⟩,
  -- PE_CXnPCRC
  ⟨0x40600420, [(0x40, 64)], 0x0, [⟨0, 32, .lc, 0, 1⟩]⟩,
  -- PE_CXnSTAT
  ⟨0x40600424, [(0x40, 64)], 0x0, [⟨0, 3, .ro, 0, 1⟩, ⟨3, 1, .ro, 0, 1⟩, ⟨4, 8, .ro, 0, 1⟩, ⟨16, 14, .ro, 0, 1⟩]⟩,
  -- PE_CXnCNT
  ⟨0x40600428, [(0x40, 64)], 0x0, [⟨0, 16, .ro, 0, 1⟩, ⟨16, 16, .ro, 0, 1⟩]⟩,
  -- PE_CXnCUT
  ⟨0x4060042C, [(0x40, 64)], 0x0, [⟨0, 16, .ro, 0, 1⟩, ⟨16, 16, .ro, 0, 1⟩]⟩]

/-- The registers of block PE. -/
def regsPe : List RegInfo := regsPe0 ++ regsPe1 ++ regsPe2

def regsGirth0 : List RegInfo := [
  -- GIRTH_ID
  ⟨0x40700000, [], 0x93040100, [⟨16, 16, .ro, 0, 1⟩, ⟨8, 8, .ro, 0, 1⟩, ⟨0, 8, .ro, 0, 1⟩]⟩,
  -- GIRTH_STAT
  ⟨0x40700004, [], 0x0, [⟨0, 2, .ro, 0, 1⟩, ⟨2, 1, .ro, 0, 1⟩, ⟨3, 1, .ro, 0, 1⟩, ⟨4, 1, .ro, 0, 1⟩, ⟨5, 1, .ro, 0, 1⟩, ⟨8, 4, .ro, 0, 1⟩, ⟨12, 4, .ro, 0, 1⟩, ⟨16, 8, .ro, 0, 1⟩]⟩,
  -- GIRTH_SAFEC
  ⟨0x40700008, [], 0x0, [⟨0, 4, .ro, 0, 1⟩, ⟨8, 8, .ro, 0, 1⟩]⟩,
  -- GIRTH_FAULT
  ⟨0x4070000C, [], 0x0, [⟨0, 4, .w1c, 0, 1⟩, ⟨4, 4, .w1c, 0, 1⟩, ⟨8, 4, .w1c, 0, 1⟩, ⟨12, 4, .w1c, 0, 1⟩, ⟨16, 4, .w1c, 0, 1⟩, ⟨20, 4, .w1c, 0, 1⟩, ⟨24, 1, .w1c, 0, 1⟩, ⟨25, 1, .w1c, 0, 1⟩, ⟨26, 1, .w1c, 0, 1⟩]⟩,
  -- GIRTH_CMD
  ⟨0x40700010, [], 0x0, [⟨0, 3, .wo, 0, 1⟩, ⟨4, 4, .wo, 0, 1⟩, ⟨16, 16, .wo, 0, 1⟩]⟩,
  -- GIRTH_SEQ
  ⟨0x40700014, [], 0x0, [⟨0, 16, .ro, 0, 1⟩, ⟨16, 16, .ro, 0, 1⟩]⟩,
  -- GIRTH_RES
  ⟨0x40700018, [], 0x0, [⟨0, 4, .ro, 0, 1⟩, ⟨16, 6, .ro, 0, 1⟩]⟩,
  -- GIRTH_PIDX
  ⟨0x40700020, [], 0x0, [⟨0, 6, .rw, 0, 1⟩]⟩,
  -- GIRTH_PDATA
  ⟨0x40700024, [], 0x0, [⟨0, 32, .rw, 0, 1⟩]⟩,
  -- GIRTH_PCRC
  ⟨0x40700028, [], 0x0, [⟨0, 32, .ro, 0, 1⟩]⟩,
  -- GIRTH_FCRC
  ⟨0x4070002C, [], 0x0, [⟨0, 32, .ro, 0, 1⟩]⟩,
  -- GIRTH_WDCHAL
  ⟨0x40700030, [], 0x1, [⟨0, 32, .ro, 0, 1⟩]⟩]

def regsGirth1 : List RegInfo := [
  -- GIRTH_WDRESP
  ⟨0x40700034, [], 0x0, [⟨0, 32, .wo, 0, 1⟩]⟩,
  -- GIRTH_WDLAST
  ⟨0x40700038, [], 0x0, [⟨0, 14, .ro, 0, 1⟩]⟩,
  -- GIRTH_SIN
  ⟨0x40700040, [], 0x0, [⟨0, 1, .ro, 8, 4⟩, ⟨1, 1, .ro, 8, 4⟩, ⟨2, 1, .ro, 8, 4⟩, ⟨3, 1, .ro, 8, 4⟩, ⟨4, 1, .ro, 8, 4⟩, ⟨5, 1, .ro, 8, 4⟩]⟩,
  -- GIRTH_SOUT
  ⟨0x40700044, [], 0x0, [⟨0, 1, .ro, 8, 4⟩, ⟨1, 1, .ro, 8, 4⟩, ⟨2, 1, .ro, 8, 4⟩, ⟨3, 1, .ro, 8, 4⟩, ⟨4, 1, .ro, 8, 4⟩]⟩,
  -- GIRTH_TOUT
  ⟨0x40700048, [], 0x0, [⟨0, 1, .ro, 8, 4⟩, ⟨1, 1, .ro, 8, 4⟩, ⟨2, 1, .ro, 8, 4⟩, ⟨3, 1, .ro, 8, 4⟩, ⟨4, 1, .ro, 8, 4⟩, ⟨5, 1, .ro, 8, 4⟩, ⟨6, 1, .ro, 8, 4⟩]⟩,
  -- GIRTH_TCS
  ⟨0x4070004C, [], 0x0, [⟨0, 3, .ro, 8, 4⟩, ⟨3, 1, .ro, 8, 4⟩]⟩,
  -- GIRTH_INST
  ⟨0x40700050, [], 0x0, [⟨0, 8, .ro, 0, 1⟩, ⟨8, 8, .ro, 0, 1⟩, ⟨16, 8, .ro, 0, 1⟩, ⟨24, 8, .ro, 0, 1⟩]⟩,
  -- GIRTH_PEFLAGS
  ⟨0x40700054, [], 0x0, [⟨0, 32, .ro, 0, 1⟩]⟩,
  -- GIRTH_RAWERR
  ⟨0x40700058, [], 0x0, [⟨0, 32, .ro, 0, 1⟩]⟩]

/-- The registers of block GIRTH. -/
def regsGirth : List RegInfo := regsGirth0 ++ regsGirth1

def regsFio0 : List RegInfo := [
  -- FIO_ID
  ⟨0x40800000, [], 0x93040100, [⟨16, 16, .ro, 0, 1⟩, ⟨8, 8, .ro, 0, 1⟩, ⟨0, 8, .ro, 0, 1⟩]⟩,
  -- FIO_STAT
  ⟨0x40800004, [], 0x0, [⟨0, 2, .ro, 0, 1⟩, ⟨2, 2, .ro, 0, 1⟩, ⟨8, 4, .ro, 0, 1⟩]⟩,
  -- FIO_GCFG
  ⟨0x40800008, [], 0x0, [⟨0, 2, .cfg, 0, 1⟩, ⟨2, 1, .cfg, 0, 1⟩, ⟨4, 2, .cfg, 0, 1⟩, ⟨6, 1, .cfg, 0, 1⟩, ⟨8, 2, .cfg, 0, 1⟩, ⟨10, 1, .cfg, 0, 1⟩]⟩,
  -- FIO_IN
  ⟨0x40800010, [], 0x0, [⟨0, 24, .ro, 0, 1⟩]⟩,
  -- FIO_WB
  ⟨0x40800014, [], 0x0, [⟨0, 24, .ro, 0, 1⟩]⟩,
  -- FIO_INnCFG
  ⟨0x40800020, [(0x4, 24)], 0x4, [⟨0, 3, .cfg, 0, 1⟩, ⟨3, 1, .cfg, 0, 1⟩, ⟨4, 2, .cfg, 0, 1⟩]⟩,
  -- FIO_OUT
  ⟨0x40800080, [], 0x0, [⟨0, 16, .ro, 0, 1⟩, ⟨16, 16, .ro, 0, 1⟩]⟩,
  -- FIO_CMD
  ⟨0x408000C0, [], 0x0, [⟨0, 2, .wo, 0, 1⟩, ⟨4, 5, .wo, 0, 1⟩, ⟨16, 16, .wo, 0, 1⟩]⟩,
  -- FIO_SEQ
  ⟨0x408000C4, [], 0x0, [⟨0, 16, .ro, 0, 1⟩, ⟨16, 16, .ro, 0, 1⟩]⟩,
  -- FIO_RES
  ⟨0x408000C8, [], 0x0, [⟨0, 4, .ro, 0, 1⟩]⟩,
  -- FIO_FS1
  ⟨0x408000D0, [], 0x0, [⟨0, 16, .ro, 0, 1⟩, ⟨16, 1, .ro, 0, 1⟩]⟩,
  -- FIO_FS2
  ⟨0x408000D4, [], 0x0, [⟨0, 16, .ro, 0, 1⟩, ⟨16, 1, .ro, 0, 1⟩]⟩]

def regsFio1 : List RegInfo := [
  -- FIO_CNTc
  ⟨0x408000E0, [(0x4, 4)], 0x0, [⟨0, 32, .ro, 0, 1⟩]⟩,
  -- FIO_OnSTAT
  ⟨0x40800100, [(0x4, 16)], 0x0, [⟨0, 1, .ro, 0, 1⟩, ⟨1, 1, .ro, 0, 1⟩, ⟨2, 1, .ro, 0, 1⟩, ⟨3, 1, .ro, 0, 1⟩, ⟨4, 1, .ro, 0, 1⟩, ⟨5, 1, .ro, 0, 1⟩, ⟨6, 1, .ro, 0, 1⟩, ⟨7, 1, .ro, 0, 1⟩, ⟨16, 16, .ro, 0, 1⟩]⟩,
  -- FIO_OnCFG
  ⟨0x40800140, [(0x4, 16)], 0xE100, [⟨0, 1, .cfg, 0, 1⟩, ⟨1, 1, .cfg, 0, 1⟩, ⟨2, 1, .cfg, 0, 1⟩, ⟨4, 12, .cfg, 0, 1⟩]⟩]

/-- The registers of block FIO. -/
def regsFio : List RegInfo := regsFio0 ++ regsFio1

def regsAlp0 : List RegInfo := [
  -- ALP_ID
  ⟨0x40900000, [], 0x93040100, [⟨16, 16, .ro, 0, 1⟩, ⟨8, 8, .ro, 0, 1⟩, ⟨0, 8, .ro, 0, 1⟩]⟩,
  -- ALP_STAT
  ⟨0x40900004, [], 0x0, [⟨0, 8, .ro, 0, 1⟩, ⟨8, 1, .w1c, 0, 1⟩, ⟨12, 2, .ro, 0, 1⟩]⟩,
  -- ALP_JMP
  ⟨0x40900008, [], 0x0, [⟨0, 2, .ro, 2, 8⟩]⟩,
  -- ALP_KEYS
  ⟨0x4090000C, [], 0xF0, [⟨0, 1, .ro, 0, 1⟩, ⟨1, 1, .ro, 0, 1⟩, ⟨2, 1, .ro, 0, 1⟩, ⟨4, 4, .ro, 0, 1⟩]⟩,
  -- ALP_CMD
  ⟨0x40900010, [], 0x0, [⟨0, 2, .wo, 0, 1⟩, ⟨4, 3, .wo, 0, 1⟩, ⟨16, 16, .wo, 0, 1⟩]⟩,
  -- ALP_SEQ
  ⟨0x40900014, [], 0x0, [⟨0, 16, .ro, 0, 1⟩, ⟨16, 16, .ro, 0, 1⟩]⟩,
  -- ALP_RES
  ⟨0x40900018, [], 0x0, [⟨0, 4, .ro, 0, 1⟩]⟩,
  -- ALP_CHnCFG
  ⟨0x40900100, [(0x20, 8)], 0x0, [⟨0, 2, .cfg, 0, 1⟩, ⟨2, 1, .cfg, 0, 1⟩, ⟨3, 1, .cfg, 0, 1⟩, ⟨4, 1, .cfg, 0, 1⟩, ⟨5, 1, .cfg, 0, 1⟩, ⟨6, 2, .cfg, 0, 1⟩, ⟨8, 2, .cfg, 0, 1⟩, ⟨10, 1, .cfg, 0, 1⟩, ⟨11, 2, .cfg, 0, 1⟩, ⟨16, 16, .cfg, 0, 1⟩]⟩,
  -- ALP_CHnVAL
  ⟨0x40900104, [(0x20, 8)], 0x0, [⟨0, 32, .ro, 0, 1⟩]⟩,
  -- ALP_CHnHEAD
  ⟨0x40900108, [(0x20, 8)], 0x0, [⟨0, 16, .ro, 0, 1⟩]⟩,
  -- ALP_CHnSTAT
  ⟨0x4090010C, [(0x20, 8)], 0x0, [⟨0, 3, .ro, 0, 1⟩, ⟨3, 1, .ro, 0, 1⟩, ⟨4, 1, .ro, 0, 1⟩, ⟨5, 1, .ro, 0, 1⟩, ⟨6, 1, .ro, 0, 1⟩, ⟨7, 1, .ro, 0, 1⟩, ⟨8, 1, .ro, 0, 1⟩]⟩,
  -- ALP_CHnTRIM
  ⟨0x40900110, [(0x20, 8)], 0x0, [⟨0, 16, .ro, 0, 1⟩, ⟨16, 16, .ro, 0, 1⟩]⟩]

def regsAlp1 : List RegInfo := [
  -- ALP_HnCTL
  ⟨0x40900114, [(0x20, 8)], 0x0, [⟨0, 9, .wo, 0, 1⟩, ⟨12, 1, .wo, 0, 1⟩, ⟨16, 16, .wo, 0, 1⟩]⟩,
  -- ALP_HnSEQ
  ⟨0x40900118, [(0x20, 8)], 0x0, [⟨0, 16, .ro, 0, 1⟩, ⟨16, 16, .ro, 0, 1⟩]⟩,
  -- ALP_HnRES
  ⟨0x4090011C, [(0x20, 8)], 0x0, [⟨0, 4, .ro, 0, 1⟩, ⟨8, 8, .ro, 0, 1⟩, ⟨16, 9, .ro, 0, 1⟩]⟩,
  -- ALP_HnBUFi
  ⟨0x40901000, [(0x200, 8), (0x4, 68)], 0x0, [⟨0, 32, .rw, 0, 1⟩]⟩]

/-- The registers of block ALP. -/
def regsAlp : List RegInfo := regsAlp0 ++ regsAlp1

def regsNet0 : List RegInfo := [
  -- NET_ID
  ⟨0x40A00000, [], 0x93040100, [⟨16, 16, .ro, 0, 1⟩, ⟨8, 8, .ro, 0, 1⟩, ⟨0, 8, .ro, 0, 1⟩]⟩,
  -- NET_STAT
  ⟨0x40A00004, [], 0x0, [⟨0, 3, .ro, 0, 1⟩, ⟨4, 6, .ro, 0, 1⟩, ⟨16, 1, .ro, 0, 1⟩, ⟨17, 2, .ro, 0, 1⟩, ⟨24, 1, .ro, 0, 1⟩]⟩,
  -- NET_ETBTOPO
  ⟨0x40A00008, [], 0x0, [⟨0, 32, .rw, 0, 1⟩]⟩,
  -- NET_OPTOPO
  ⟨0x40A0000C, [], 0x0, [⟨0, 32, .rw, 0, 1⟩]⟩,
  -- NET_PnCFG
  ⟨0x40A00010, [(0x4, 3)], 0x2, [⟨0, 2, .cfg, 0, 1⟩, ⟨4, 12, .cfg, 0, 1⟩, ⟨16, 3, .cfg, 0, 1⟩, ⟨24, 5, .cfg, 0, 1⟩]⟩,
  -- NET_PnSTAT
  ⟨0x40A00020, [(0x4, 3)], 0x0, [⟨0, 16, .ro, 0, 1⟩, ⟨16, 16, .ro, 0, 1⟩]⟩,
  -- NET_PnIP
  ⟨0x40A00030, [(0x4, 3)], 0x0, [⟨0, 32, .cfg, 0, 1⟩]⟩,
  -- NET_CMD
  ⟨0x40A00040, [], 0x0, [⟨0, 2, .wo, 0, 1⟩, ⟨8, 8, .wo, 0, 1⟩, ⟨16, 16, .wo, 0, 1⟩]⟩,
  -- NET_SEQ
  ⟨0x40A00044, [], 0x0, [⟨0, 16, .ro, 0, 1⟩, ⟨16, 16, .ro, 0, 1⟩]⟩,
  -- NET_RES
  ⟨0x40A00048, [], 0x0, [⟨0, 4, .ro, 0, 1⟩]⟩,
  -- NET_RXCFG
  ⟨0x40A00050, [], 0x0, [⟨0, 10, .cfg, 0, 1⟩, ⟨12, 10, .cfg, 0, 1⟩, ⟨24, 5, .cfg, 0, 1⟩, ⟨31, 1, .cfg, 0, 1⟩]⟩,
  -- NET_RXPTR
  ⟨0x40A00054, [], 0x0, [⟨0, 10, .ro, 0, 1⟩, ⟨16, 10, .rw, 0, 1⟩]⟩]

def regsNet1 : List RegInfo := [
  -- NET_TXCFG
  ⟨0x40A00058, [], 0x0, [⟨0, 10, .cfg, 0, 1⟩, ⟨12, 10, .cfg, 0, 1⟩, ⟨24, 5, .cfg, 0, 1⟩, ⟨31, 1, .cfg, 0, 1⟩]⟩,
  -- NET_TXPTR
  ⟨0x40A0005C, [], 0x0, [⟨0, 10, .rw, 0, 1⟩, ⟨16, 10, .ro, 0, 1⟩]⟩,
  -- NET_FSEL
  ⟨0x40A00100, [], 0x0, [⟨0, 8, .rw, 0, 1⟩]⟩,
  -- NET_FD0
  ⟨0x40A00104, [], 0x0, [⟨0, 1, .cfg, 0, 1⟩, ⟨1, 2, .cfg, 0, 1⟩, ⟨4, 3, .cfg, 0, 1⟩, ⟨8, 3, .cfg, 0, 1⟩, ⟨16, 5, .cfg, 0, 1⟩, ⟨24, 1, .cfg, 0, 1⟩, ⟨25, 1, .cfg, 0, 1⟩, ⟨26, 1, .cfg, 0, 1⟩, ⟨31, 1, .cfg, 0, 1⟩]⟩,
  -- NET_FD1
  ⟨0x40A00108, [], 0x0, [⟨0, 32, .cfg, 0, 1⟩]⟩,
  -- NET_FD2
  ⟨0x40A0010C, [], 0x0, [⟨0, 32, .cfg, 0, 1⟩]⟩,
  -- NET_FD3
  ⟨0x40A00110, [], 0x0, [⟨0, 12, .cfg, 0, 1⟩, ⟨16, 11, .cfg, 0, 1⟩]⟩,
  -- NET_FD4
  ⟨0x40A00114, [], 0x1, [⟨0, 14, .cfg, 0, 1⟩, ⟨16, 14, .cfg, 0, 1⟩]⟩,
  -- NET_FD5
  ⟨0x40A00118, [], 0x0, [⟨0, 16, .cfg, 0, 1⟩, ⟨16, 16, .cfg, 0, 1⟩]⟩,
  -- NET_FD6
  ⟨0x40A0011C, [], 0x0, [⟨0, 32, .cfg, 0, 1⟩]⟩,
  -- NET_FD7
  ⟨0x40A00120, [], 0x0, [⟨0, 32, .cfg, 0, 1⟩]⟩,
  -- NET_FD8
  ⟨0x40A00124, [], 0x1010001, [⟨0, 16, .cfg, 0, 1⟩, ⟨16, 8, .cfg, 0, 1⟩, ⟨24, 8, .cfg, 0, 1⟩]⟩]

def regsNet2 : List RegInfo := [
  -- NET_FD9
  ⟨0x40A00128, [], 0x0, [⟨2, 20, .cfg, 0, 1⟩]⟩,
  -- NET_FSTAT
  ⟨0x40A00130, [], 0x1, [⟨0, 1, .ro, 0, 1⟩, ⟨1, 1, .ro, 0, 1⟩, ⟨2, 1, .ro, 0, 1⟩, ⟨4, 3, .ro, 0, 1⟩, ⟨8, 8, .ro, 0, 1⟩]⟩,
  -- NET_FLAST
  ⟨0x40A00134, [], 0x0, [⟨0, 32, .ro, 0, 1⟩]⟩,
  -- NET_FCNT
  ⟨0x40A00138, [], 0x0, [⟨0, 8, .ro, 0, 1⟩, ⟨8, 8, .ro, 0, 1⟩, ⟨16, 8, .ro, 0, 1⟩, ⟨24, 8, .ro, 0, 1⟩]⟩]

/-- The registers of block NET. -/
def regsNet : List RegInfo := regsNet0 ++ regsNet1 ++ regsNet2

def regsOct0 : List RegInfo := [
  -- OCT_ID
  ⟨0x40B00000, [], 0x93040100, [⟨16, 16, .ro, 0, 1⟩, ⟨8, 8, .ro, 0, 1⟩, ⟨0, 8, .ro, 0, 1⟩]⟩,
  -- OCT_STAT
  ⟨0x40B00004, [], 0x0, [⟨0, 2, .ro, 0, 1⟩, ⟨2, 3, .ro, 0, 1⟩, ⟨8, 7, .ro, 0, 1⟩, ⟨16, 1, .ro, 0, 1⟩, ⟨17, 1, .ro, 0, 1⟩]⟩,
  -- OCT_CFG
  ⟨0x40B00008, [], 0xFA0000, [⟨0, 7, .cfg, 0, 1⟩, ⟨8, 1, .cfg, 0, 1⟩, ⟨9, 1, .cfg, 0, 1⟩, ⟨10, 1, .cfg, 0, 1⟩, ⟨12, 2, .cfg, 0, 1⟩, ⟨16, 8, .cfg, 0, 1⟩, ⟨24, 4, .cfg, 0, 1⟩]⟩,
  -- OCT_SCHID
  ⟨0x40B0000C, [], 0x0, [⟨0, 32, .cfg, 0, 1⟩]⟩,
  -- OCT_CMD
  ⟨0x40B00010, [], 0x0, [⟨0, 2, .wo, 0, 1⟩, ⟨8, 7, .wo, 0, 1⟩, ⟨16, 16, .wo, 0, 1⟩]⟩,
  -- OCT_SEQ
  ⟨0x40B00014, [], 0x0, [⟨0, 16, .ro, 0, 1⟩, ⟨16, 16, .ro, 0, 1⟩]⟩,
  -- OCT_RES
  ⟨0x40B00018, [], 0x0, [⟨0, 4, .ro, 0, 1⟩]⟩,
  -- OCT_TST_LO
  ⟨0x40B00020, [], 0x0, [⟨0, 32, .rs, 0, 1⟩]⟩,
  -- OCT_TST_HI
  ⟨0x40B00024, [], 0x0, [⟨0, 32, .ro, 0, 1⟩]⟩,
  -- OCT_MCNT
  ⟨0x40B00028, [], 0x0, [⟨0, 10, .ro, 0, 1⟩, ⟨16, 16, .ro, 0, 1⟩]⟩,
  -- OCT_CHnCNT
  ⟨0x40B00030, [(0x4, 2)], 0x0, [⟨0, 8, .ro, 0, 1⟩, ⟨8, 8, .ro, 0, 1⟩, ⟨16, 8, .ro, 0, 1⟩, ⟨24, 8, .ro, 0, 1⟩]⟩,
  -- OCT_OWN
  ⟨0x40B00038, [], 0xFFFF, [⟨0, 4, .ro, 0, 1⟩, ⟨4, 12, .ro, 0, 1⟩, ⟨16, 16, .ro, 0, 1⟩]⟩]

def regsOct1 : List RegInfo := [
  -- OCT_ESEL
  ⟨0x40B00040, [], 0x0, [⟨0, 12, .rw, 0, 1⟩]⟩,
  -- OCT_ED0
  ⟨0x40B00044, [], 0x0, [⟨0, 16, .cfg, 0, 1⟩, ⟨16, 1, .cfg, 0, 1⟩, ⟨17, 3, .cfg, 0, 1⟩, ⟨20, 4, .cfg, 0, 1⟩, ⟨31, 1, .cfg, 0, 1⟩]⟩,
  -- OCT_ED1
  ⟨0x40B00048, [], 0x0, [⟨0, 10, .cfg, 0, 1⟩, ⟨10, 7, .cfg, 0, 1⟩, ⟨17, 7, .cfg, 0, 1⟩]⟩,
  -- OCT_ED2
  ⟨0x40B0004C, [], 0x0, [⟨0, 12, .cfg, 0, 1⟩, ⟨16, 7, .ro, 0, 1⟩, ⟨31, 1, .ro, 0, 1⟩]⟩,
  -- OCT_PSEL
  ⟨0x40B00050, [], 0x0, [⟨0, 9, .rw, 0, 1⟩]⟩,
  -- OCT_PCFG
  ⟨0x40B00054, [], 0x200000, [⟨0, 12, .cfg, 0, 1⟩, ⟨12, 1, .cfg, 0, 1⟩, ⟨13, 7, .cfg, 0, 1⟩, ⟨20, 8, .cfg, 0, 1⟩, ⟨31, 1, .cfg, 0, 1⟩]⟩,
  -- OCT_PSTAT
  ⟨0x40B00058, [], 0x3, [⟨0, 1, .ro, 0, 1⟩, ⟨1, 1, .ro, 0, 1⟩, ⟨8, 8, .ro, 0, 1⟩, ⟨16, 16, .ro, 0, 1⟩]⟩,
  -- OCT_NSEL
  ⟨0x40B00060, [], 0x1, [⟨0, 7, .rw, 0, 1⟩]⟩,
  -- OCT_NSTAT
  ⟨0x40B00064, [], 0x3FFC, [⟨0, 1, .ro, 0, 1⟩, ⟨1, 1, .ro, 0, 1⟩, ⟨2, 12, .ro, 0, 1⟩, ⟨14, 4, .ro, 0, 1⟩, ⟨18, 8, .ro, 0, 1⟩, ⟨26, 6, .ro, 0, 1⟩]⟩]

/-- The registers of block OCT. -/
def regsOct : List RegInfo := regsOct0 ++ regsOct1

def regsBrg0 : List RegInfo := [
  -- BRG_ID
  ⟨0x40C00000, [], 0x93040100, [⟨16, 16, .ro, 0, 1⟩, ⟨8, 8, .ro, 0, 1⟩, ⟨0, 8, .ro, 0, 1⟩]⟩,
  -- BRG_STAT
  ⟨0x40C00004, [], 0x0, [⟨0, 1, .ro, 0, 1⟩, ⟨1, 2, .ro, 0, 1⟩, ⟨3, 3, .ro, 0, 1⟩]⟩,
  -- BRG_CFG
  ⟨0x40C00008, [], 0x147D064, [⟨0, 10, .cfg, 0, 1⟩, ⟨10, 10, .cfg, 0, 1⟩, ⟨20, 8, .cfg, 0, 1⟩]⟩,
  -- BRG_CMD
  ⟨0x40C0000C, [], 0x0, [⟨0, 3, .wo, 0, 1⟩, ⟨4, 4, .wo, 0, 1⟩, ⟨16, 16, .wo, 0, 1⟩]⟩,
  -- BRG_SEQ
  ⟨0x40C00010, [], 0x0, [⟨0, 16, .ro, 0, 1⟩, ⟨16, 16, .ro, 0, 1⟩]⟩,
  -- BRG_RES
  ⟨0x40C00014, [], 0x0, [⟨0, 4, .ro, 0, 1⟩]⟩,
  -- BRG_CFGADDR
  ⟨0x40C00018, [], 0x0, [⟨2, 10, .rw, 0, 1⟩, ⟨12, 3, .rw, 0, 1⟩, ⟨15, 5, .rw, 0, 1⟩, ⟨20, 8, .rw, 0, 1⟩]⟩,
  -- BRG_CFGDATA
  ⟨0x40C0001C, [], 0x0, [⟨0, 32, .rw, 0, 1⟩]⟩,
  -- BRG_WEFADDR
  ⟨0x40C00020, [], 0x0, [⟨0, 32, .ro, 0, 1⟩]⟩,
  -- BRG_WEFINFO
  ⟨0x40C00024, [], 0x0, [⟨0, 24, .rs, 0, 1⟩, ⟨24, 3, .rs, 0, 1⟩, ⟨27, 2, .rs, 0, 1⟩, ⟨29, 1, .rs, 0, 1⟩, ⟨31, 1, .rs, 0, 1⟩]⟩,
  -- BRG_WEFSTAT
  ⟨0x40C00028, [], 0x0, [⟨0, 6, .ro, 0, 1⟩, ⟨8, 5, .ro, 0, 1⟩, ⟨16, 1, .w1c, 0, 1⟩, ⟨24, 8, .ro, 0, 1⟩]⟩,
  -- BRG_PWSEL
  ⟨0x40C00030, [], 0x0, [⟨0, 5, .rw, 0, 1⟩]⟩]

def regsBrg1 : List RegInfo := [
  -- BRG_PWSTAT
  ⟨0x40C00034, [], 0xFFFFFF, [⟨0, 24, .ro, 0, 1⟩]⟩,
  -- BRG_PWTRK
  ⟨0x40C00038, [], 0xFFFFFF, [⟨0, 24, .ro, 0, 1⟩, ⟨24, 8, .ro, 0, 1⟩]⟩,
  -- BRG_PWFAIL
  ⟨0x40C0003C, [], 0x0, [⟨0, 32, .ro, 0, 1⟩]⟩,
  -- BRG_PFLADDR
  ⟨0x40C00040, [], 0x0, [⟨0, 32, .ro, 0, 1⟩]⟩,
  -- BRG_PFLINFO
  ⟨0x40C00044, [], 0x0, [⟨0, 5, .rs, 0, 1⟩, ⟨8, 5, .rs, 0, 1⟩, ⟨16, 3, .rs, 0, 1⟩, ⟨31, 1, .rs, 0, 1⟩]⟩,
  -- BRG_PFLSTAT
  ⟨0x40C00048, [], 0x0, [⟨0, 5, .ro, 0, 1⟩, ⟨16, 16, .w1c, 0, 1⟩]⟩,
  -- BRG_MSIPEND
  ⟨0x40C00050, [], 0x0, [⟨0, 32, .w1c, 0, 1⟩]⟩,
  -- BRG_MSIEN
  ⟨0x40C00054, [], 0x0, [⟨0, 32, .rw, 0, 1⟩]⟩,
  -- BRG_LATE
  ⟨0x40C00058, [], 0x0, [⟨0, 16, .ro, 0, 1⟩, ⟨16, 16, .ro, 0, 1⟩]⟩,
  -- BRG_SBCFG
  ⟨0x40C00060, [], 0x0, [⟨0, 8, .cfg, 0, 1⟩, ⟨8, 8, .cfg, 0, 1⟩, ⟨16, 8, .cfg, 0, 1⟩, ⟨24, 8, .cfg, 0, 1⟩]⟩,
  -- BRG_SBIN
  ⟨0x40C00064, [], 0x0, [⟨0, 8, .ro, 0, 1⟩, ⟨8, 8, .w1c, 0, 1⟩]⟩,
  -- BRG_SBOUT
  ⟨0x40C00068, [], 0x0, [⟨0, 8, .rw, 0, 1⟩]⟩]

def regsBrg2 : List RegInfo := [
  -- BRG_CRSEL
  ⟨0x40C00070, [], 0x0, [⟨0, 5, .rw, 0, 1⟩]⟩,
  -- BRG_CRDAT
  ⟨0x40C00074, [], 0x0, [⟨0, 6, .cfg, 0, 1⟩, ⟨8, 5, .cfg, 0, 1⟩]⟩,
  -- BRG_SSEL
  ⟨0x40C00080, [], 0x0, [⟨0, 8, .rw, 0, 1⟩]⟩,
  -- BRG_SD0
  ⟨0x40C00084, [], 0x0, [⟨0, 12, .cfg, 0, 1⟩, ⟨12, 7, .cfg, 0, 1⟩, ⟨19, 7, .cfg, 0, 1⟩, ⟨31, 1, .cfg, 0, 1⟩]⟩,
  -- BRG_SD1
  ⟨0x40C00088, [], 0x0, [⟨2, 30, .cfg, 0, 1⟩]⟩,
  -- BRG_SD2
  ⟨0x40C0008C, [], 0x0, [⟨2, 30, .cfg, 0, 1⟩]⟩,
  -- BRG_SD3
  ⟨0x40C00090, [], 0x1, [⟨0, 14, .cfg, 0, 1⟩, ⟨14, 14, .cfg, 0, 1⟩]⟩,
  -- BRG_SD4
  ⟨0x40C00094, [], 0x105, [⟨0, 7, .cfg, 0, 1⟩, ⟨8, 16, .cfg, 0, 1⟩]⟩,
  -- BRG_SSTAT
  ⟨0x40C00098, [], 0x3, [⟨0, 1, .ro, 0, 1⟩, ⟨1, 1, .ro, 0, 1⟩, ⟨8, 8, .ro, 0, 1⟩, ⟨16, 16, .ro, 0, 1⟩]⟩,
  -- BRG_RCOUNT
  ⟨0x40C000A0, [], 0x0, [⟨0, 15, .cfg, 0, 1⟩]⟩,
  -- BRG_RSEL
  ⟨0x40C000A4, [], 0x0, [⟨0, 14, .rw, 0, 1⟩]⟩,
  -- BRG_RD0
  ⟨0x40C000A8, [], 0x0, [⟨0, 32, .cfg, 0, 1⟩]⟩]

def regsBrg3 : List RegInfo := [
  -- BRG_RD1
  ⟨0x40C000AC, [], 0x0, [⟨0, 32, .cfg, 0, 1⟩]⟩,
  -- BRG_RD2
  ⟨0x40C000B0, [], 0x0, [⟨0, 32, .cfg, 0, 1⟩]⟩,
  -- BRG_WnCTL
  ⟨0x40C00100, [(0x10, 16)], 0x0, [⟨0, 1, .cfg, 0, 1⟩, ⟨1, 1, .cfg, 0, 1⟩, ⟨2, 1, .cfg, 0, 1⟩, ⟨3, 1, .cfg, 0, 1⟩, ⟨4, 1, .cfg, 0, 1⟩, ⟨8, 5, .cfg, 0, 1⟩, ⟨16, 5, .cfg, 0, 1⟩]⟩,
  -- BRG_WnBASE
  ⟨0x40C00104, [(0x10, 16)], 0x0, [⟨0, 16, .cfg, 0, 1⟩]⟩,
  -- BRG_WnTGT
  ⟨0x40C00108, [(0x10, 16)], 0x0, [⟨0, 16, .cfg, 0, 1⟩]⟩,
  -- BRG_WnSTAT
  ⟨0x40C0010C, [(0x10, 16)], 0x0, [⟨0, 1, .ro, 0, 1⟩, ⟨8, 8, .ro, 0, 1⟩, ⟨16, 16, .ro, 0, 1⟩]⟩]

/-- The registers of block BRG. -/
def regsBrg : List RegInfo := regsBrg0 ++ regsBrg1 ++ regsBrg2 ++ regsBrg3

def regsPair0 : List RegInfo := [
  -- PAIR_ID
  ⟨0x40D00000, [], 0x93040100, [⟨16, 16, .ro, 0, 1⟩, ⟨8, 8, .ro, 0, 1⟩, ⟨0, 8, .ro, 0, 1⟩]⟩,
  -- PAIR_STAT
  ⟨0x40D00004, [], 0x0, [⟨0, 2, .ro, 0, 1⟩, ⟨2, 1, .ro, 0, 1⟩, ⟨3, 1, .ro, 0, 1⟩, ⟨4, 1, .ro, 0, 1⟩, ⟨5, 1, .ro, 0, 1⟩, ⟨6, 1, .ro, 0, 1⟩, ⟨8, 3, .ro, 0, 1⟩, ⟨16, 5, .ro, 0, 1⟩, ⟨24, 5, .ro, 0, 1⟩]⟩,
  -- PAIR_CFG
  ⟨0x40D00008, [], 0x3020, [⟨0, 2, .lc, 0, 1⟩, ⟨2, 10, .lc, 0, 1⟩, ⟨12, 4, .lc, 0, 1⟩]⟩,
  -- PAIR_PSER
  ⟨0x40D0000C, [], 0x0, [⟨0, 32, .lc, 0, 1⟩]⟩,
  -- PAIR_CMD
  ⟨0x40D00010, [], 0x0, [⟨0, 2, .wo, 0, 1⟩, ⟨16, 16, .wo, 0, 1⟩]⟩,
  -- PAIR_SEQ
  ⟨0x40D00014, [], 0x0, [⟨0, 16, .ro, 0, 1⟩, ⟨16, 16, .ro, 0, 1⟩]⟩,
  -- PAIR_RES
  ⟨0x40D00018, [], 0x0, [⟨0, 4, .ro, 0, 1⟩, ⟨8, 4, .ro, 0, 1⟩]⟩,
  -- PAIR_PSN
  ⟨0x40D00020, [], 0x0, [⟨0, 32, .ro, 0, 1⟩]⟩,
  -- PAIR_PPSN
  ⟨0x40D00024, [], 0x0, [⟨0, 32, .ro, 0, 1⟩]⟩,
  -- PAIR_OFFS
  ⟨0x40D00028, [], 0x0, [⟨0, 18, .ro, 0, 1⟩, ⟨31, 1, .ro, 0, 1⟩]⟩,
  -- PAIR_DTICK
  ⟨0x40D0002C, [], 0x0, [⟨0, 32, .ro, 0, 1⟩]⟩,
  -- PAIR_MISS
  ⟨0x40D00030, [], 0x0, [⟨0, 8, .ro, 0, 1⟩, ⟨8, 8, .ro, 0, 1⟩, ⟨16, 8, .ro, 0, 1⟩]⟩]

def regsPair1 : List RegInfo := [
  -- PAIR_DIV
  ⟨0x40D00034, [], 0x0, [⟨0, 16, .ro, 0, 1⟩, ⟨16, 4, .ro, 0, 1⟩, ⟨24, 8, .ro, 0, 1⟩]⟩,
  -- PAIR_LASTSW
  ⟨0x40D00038, [], 0x0, [⟨0, 20, .ro, 0, 1⟩, ⟨20, 4, .ro, 0, 1⟩, ⟨24, 1, .ro, 0, 1⟩]⟩,
  -- PAIR_HBCOM
  ⟨0x40D00040, [], 0x0, [⟨0, 32, .cfg, 0, 1⟩]⟩,
  -- PAIR_PIPA
  ⟨0x40D00044, [], 0x0, [⟨0, 32, .cfg, 0, 1⟩]⟩,
  -- PAIR_PIPB
  ⟨0x40D00048, [], 0x0, [⟨0, 32, .cfg, 0, 1⟩]⟩,
  -- PAIR_RrCFG
  ⟨0x40D00080, [(0x4, 16)], 0x0, [⟨0, 5, .cfg, 0, 1⟩, ⟨8, 4, .cfg, 0, 1⟩, ⟨31, 1, .cfg, 0, 1⟩]⟩]

/-- The registers of block PAIR. -/
def regsPair : List RegInfo := regsPair0 ++ regsPair1

def regsRec0 : List RegInfo := [
  -- REC_ID
  ⟨0x40E00000, [], 0x93040100, [⟨16, 16, .ro, 0, 1⟩, ⟨8, 8, .ro, 0, 1⟩, ⟨0, 8, .ro, 0, 1⟩]⟩,
  -- REC_STAT
  ⟨0x40E00004, [], 0x0, [⟨0, 1, .ro, 0, 1⟩, ⟨1, 3, .ro, 0, 1⟩, ⟨4, 1, .w1c, 0, 1⟩, ⟨5, 1, .w1c, 0, 1⟩, ⟨6, 1, .ro, 0, 1⟩, ⟨8, 3, .ro, 0, 1⟩, ⟨16, 9, .ro, 0, 1⟩]⟩,
  -- REC_CFG
  ⟨0x40E00008, [], 0x4, [⟨0, 1, .cfg, 0, 1⟩, ⟨1, 1, .cfg, 0, 1⟩, ⟨2, 1, .cfg, 0, 1⟩]⟩,
  -- REC_CMD
  ⟨0x40E0000C, [], 0x0, [⟨0, 3, .wo, 0, 1⟩, ⟨16, 16, .wo, 0, 1⟩]⟩,
  -- REC_SEQ
  ⟨0x40E00010, [], 0x0, [⟨0, 16, .ro, 0, 1⟩, ⟨16, 16, .ro, 0, 1⟩]⟩,
  -- REC_RES
  ⟨0x40E00014, [], 0x0, [⟨0, 4, .ro, 0, 1⟩]⟩,
  -- REC_ENUM
  ⟨0x40E00018, [], 0x0, [⟨0, 32, .ro, 0, 1⟩]⟩,
  -- REC_NUM
  ⟨0x40E0001C, [], 0x0, [⟨0, 32, .rw, 0, 1⟩]⟩,
  -- REC_ELOSS
  ⟨0x40E00020, [], 0x0, [⟨0, 16, .ro, 0, 1⟩, ⟨16, 16, .ro, 0, 1⟩]⟩,
  -- REC_OPSEC
  ⟨0x40E00024, [], 0x0, [⟨0, 32, .ro, 0, 1⟩]⟩,
  -- REC_PWRCYC
  ⟨0x40E00028, [], 0x0, [⟨0, 32, .ro, 0, 1⟩]⟩,
  -- REC_DCFG
  ⟨0x40E00030, [], 0x10A05, [⟨0, 5, .cfg, 0, 1⟩, ⟨8, 7, .cfg, 0, 1⟩, ⟨16, 1, .cfg, 0, 1⟩]⟩]

def regsRec1 : List RegInfo := [
  -- REC_TRIGEN
  ⟨0x40E00034, [], 0x0, [⟨0, 8, .cfg, 0, 1⟩, ⟨8, 1, .cfg, 0, 1⟩]⟩,
  -- REC_BTRIG0
  ⟨0x40E00038, [], 0x0, [⟨0, 32, .cfg, 0, 1⟩]⟩,
  -- REC_BTRIG1
  ⟨0x40E0003C, [], 0x0, [⟨0, 32, .cfg, 0, 1⟩]⟩,
  -- REC_DNUM
  ⟨0x40E00040, [], 0x0, [⟨0, 32, .ro, 0, 1⟩]⟩,
  -- REC_DLOSS
  ⟨0x40E00044, [], 0x0, [⟨0, 16, .ro, 0, 1⟩, ⟨16, 16, .ro, 0, 1⟩]⟩,
  -- REC_WEAR
  ⟨0x40E00048, [], 0x0, [⟨0, 17, .ro, 0, 1⟩, ⟨24, 8, .ro, 0, 1⟩]⟩,
  -- REC_XADDR
  ⟨0x40E00050, [], 0x0, [⟨0, 32, .rw, 0, 1⟩]⟩,
  -- REC_XLEN
  ⟨0x40E00054, [], 0x0, [⟨0, 32, .rw, 0, 1⟩]⟩,
  -- REC_RLSEL
  ⟨0x40E00060, [], 0x0, [⟨0, 8, .rw, 0, 1⟩]⟩,
  -- REC_RLDAT0
  ⟨0x40E00064, [], 0x0, [⟨0, 16, .cfg, 0, 1⟩, ⟨16, 5, .cfg, 0, 1⟩, ⟨31, 1, .cfg, 0, 1⟩]⟩,
  -- REC_RLDAT1
  ⟨0x40E00068, [], 0x10001, [⟨0, 8, .cfg, 0, 1⟩, ⟨16, 16, .cfg, 0, 1⟩]⟩,
  -- REC_SSSEL
  ⟨0x40E00070, [], 0x0, [⟨0, 5, .rw, 0, 1⟩, ⟨8, 3, .rw, 0, 1⟩]⟩]

def regsRec2 : List RegInfo := [
  -- REC_SSADDR
  ⟨0x40E00074, [], 0x0, [⟨2, 30, .cfg, 0, 1⟩]⟩,
  -- REC_EDATAi
  ⟨0x40E00080, [(0x4, 16)], 0x0, [⟨0, 32, .ro, 0, 1⟩]⟩]

/-- The registers of block REC. -/
def regsRec : List RegInfo := regsRec0 ++ regsRec1 ++ regsRec2

def regsBist0 : List RegInfo := [
  -- BIST_ID
  ⟨0x40F00000, [], 0x93040100, [⟨16, 16, .ro, 0, 1⟩, ⟨8, 8, .ro, 0, 1⟩, ⟨0, 8, .ro, 0, 1⟩]⟩,
  -- BIST_STAT
  ⟨0x40F00004, [], 0x0, [⟨0, 16, .ro, 0, 1⟩, ⟨16, 15, .ro, 0, 1⟩, ⟨31, 1, .ro, 0, 1⟩]⟩,
  -- BIST_SUTRES
  ⟨0x40F00008, [], 0x0, [⟨0, 14, .ro, 0, 1⟩]⟩,
  -- BIST_SUTTIME
  ⟨0x40F0000C, [], 0x0, [⟨0, 32, .ro, 0, 1⟩]⟩,
  -- BIST_CFG
  ⟨0x40F00010, [], 0x18, [⟨0, 5, .lc, 0, 1⟩, ⟨8, 1, .lc, 0, 1⟩]⟩,
  -- BIST_LAPLAST
  ⟨0x40F00014, [], 0x0, [⟨0, 32, .ro, 0, 1⟩]⟩,
  -- BIST_FAIL
  ⟨0x40F00018, [], 0x0, [⟨0, 15, .ro, 0, 1⟩, ⟨16, 16, .ro, 0, 1⟩]⟩,
  -- BIST_MCMD
  ⟨0x40F00030, [], 0x0, [⟨0, 4, .wo, 0, 1⟩, ⟨8, 1, .wo, 0, 1⟩, ⟨16, 16, .wo, 0, 1⟩]⟩,
  -- BIST_MSEQ
  ⟨0x40F00034, [], 0x0, [⟨0, 16, .ro, 0, 1⟩, ⟨16, 16, .ro, 0, 1⟩]⟩,
  -- BIST_MRES
  ⟨0x40F00038, [], 0x0, [⟨0, 4, .ro, 0, 1⟩, ⟨16, 16, .ro, 0, 1⟩]⟩]

/-- The registers of block BIST. -/
def regsBist : List RegInfo := regsBist0

/-- The register table of block `n` (the block table of 00). -/
def blockRegs : Nat → List RegInfo
  | 0 => regsSys
  | 1 => regsCore
  | 2 => regsMem
  | 3 => regsCyc
  | 4 => regsTime
  | 5 => regsAfe
  | 6 => regsPe
  | 7 => regsGirth
  | 8 => regsFio
  | 9 => regsAlp
  | 10 => regsNet
  | 11 => regsOct
  | 12 => regsBrg
  | 13 => regsPair
  | 14 => regsRec
  | 15 => regsBist
  | _ => []

/-- Whether offset `d` lies on a copy of an array with the given steps and counts, outermost step first. -/
def onCopy : List (Nat × Nat) → Nat → Bool
  | [], d => d == 0
  | (st, c) :: r, d => decide (d / st < c) && onCopy r (d % st)

/-- The register that has a copy at this address, if one has. -/
def regInfo (a : Nat) : Option RegInfo :=
  if 0x40000000 ≤ a ∧ a < 0x41000000 then
    (blockRegs ((a - 0x40000000) / 0x100000)).find? fun e => decide (e.addr ≤ a) && onCopy e.dims (a - e.addr)
  else none

/-- The reset value of a register key (00 R4). NET_PnCFG is 2 for ports 0 and 1 and 1 for port 2 (11 R409). -/
def resetOf (key : Nat) : BitVec 32 :=
  if key = Reg.NET_PnCFG 2 then 1#32 else
  match regInfo (key % 0x100000000) with
  | some e => BitVec.ofNat 32 e.reset
  | none => 0#32

end Sys2Proof.Machine
end

