-- ==== Sys2Proof/Machine/State.lean ====
section
/-!
DEFINITION. The state of the module as plain data, block by block, and the state after reset. Registers are
held once, in `State.regs`, keyed by address; what the spec describes of a block beside its registers is in
that block's structure here. Lists of key and value pairs are in the canonical form of `CMap`.
-/

namespace Sys2Proof.Machine

/-! ### Cores -/

/-- A load held until an answer comes: what it does with the data (03 R94, R95, R112). -/
inductive LoadOp where
  /-- LW, LH, LHU, LB, LBU into a general register. -/
  | gp (k : LoadKind) (rd : RegNo)
  /-- LDL into a general register. -/
  | ldl (rd : RegNo)
  /-- FLW. -/
  | flw (fd : RegNo)
  /-- FLD: low word still to come (none) or read. -/
  | fld (fd : RegNo) (low : Option Word)
deriving DecidableEq, Repr

/-- What a core is held on. -/
inductive Wait where
  | none
  /-- A load of a word under code refetch (04 R152) or of a non-posted Bridle read (13 R446). -/
  | load (op : LoadOp) (addr : Nat)
  /-- A fetch of a word under code refetch (04 R152). -/
  | fetch (addr : Nat)
  /-- CYW at executive privilege (03 R102). -/
  | cyw (rd : RegNo)
  /-- BAR.M (03 R107). -/
  | barM
  /-- BAR.W (03 R108). -/
  | barW (rd : RegNo)
  /-- A non-posted store to the backplane (13 R445); an FSD's second word still to come. -/
  | store (addr : Nat) (rest : Option Word)
  /-- A transaction that receives no response (02 R53, 04 R143). -/
  | noResponse
  /-- An access ended in this exception while a debug halt was due: it is taken at the first boundary after the resume (03 R123). -/
  | exception (cause sub : Nat) (addr : Word)
deriving DecidableEq, Repr

/-- The architectural state of the voted complex or of a service core (03 R81 to R85). -/
structure CoreState where
  /-- General registers, default 0 (03 R81). -/
  gp : List (Nat × Word) := []
  /-- Floating-point registers, default 0 (03 R82). -/
  fp : List (Nat × DWord) := []
  /-- Special registers, default `sprReset` (03 R84). IPEND and RIC_LO are views, not stored here. -/
  spr : List (Nat × Word) := []
  /-- Program counter (03 R91). -/
  pc : Word := 0xF0000000#32
  /-- Retired-instruction count, 64 bits (02 R59). -/
  ric : DWord := 0#64
  /-- What the core is held on. -/
  wait : Wait := .none
  /-- The TCMP compare is armed (03 R84); log entry 4. -/
  tarmed : Bool := false
  /-- Interrupt line 19 of this core holds (03 R121). -/
  tline : Bool := false
  /-- The core is stopped: held in reset (service core off) or stopped by SAFE. -/
  stopped : Bool := false
  /-- The MONO of the last TRD or TRS snapshot, so that snapshots rise (03 R105, R106); the model's own. -/
  snapAt : Nat := 0
  /-- MONO of the issue of the last TRS and the SYNC it returned, in ns, so that SYNC rises too; 0 after a step of SYNC (03 R106);
  the model's own. -/
  trsAt : Nat := 0
  trsNs : Nat := 0
deriving DecidableEq, Repr

/-- An entry of the debug action log (02 R70). -/
structure DebugEntry where
  ric : DWord
  cmd : Nat
  index : Nat
  value : DWord
deriving DecidableEq, Repr

/-- Where the resynchronisation of the odd core stands (02 R57, R58, R61). -/
inductive Resync where
  | idle
  /-- Transfer running: core, mode left, MONO of its start. -/
  | transfer (core mode start : Nat)
  /-- Released, first voted transaction not yet seen: core, mode left, MONO of the transfer's start, its duration. -/
  | released (core mode start dur : Nat)
deriving DecidableEq, Repr

/-- A word that a service core's caches hold (02 R74): holder 0 and 1 the data caches of service cores 0 and 1, 2 the shared second
level, 3 and 4 the instruction caches of service cores 0 and 1; `dirty`: not yet written to memory. -/
structure CacheWord where
  holder : Nat
  key : Nat
  word : Word
  dirty : Bool
deriving DecidableEq, Repr

/-- The CORE block beside its registers (02). -/
structure CoreBlock where
  /-- An odd core is stopped and awaits its resync: the core and the tick at which it was stopped (02 R57). -/
  odd : Option (Nat × Nat) := none
  resync : Resync := .idle
  /-- The debug action log, oldest first (02 R70). -/
  dbgLog : List DebugEntry := []
  /-- Why a halt is pending: 0 none, 1 command, 2 breakpoint, 3 BRK, 4 step (02 R67). -/
  haltCause : Nat := 0
  /-- A step is under way: the count at which its one instruction starts (02 R72). -/
  step : Option DWord := none
  /-- The debug comparators that are set; their addresses are DBGCMP0 to DBGCMP5 (02 R72). -/
  cmpSet : List Nat := []
  /-- MONO of the last watchdog kick of each service core (02 R77). -/
  kick0 : Nat := 0
  kick1 : Nat := 0
  /-- What the service cores' caches hold (02 R74). -/
  cache : List CacheWord := []
deriving DecidableEq, Repr

/-! ### MEM -/

/-- The spaces of 04 R141. -/
inductive Space where | sram | dram | mram
deriving DecidableEq, Repr

/-- A merge-buffer entry (04 R144). -/
structure MergeEntry where
  /-- Key of the word. -/
  key : Nat
  be : BitVec 4
  data : Word
  owner : Master
  /-- MONO of its allocation. -/
  time : Nat
  /-- Partition and address of its stores, for event 0x2006. -/
  part : Nat
deriving DecidableEq, Repr

/-- A poison queue entry (04 R153). -/
structure PoisonEntry where
  addr : Nat
  space : Space
  owner : Option Nat
  safety : Bool
  master : Nat
deriving DecidableEq, Repr

/-- A refetch in progress (04 R152): the word, its region; found by the scrubber; merged bytes waiting. -/
structure Refetch where
  key : Nat
  region : Nat
deriving DecidableEq, Repr

/-- The MEM block beside its registers (04). -/
structure MemBlock where
  /-- Merge buffer, oldest first (04 R144). -/
  merge : List MergeEntry := []
  /-- Reservations: master and word key (03 R111). -/
  resv : List (Master × Nat) := []
  /-- Queued correction write-backs: word key and corrected word (04 R139). -/
  wback : List (Nat × MWord) := []
  /-- Code refetches in progress (04 R152). -/
  refetch : List Refetch := []
  /-- Poison queue, oldest first (04 R153). -/
  pq : List PoisonEntry := []
  /-- Next word index of each walker: SRAM banks 0 to 3, DRAM, MRAM (04 R149). -/
  walker : List Nat := [0, 0, 0, 0, 0, 0]
  /-- MONO of the running lap's start, its corrections and uncorrectables (04 R149). -/
  lapStart : Nat := 0
  lapCorr : Nat := 0
  lapUnc : Nat := 0
  /-- Repair entries of each macro in force since the last BOOT (04 R157); the log itself is words of MRAM (R155, R162). -/
  applied : List (Nat × Nat) := []
  /-- Logged hard cells: macro, row, slot, bit (04 R156). -/
  hard : List (Nat × Nat × Nat × Nat) := []
  /-- The range being cleared: first and last word key (04 R160). -/
  clear : Option (Nat × Nat) := none
  /-- The word the flip mask is armed on (04 R158). -/
  flip : Option Nat := none
deriving DecidableEq, Repr

/-! ### CYC -/

/-- A received block of a station (05 R174): its words, the MONO at which it was complete, the MONO it counts its age
from, and whether it carries safe values of a safe telegram (05 R175). -/
structure InBlock where
  words : List Word
  done : Nat
  arrival : Nat
  safe : Bool := false
deriving DecidableEq, Repr

/-- A station as CYC sees it (05 R174, R177, R179 to R181). -/
structure Station where
  kind : Nat
  index : Nat
  /-- The last two complete blocks, newest first (05 R174). -/
  cur : Option InBlock := none
  prev : Option InBlock := none
  /-- MONO at which the station was last declared lost. -/
  lostAt : Option Nat := none
  /-- MONO of a fresh status or acknowledge frame received after the loss (05 R181). -/
  ackAt : Option Nat := none
  /-- The port's output block: words by offset, default 0 (05 R177). -/
  out : List (Nat × Word) := []
deriving DecidableEq, Repr

/-- A dispatched cycle of a task (05 R167, R170, R172). -/
structure Cycle where
  /-- Ticks of its period start and of its release edge. -/
  start : Nat
  release : Nat
  /-- MONO of its dispatch and of its input latch. -/
  dispatchAt : Nat
  latchAt : Nat
  /-- The release edge is still to come. -/
  open_ : Bool := true
  /-- Step 3 marked it overrun. -/
  overrun : Bool := false
  /-- Time charged, in ns, and its budget expiry already reported (05 R170). -/
  charge : Nat := 0
  expired : Bool := false
  /-- Time charged to other tasks since its dispatch: task and ns (01 R545). -/
  others : List (Nat × Nat) := []
  /-- A resync started in it (02 R62); a switch over time fell in it (05 R195). -/
  resync : Bool := false
  overSwitch : Bool := false
deriving DecidableEq, Repr

/-- A task beside its registers. -/
structure TaskState where
  cycle : Option Cycle := none
  /-- Its output image is frozen (03 R104). -/
  frozen : Bool := false
  /-- Period starts up to this tick are already counted in STARTS, after a take-over (14 R475). -/
  notBefore : Nat := 0
  /-- MONO of its last budget expiry (01 R37). -/
  expiredAt : Option Nat := none
deriving DecidableEq, Repr

/-- A running timer (05 R182). -/
structure TimerRun where
  index : Nat
  start : Nat
  durationUs : Nat
  periodic : Bool
  /-- Expiries counted since the start. -/
  seen : Nat := 0
deriving DecidableEq, Repr

/-- An entry of the edge FIFO (05 R185). -/
structure EdgeEntry where
  input : Nat
  rise : Bool
  stamp : Nat
deriving DecidableEq, Repr

/-- A force (05 R186). -/
structure Force where
  vid : Nat
  type : Nat
  entry : Nat
  bit : Nat
  value : DWord
deriving DecidableEq, Repr

/-- An input entry's data and status as latched, before forces (05 R175). -/
structure Latch where
  words : List Word
  valid : Bool := true
  fresh : Bool := true
  lost : Bool := false
  subst : Bool := false
  safev : Bool := false
  /-- In units of 10 µs. -/
  age : Nat := 0
  /-- The AGE that CYC_STINFO shows for its station from now on (05 R202), and the MONO at which its block was complete (R181). -/
  shows : Option Nat := none
  done : Option Nat := none
  /-- The counter it was taken from (05 R184). -/
  counter : Option Nat := none
deriving DecidableEq, Repr

/-- A switch that has begun at step 7 and not ended (05 R197, 01 R44). -/
structure RunningSwitch where
  start : Nat
  tick : Nat
  revert : Bool
  /-- Tasks latched at a later edge whose step 10 waits for the end, with that edge's tick (01 R44). -/
  waiting : List (Nat × Nat) := []
  /-- The snapshot of its edge, by image entry, for the delayed step 9 (05 R174). -/
  sampled : List (Nat × Latch) := []
  /-- Mover work of its edge's step 4, in units of 4 ns (05 R176). -/
  work : Nat := 0
deriving DecidableEq, Repr

/-- A tick edge at whose step 8 a resync transfer runs: steps 9 and 10 follow its end (02 R58). The edge's tick, the delay of its
step 10, the mover work of its step 4, what the images' entries held at the edge. -/
structure HeldEdge where
  tick : Nat
  delay : Nat
  work : Nat
  sampled : List (Nat × Latch) := []
deriving DecidableEq, Repr

/-- CYC beside its registers (05). -/
structure CycBlock where
  tasks : List (Nat × TaskState) := []
  stations : List Station := []
  /-- Edge tick at which each image entry was last latched (05 R175). -/
  latched : List (Nat × Nat) := []
  /-- Edge tick of the last event 0x3016 of each image entry at step 9 (05 R543). -/
  failedAt : List (Nat × Nat) := []
  /-- MONO up to which CYC_RUN's task has been charged (05 R170). -/
  chargedTo : Nat := 0
  /-- Line 16 is held (05 R171). -/
  line16 : Bool := false
  timers : List TimerRun := []
  edges : List EdgeEntry := []
  /-- Tick of the last event 0x3008 (05 R185). -/
  edgeLostTick : Option Nat := none
  forces : List Force := []
  /-- A start waiting for its edge: warm or cold, and whether it came through the mailbox (05 R190). -/
  pendingStart : Option Bool := none
  /-- A stop waiting for its edge (05 R192). -/
  pendingStop : Bool := false
  /-- The package of the change in progress, its computed switch time, what undoes it (05 R193 to R200). -/
  change : Option ChangePackage := none
  switchNs : Nat := 0
  undo : Option ChangePackage := none
  /-- Armed switch edge; 0: the first eligible edge. -/
  armedEdge : Nat := 0
  switching : Option RunningSwitch := none
  /-- The edge whose steps 9 and 10 wait for the release of a resync (02 R58). -/
  held : Option HeldEdge := none
deriving DecidableEq, Repr

/-! ### AFE and PE -/

/-- A background calibration of a group (06 R208). -/
structure Calibration where
  channel : Nat
  start : Nat
  phase : Nat := 0
deriving DecidableEq, Repr

/-- An isolated group (06 R208, R211, R213). -/
structure GroupState where
  cal : Option Calibration := none
  /-- Channel within the group calibrated next, and MONO of the last start. -/
  nextChannel : Nat := 0
  lastStart : Nat := 0
  /-- Trims of its spare converter, as an AFE_CHnTRIM word (06 R209). -/
  spare : Word := 0#32
  /-- Calibration is suspended after a reference disagreement. -/
  suspended : Bool := false
  /-- Consecutive frames in which the group is not missing. -/
  good : Nat := 0
  /-- Consecutive frames in which it is missing (unsaturated). -/
  missing : Nat := 0
  /-- It is lost; first frame of the missing run that made it lost; last missing frame. -/
  lost : Bool := false
  lostFrom : Nat := 0
  lastMissing : Nat := 0
  /-- Length of a gap of 1 or 2 frames that the current frame closed (06 R234). -/
  gap : Nat := 0
deriving DecidableEq, Repr

/-- A channel (06 R204, R208 to R210). -/
structure ChannelState where
  /-- Consecutive samples not above the overrange value within an excursion. -/
  below : Nat := 0
  /-- MONO of the last successful calibration and of the last trim write to MRAM. -/
  calAt : Nat := 0
  savedAt : Option Nat := none
  /-- Its own trims while the spare converter is the source: the AFE_CHnTRIM word. -/
  trim : Word := 0#32
  /-- From fuses: factory gain in ppm and offset in LSB (06 R210); gain deviation of the raw path in ppm (R240); what the spare
  converter's word is scaled by, in ppm above 1 (R209). -/
  factoryGain : Int := 0
  factoryOff : Int := 0
  rawGain : Int := 0
  spareScale : Int := 0
  /-- Event 0x5017 has been emitted for the present age (06 R211). -/
  ageSaid : Bool := false
deriving DecidableEq, Repr

/-- AFE beside its registers (06). -/
structure AfeBlock where
  started : Bool := false
  groups : List (Nat × GroupState) := []
  channels : List (Nat × ChannelState) := []
deriving DecidableEq, Repr

/-- A scheme context beside its registers (06 R222, R231; 07 R243). -/
structure ContextState where
  /-- Contribution register (07 R243). -/
  contrib : Word := 0#32
  /-- Consecutive good frames counted towards REFILL. -/
  good : Nat := 0
  /-- Consecutive frames missing for the context, its skips and cuts included. -/
  missing : Nat := 0
  /-- Frames in which LOGIC has not run since it last did. -/
  noLogic : Nat := 0
  /-- An ENABLE or DISABLE waiting for the next slot: some true to enable. -/
  request : Option Bool := none
deriving DecidableEq, Repr

/-- A LOOP being executed (07 R255): its body, its count, the current pass. -/
structure PeLoop where
  first : Nat
  last : Nat
  count : Nat
  pass : Nat
deriving DecidableEq, Repr

/-- The register files of an evaluation (07 R242), default 0. Lanes of Vn are at 4n to 4n + 3. -/
structure PeRegs where
  v : List (Nat × Word) := []
  s : List (Nat × Word) := []
  a : List (Nat × DWord) := []
  f : List (Nat × Bool) := []
deriving DecidableEq, Repr

/-- The entry PE is running (06 R223, R225; 07 R242). -/
structure PeRun where
  cx : Nat
  frame : Nat
  /-- In LOGIC, else in MEAS; LOGIC follows MEAS. -/
  logic : Bool
  logicNext : Bool
  /-- Bundle about to execute, bundles executed for the context in this slot. -/
  pc : Nat
  count : Nat
  loops : List PeLoop := []
  regs : PeRegs := {}
  /-- The V-slot operation of the bundle in progress, given before its S-slot. -/
  vector : Option PeVectorSlot := none
  /-- State before the slot and contribution before the slot (06 R225); the frame is missing for the context. -/
  before : Nat
  contribBefore : Word
  missing : Bool
deriving DecidableEq, Repr

/-- A parameter command accepted and not yet applied (06 R222). -/
structure ParamWrite where
  cx : Nat
  word : Nat
  values : List Word
deriving DecidableEq, Repr

/-- PE beside its registers (06, 07). -/
structure PeBlock where
  /-- Frame being taken in; the corrected values of its channels received, which reach the history as its intake closes (06 R215);
  the trims of its samples (06 R208); whether its intake is closed; its groups missing and its channels with OVR, one bit each. -/
  frame : Nat := 0
  intake : List (Nat × Word) := []
  trims : List Word := []
  closed : Bool := true
  missing : Nat := 0
  ovr : Nat := 0
  contexts : List (Nat × ContextState) := []
  /-- A slot is under way; frame of the last slot, its groups missing, its channels with OVR and the gaps its groups' frame closed
  (06 R223, R234); the MONO at which it began, its PX cycles so far. -/
  slot : Bool := false
  slotFrame : Option Nat := none
  slotMissing : Nat := 0
  slotOvr : Nat := 0
  slotGaps : List Nat := []
  slotAt : Nat := 0
  cycles : Nat := 0
  run : Option PeRun := none
  /-- Contexts of the slot still to be evaluated. -/
  rest : List Nat := []
  /-- VERIFY in progress: context and MONO of its acceptance. -/
  verify : Option (Nat × Nat) := none
  params : List ParamWrite := []
  /-- The library items linked into contexts (07 R257). -/
  schemes : List (Nat × List LibItem) := []
  /-- Trigger lines raised in the current frame (06 R237). -/
  triggers : Nat := 0
  /-- Words of the PE memories by byte offset from 0x5000_0000, default 0 with its check bits (06 R217, R218). -/
  mem : List (Nat × PWord) := []
deriving DecidableEq, Repr


/-! ### Girth -/

/-- A switch test in progress on a safety output (08 R295): output 0 to 3, low side, Girth time of the opening. -/
structure SwitchTest where
  out : Nat
  low : Bool
  at_ : Nat
deriving DecidableEq, Repr

/-- A safety output beside its registers (08 R294, R295). Times are Girth's own. -/
structure SafetyOut where
  /-- Last release of its request. -/
  refreshAt : Option Nat := none
  /-- Beginning of conduction or of its last high-side test; its low side is to be tested next. -/
  testBase : Nat := 0
  lowNext : Bool := false
  /-- An external drive is among its latched faults. -/
  driven : Bool := false
deriving DecidableEq, Repr

/-- A trip output beside its registers (08 R299, R302, R303). Times are Girth's own. -/
structure TripOut where
  onAt : Nat := 0
  releasedAt : Nat := 0
  /-- The confirmation of the last energising is still to be checked. -/
  confirm : Bool := false
deriving DecidableEq, Repr

/-- The counts of an instantaneous element (08 R304, R305). -/
structure ElementState where
  above : Nat := 0
  below : Nat := 0
deriving DecidableEq, Repr

/-- A channel of the raw path (08 R306). -/
structure RawChannel where
  /-- FT of the last accepted word, and Girth time of its arrival. -/
  ft : Option Bool := none
  at_ : Nat := 0
  lost : Bool := false
  /-- Consecutive accepted words while raw-lost. -/
  run : Nat := 0
deriving DecidableEq, Repr

/-- The times of a safety pair (08 R288, R289), Girth's own. -/
structure PairTimes where
  /-- Beginning of the disagreement that the count may run on from: agreements shorter than 100 µs may lie between two instants. -/
  since : Nat := 0
  /-- Beginning of the present disagreement; of the present agreement. -/
  unbroken : Nat := 0
  agreedAt : Nat := 0
  /-- A change that no 10 µs sample has shown yet. -/
  unsampled : Option Nat := none
deriving DecidableEq, Repr

/-- Girth beside its registers (08). The parameter words are GIRTH_PDATA's bank. -/
structure GirthBlock where
  /-- A parameter set has been accepted (08 R278). -/
  accepted : Bool := false
  /-- Girth time of entry to ARMED, of the last correct watchdog response, of the latching of SAFE. -/
  armedAt : Nat := 0
  wdAt : Nat := 0
  safeAt : Nat := 0
  /-- Last released core trip requests, bit t - 1 (08 R279). -/
  tripReq : Nat := 0
  /-- GLTRIP as the trip driver copied it, bit t - 1 (08 R278). -/
  glCopied : Nat := 0
  /-- Drivers whose dynamic enable is lost: 0 to 3 safety outputs, 4 the trip driver (08 R282). -/
  enableLost : List Nat := []
  /-- Trip outputs conducting in the driver's GLTRIP pulse, and MONO at which the pulse began. -/
  glPulse : Nat := 0
  glAt : Nat := 0
  pairs : List (Nat × PairTimes) := []
  outs : List (Nat × SafetyOut) := []
  trips : List (Nat × TripOut) := []
  elements : List (Nat × ElementState) := []
  channels : List (Nat × RawChannel) := []
  /-- Consecutive slot-end strobes, and Girth time of the last one (08 R298). -/
  strobes : Nat := 0
  strobeAt : Nat := 0
  /-- Girth time of the last event 0x6013 (08 R306). -/
  rawErrAt : Option Nat := none
  test : Option SwitchTest := none
  /-- Girth time at which the last switch test ended (08 R295). -/
  testEnd : Nat := 0
deriving DecidableEq, Repr

/-! ### REC -/

/-- An event record (09 R318). `bad`: the stored record fails its CRC-32C. -/
structure EventRecord where
  number : Nat
  code : Nat
  flags : Nat
  sset : Nat := 0
  opsec : Nat
  pcyc : Nat
  time : Nat
  vals : List Nat
  supp : Nat := 0
  bad : Bool := false
deriving DecidableEq, Repr

/-- A rate limiter bucket (09 R322): tokens taken, MONO from which the next refill counts, suppressed count. -/
structure Bucket where
  taken : Nat := 0
  since : Nat := 0
  supp : Nat := 0
deriving DecidableEq, Repr

/-- A ring block (09 R327): its number, the erase block that holds it, its records oldest first. -/
structure RingBlock where
  number : Nat
  block : Nat
  records : List EventRecord
deriving DecidableEq, Repr

/-- A frame record (09 R329): frame number, groups missing, channels with OVR, the 24 values, the 64 binary channels. -/
structure FrameRecord where
  number : Nat
  missing : Nat
  ovr : Nat
  values : List Word
  binary : Nat
deriving DecidableEq, Repr

/-- A frame in the disturbance ring (09 R329, R333): its number, and which 112 bytes of the ring its record takes. -/
structure RingFrame where
  number : Nat
  place : Nat
deriving DecidableEq, Repr

/-- A capture (09 R332, R335), open, waiting or stored. -/
structure Capture where
  number : Nat
  first : Nat
  /-- Trigger frame of its first trigger, and its last frame. -/
  trigger : Nat
  last : Nat
  /-- Trigger marks: frame offset and source; triggers counted. -/
  marks : List (Nat × Nat) := []
  triggers : Nat := 1
  preshort : Bool := false
  extended : Bool := false
  capped : Bool := false
  closed : Bool := false
  /-- Time of the first frame's sample instant and whether it is SYNC. -/
  time : Nat := 0
  ts : Bool := false
deriving DecidableEq, Repr

/-- A disturbance record in flash (09 R334, R335): its capture, the block of its header, its frames, the channel
scales and ranges of its header. -/
structure DisturbanceRecord where
  capture : Capture
  block : Nat
  frames : List FrameRecord
  scales : List Word := []
  ranges : List Nat := []
deriving DecidableEq, Repr

/-- REC beside its registers (09). -/
structure RecBlock where
  /-- The event queue, oldest first (09 R322, R324). -/
  queue : List EventRecord := []
  buckets : List (Nat × Bucket) := []
  /-- Events lost to a full queue since the last report, and while frozen since the last report (09 R324, R341). -/
  lostQueue : Nat := 0
  lostFrost : Nat := 0
  frostReported : Option Nat := none
  /-- The event ring, oldest ring block first (09 R327), in flash. -/
  ring : List RingBlock := []
  /-- Erase counts of the event and the disturbance region's blocks, and their retired blocks (09 R343), in flash. -/
  wearE : List (Nat × Nat) := []
  wearD : List (Nat × Nat) := []
  retiredE : List Nat := []
  retiredD : List Nat := []
  /-- Erase block taken next in turn, in each region. -/
  nextE : Nat := 0
  nextD : Nat := 0
  /-- Event 0xC00D emitted for the region (09 R343). -/
  wearSaidE : Bool := false
  wearSaidD : Bool := false
  /-- The saved copy of a power failure in MRAM, if valid: its records, and the captures held (09 R325, R336). -/
  saved : Option (List EventRecord × Nat) := none
  /-- Operating seconds: the count at `opsFrom`, the MONO of power-good; none while power fails (09 R326). -/
  opsBase : Nat := 0
  opsFrom : Option Nat := some 0
  /-- MONO of the last OPSEC_SAVE. -/
  savedAt : Nat := 0
  /-- Frozen state in MRAM: source, 0 none (09 R340). -/
  savedFrost : Nat := 0
  /-- Triggers are accepted (09 R331). -/
  triggers : Bool := false
  /-- First frame whose delivery ends after MEM_STAT.DINIT became 1: earlier ones are not recorded (the text before 09 R329). -/
  fromFrame : Nat := 0
  /-- First frame recorded at this start (09 R332). -/
  firstFrame : Option Nat := none
  /-- Binary channels at the end of a slot and what its frame's intake found, for frames not yet recorded: frame, missing
  groups, OVR channels, binary channels. -/
  slots : List (Nat × Nat × Nat × Nat) := []
  /-- Binary channels at the last slot end, and the core trigger given in the current frame. -/
  lastBinary : Nat := 0
  coreTrigger : Bool := false
  /-- The frames that the disturbance ring in DRAM holds, oldest first; their records are words of DRAM (09 R329). -/
  frames : List RingFrame := []
  /-- Captures open or waiting, oldest first (09 R332, R333). -/
  captures : List Capture := []
  /-- Disturbance records in flash, oldest first (09 R334). -/
  stored : List DisturbanceRecord := []
  /-- The export in progress: record number, buffer offset and length (09 R337). -/
  export_ : Option (Nat × Nat × Nat) := none
  /-- What the configuration declares for COMTRADE: station name, primary units, channel scales, lf (09 R338). -/
  station : List Nat := []
  units : List (List Nat) := []
  scales : List Word := []
  lf : List Nat := []
deriving DecidableEq, Repr

/-! ### FIO and ALP -/

/-- A field supply group beside its registers (10 R359). -/
structure SupplyGroup where
  /-- Consecutive samples below 15.0 V. -/
  low : Nat := 0
  /-- MONO from which samples have been at or above 19.2 V, and at or above 18.0 V. -/
  since192 : Option Nat := none
  since180 : Option Nat := none
  /-- The excursion has been reported with event 0x7003. -/
  excursion : Bool := false
  /-- Cleared and waiting for the next step 4 (10 R360). -/
  hold : Bool := false
deriving DecidableEq, Repr

/-- A test pulse in progress (10 R356): output and MONO of the opening. -/
structure TestPulse where
  out : Nat
  at_ : Nat
deriving DecidableEq, Repr

/-- FIO beside its registers (10). -/
structure FioBlock where
  fs1 : SupplyGroup := {}
  fs2 : SupplyGroup := {}
  /-- Timestamp of each counter's last counted edge (05 R184; 10 R350). -/
  stamps : List (Nat × Nat) := []
  /-- Counters run: CONFIGURE has ended (10 R350). -/
  counting : Bool := false
  /-- Comparator states of the inputs, bit n - 1 (10 R346). -/
  comparators : Nat := 0
  /-- MONO of each input's last change of filtered state (10 R347, R350). -/
  changed : List (Nat × Nat) := []
  /-- High-side switches of outputs 5 to 16 conducting, bit n - 1. -/
  on : Nat := 0
  test : Option TestPulse := none
  /-- MONO at which FIO's last test ended, and at which each output was last tested or began to conduct. -/
  testEnd : Nat := 0
  testBase : List (Nat × Nat) := []
  /-- The last two 10 µs samples of the input block, newest first: MONO and words (10 R361). -/
  cur : Nat × List Word := (0, List.replicate 7 0#32)
  prev : Nat × List Word := (0, List.replicate 7 0#32)
deriving DecidableEq, Repr

/-- A loop channel beside its registers (10 R362 to R373). Currents in µA. -/
structure LoopState where
  /-- Last raw sample. -/
  raw : Int := 0
  /-- Released value, MONO of the release, current commanded to the DAC. -/
  released : Nat := 0
  releasedAt : Nat := 0
  driven : Nat := 0
  /-- Burden disconnected or regulator blocked; MONO of the overload or of its last retry (10 R368). -/
  cut : Bool := false
  triedAt : Nat := 0
  /-- HART frame pending: its length (10 R372). -/
  hart : Option Nat := none
  /-- The input blocks of the last two 1 kSa/s samples, newest first: MONO and words (10 R369). -/
  cur : Nat × List Word := (0, List.replicate 3 0#32)
  prev : Nat × List Word := (0, List.replicate 3 0#32)
deriving DecidableEq, Repr

/-- ALP beside its registers (10). -/
structure AlpBlock where
  channels : List (Nat × LoopState) := []
  /-- Positions of the jumpers on the front panel now (10 R366). -/
  jumpers : List (Nat × Nat) := []
  /-- CONFIGURE has ended: outputs drive (10 R365). -/
  driving : Bool := false
  /-- Channel in transaction of modems 0 and 1 (10 R371); the characters each sends in an attempt, preamble and check byte with them,
  and the attempts it makes at most (R370, R372). -/
  modem0 : Option Nat := none
  modem1 : Option Nat := none
  frame0 : List Nat := []
  frame1 : List Nat := []
  attempts0 : Nat := 0
  attempts1 : Nat := 0
  /-- MONO at which SEL, ZERO and SPAN were pressed (10 R373). -/
  selAt : Nat := 0
  zeroAt : Nat := 0
  spanAt : Nat := 0
deriving DecidableEq, Repr

/-! ### NET and TIME -/

/-- What a frame is, by the order in which ports send (11 R387). -/
inductive FrameKind where
  | heartbeat
  | ptp
  | safe
  | flow
  /-- Frames of the transmit ring, answers to ARP and ICMP echo requests, the maintenance tool channel. -/
  | ring | arpReply | echoReply | maintenance
deriving DecidableEq, Repr

/-- A frame queued at a port or being sent (11 R383, R387, R398). -/
structure TxFrame where
  kind : FrameKind
  /-- Claimant of the frame's bandwidth: flow or 0 (01 R28). -/
  claimant : Nat := 0
  pcp : Nat := 0
  /-- Length on the link, destination address to check sequence. -/
  len : Nat
  /-- Of a PD frame: its sequence counter, ComId and topography counters (11 R383). -/
  counter : Nat := 0
  comId : Nat := 0
  etb : Nat := 0
  opt : Nat := 0
  /-- Destination address and VLAN (0: untagged) of a PD message, and the bytes of its header (11 R381, R383, R409). -/
  dest : Nat := 0
  vlan : Nat := 0
  header : List Byte := []
  /-- Dataset, or for the other kinds the bytes carried. -/
  data : List Byte
  /-- MONO of the send edge, or of queueing; once it is being sent, MONO of its start. -/
  at_ : Nat
  sentAt : Nat := 0
  /-- Its timestamps on MONO and SYNC in ns, once it is being sent (11 R396). -/
  stamp : Nat × Nat := (0, 0)
  /-- Source MAC address (11 R381). -/
  mac : Nat := 0
deriving DecidableEq, Repr

/-- A safe telegram of which one copy has arrived (11 R403): its number, the port and MONO of the first copy, its bytes. -/
structure SafeCopy where
  sseq : Nat
  port : Nat
  at_ : Nat
  data : List Byte
deriving DecidableEq, Repr

/-- A flow beside its registers (11). -/
structure FlowState where
  /-- A copy has been accepted since reset or since the flow was lost (11 R384, R402). -/
  first : Bool := true
  /-- MONO of the arrival of the last accepted copy or delivered telegram (11 R385, R404). -/
  lastAt : Nat := 0
  /-- Last accepted pair sequence number (14 R478). -/
  pairSeq : Nat := 0
  /-- Open window, and the last delivered telegram (11 R403). -/
  window : Option SafeCopy := none
  delivered : Option SafeCopy := none
  /-- MONO of SCRC failures, newest first (11 R402). -/
  crcFails : List Nat := []
  /-- Transmit: its task has released since the last start; PD counter and SSEQ sent last (11 R390, R400). -/
  released : Bool := false
  counter : Nat := 0
  sseq : Nat := 0
  /-- Send edges whose telegram the check units withheld, and the send edges counted as missed whose frames still wait (11 R400,
  R401). -/
  withheld : List Nat := []
  missed : List Nat := []
  /-- Credit on each port: port, credit in 10^-4 bits, MONO to which it is settled (11 R388). -/
  credit : List (Nat × Nat × Nat) := []
deriving DecidableEq, Repr

/-- The maintenance session (11 R406): MAC and IPv4 address of the tool. -/
inductive Session where
  | closed
  /-- A nonce is out: its 8 words and the MONO of its issue. -/
  | challenged (mac ip : Nat) (nonce : List Word) (issued : Nat)
  /-- Open: key, last session sequence number, MONO of the last datagram. -/
  | open_ (mac ip key last at_ : Nat)
deriving DecidableEq, Repr

/-- NET beside its registers (11). -/
structure NetBlock where
  flows : List (Nat × FlowState) := []
  /-- Frames waiting at each port, in arrival order, and the frame each port is sending (11 R387). -/
  queues : List (Nat × List TxFrame) := []
  sending : List (Nat × TxFrame) := []
  /-- Bits sent in the current 1 ms window: port, claimant, bits (01 R35). -/
  sent : List (Nat × Nat × Nat) := []
  /-- Port and flow found without credit in the current window (01 R37; 11 R388). -/
  throttled : List (Nat × Nat) := []
  session : Session := .closed
  /-- The maintenance keys of the configuration, up to 4 (11 R406). -/
  keys : List (List Byte) := []
  /-- MONO of the last refusal of a session (16 R539). -/
  refusedAt : Option Nat := none
  /-- The end of the last 1 ms window judged (01 R35). -/
  windowEnd : Nat := 0
deriving DecidableEq, Repr

/-- TIME beside its registers (11). -/
structure TimeBlock where
  /-- Offsets of the acquisition in progress (11 R393). -/
  offsets : List Int := []
  /-- The latest offset, in ns, and whether a path delay has been measured. -/
  offset : Int := 0
  delayKnown : Bool := false
  /-- The offset on which the servo acted last (11 R393). -/
  servoOff : Int := 0
  /-- Consecutive offsets within 1 µs, and beyond 10 µs (11 R392). -/
  near : Nat := 0
  far : Nat := 0
  /-- MONO of the last Announce and of the last Sync (11 R392), and of the entry to LOCKED (R391). -/
  announceAt : Nat := 0
  syncAt : Nat := 0
  lockedAt : Nat := 0
  /-- The last Announce of each port, and MONO from which the port has heard none (11 R397). -/
  announced : List (Nat × PtpClock) := []
  heardAt : List (Nat × Nat) := []
  /-- Learned term of COMP, kept in MRAM (11 R391), what it has yet to follow, in 1/3600 units, and MONO from which COMP's next second
  counts. -/
  learned : Int := 0
  learnRest : Int := 0
  compAt : Nat := 0
  /-- MONO at which each port last sent each interval's message; none is listed before the first (11 R397). -/
  sentAt : List (Nat × Nat) := []
deriving DecidableEq, Repr

/-! ### OCT -/

/-- What a master frame waits to be answered by (12 R415). -/
inductive OctAsk where | poll | admission | handover
deriving DecidableEq, Repr

/-- The last master frame on a channel that asks for an answer (12 R422, R423). -/
structure OctPoll where
  entry : Nat
  ask : OctAsk
  addr : Nat
  port : Nat
  /-- Its frame start S'. -/
  start : Nat
  answered : Bool := false
deriving DecidableEq, Repr

/-- A frame this node sent, or a frame received, with its frame start (12 R413). -/
structure OctLine where
  header : Word
  payload : List Word
  start : Nat
deriving DecidableEq, Repr

/-- What a follower is to answer, and the end of the frame it answers (12 R422). -/
structure OctAnswer where
  ask : OctAsk
  port : Nat
  word : Word
  at_ : Nat
deriving DecidableEq, Repr

/-- A channel of OCT beside its registers (12). -/
structure OctChannel where
  /-- Frame start of the last START sent or received, if any. -/
  start : Option Nat := none
  /-- Last frame this node sent. -/
  line : Option OctLine := none
  /-- Master: the last frame that asks for an answer; follower: the last one heard, with the RTD it names. -/
  poll : Option OctPoll := none
  heardRtd : Nat := 4095
  /-- Follower: address and port of the last POLL heard. -/
  heardFor : Nat × Nat := (0, 0)
  /-- Follower: frame start of the last POLL heard. Master: S of the last entry due in this basic period, in ns. -/
  heardAt : Nat := 0
  served : Option Nat := none
  /-- Follower: an answer due; the entry of the own frame sent since the last poll status. -/
  answer : Option OctAnswer := none
  own : Option Nat := none
  /-- Master: a GRANT to send: address, port and entry of each grant (12 R431). -/
  grant : Option (Nat × List (Nat × Nat)) := none
  /-- Follower: its CLAIM's macrocycle count (12 R431). -/
  claim : Option Nat := none
  /-- Address an ADMIT went to last. -/
  admitted : Nat := 0
  /-- MONO of the last event 0x9007 (12 R427). -/
  errorAt : Option Nat := none
deriving DecidableEq, Repr

/-- OCT beside its registers (12). -/
structure OctBlock where
  chA : OctChannel := {}
  chB : OctChannel := {}
  /-- Frame start of the last START sent or received (12 R440). -/
  startAt : Nat := 0
  /-- LAST of each node on each channel, key channel x 128 + address (12 R417). -/
  lasts : List (Nat × Nat) := []
  /-- Frame start of the last accepted frame of each port descriptor. -/
  accepted : List (Nat × Nat) := []
  /-- Data last sent of each port of this node that an EVENT or a REPLY carried (12 R419). -/
  events : List (Nat × List Word) := []
  /-- Entries granted in the present macrocycle, which are served from the next one onwards (12 R431). -/
  grantFrom : List (Nat × Nat) := []
  /-- Cold start: when the step began, when the cold START began, end of the last carrier heard (12 R433, R436). -/
  stepAt : Nat := 0
  frameAt : Nat := 0
  carrierAt : Nat := 0
  /-- Earliest frame start of the first regular START, and whether it is still to come (12 R433). -/
  masterFrom : Nat := 0
  first : Bool := false
  /-- Hand-over: as master its target, and the macrocycle count after which no START is sent; as target or follower the
  macrocycle count and target heard (12 R437). -/
  target : Option Nat := none
  lastMacro : Option Nat := none
  heardHand : Option (Nat × Nat) := none
  /-- Master for which event 0x900C has been emitted (12 R430). -/
  mismatch : Option Nat := none
  /-- The master last followed or held, 0 before the first: another one is a new master (12 R432). -/
  followed : Nat := 0
deriving DecidableEq, Repr

/-! ### BRG -/

/-- What an outstanding request is for (13 R445, R446, R450, R454, R455; R442). -/
inductive BrgUse where
  | load (c : Master) (op : LoadOp) (addr : Nat)
  /-- `size`: 0 byte, 1 halfword, 2 word. -/
  | nonPosted (c : Master) (addr size : Nat) (data : Word)
  /-- The 64-byte block at a core address, and the load that waits for it; none: PLD. -/
  | readAhead (wait : Option (Master × LoadOp × Nat)) (block part : Nat)
  /-- A flush read: it settles the writes of the window with serial numbers below `serial`, those sent before it; while it waits
`serial` has no meaning. -/
  | flush (win serial : Nat)
  /-- The posted write with this serial number, which waits in O3 and takes no tag. -/
  | posted (serial : Nat)
  | station (idx : Nat)
  | config (write : Bool)
deriving DecidableEq, Repr

/-- An outstanding request: its tag, its use, MONO at which it was sent; `stale`: a write that overlaps the block it reads ahead has
been sent since (13 R454). -/
structure BrgTag where
  id : Nat
  use : BrgUse
  at_ : Nat
  stale : Bool := false
deriving DecidableEq, Repr

/-- An untracked posted write (13 R450). `win`: Bridle window 0 to 15, or 16 + station descriptor; `at_`: MONO at which it was
taken, then sent. -/
structure PostedWrite where
  serial : Nat
  /-- Core address, or the PCIe address of a station's output block. -/
  addr : Nat
  pcie : Nat
  size : Nat
  seq : Nat
  part : Nat
  win : Nat
  at_ : Nat
  /-- The words it carries; a byte or halfword in the low bits. -/
  data : List Word
  /-- It has left its buffer (13 R447). -/
  sent : Bool := true
deriving DecidableEq, Repr

/-- A posted store of a core that waits for an entry of O3 (13 R447, R448): core, address, size, value, window. -/
structure HeldStore where
  c : Master
  addr : Nat
  size : Nat
  data : Word
  win : Nat
deriving DecidableEq, Repr

/-- A complete block of a source in the queue of arrivals (13 R460). -/
structure Arrival where
  kind : Nat
  index : Nat
  block : InBlock
deriving DecidableEq, Repr

/-- An entry of the write-error FIFO (13 R452). -/
structure WriteError where
  addr : Nat
  size : Nat
  seq : Nat
  kind : Nat
  part : Nat
  station : Bool
deriving DecidableEq, Repr

/-- A read-ahead block (13 R454): words delivered to loads as a mask, MONO of its arrival and of its last use. -/
structure AheadBlock where
  addr : Nat
  words : List Word
  delivered : Nat := 0
  part : Nat
  at_ : Nat
  used : Nat
deriving DecidableEq, Repr

/-- An entry of the discarded-prefetch log (13 R454). -/
structure PrefetchLoss where
  addr : Nat
  unused : Nat
  part : Nat
  cause : Nat
deriving DecidableEq, Repr

/-- BRG beside its registers (13). -/
structure BrgBlock where
  tags : List BrgTag := []
  /-- Tags of requests that timed out and whose completion may still come, newest first (13 R446). -/
  late : List Nat := []
  /-- Requests that wait, for a tag or for their turn in a window, oldest first (13 R447 to R449). -/
  waiting : List BrgUse := []
  /-- Posted stores that wait for an entry of O3, oldest first (13 R448). -/
  stores : List HeldStore := []
  /-- Untracked writes, oldest first; serial number of the next one. -/
  open_ : List PostedWrite := []
  serial : Nat := 0
  wef : List WriteError := []
  /-- Windows in which the first kind 6 failure since the stop is still to come (13 R451). -/
  firstRefusal : List Nat := []
  ahead : List AheadBlock := []
  losses : List PrefetchLoss := []
  /-- MONO of the last events 0xA008 and 0xA00C (13 R442, R454). -/
  aheadSaid : Option Nat := none
  inboundSaid : Option Nat := none
  /-- MONO of the last successful read of each station (13 R455). -/
  readAt : List (Nat × Nat) := []
  /-- Routes whose destination has been zeroed for the present loss of their source (13 R458). -/
  zeroed : List Nat := []
  /-- Blocks whose routes are still to be performed, oldest first (13 R460). -/
  arrivals : List Arrival := []
deriving DecidableEq, Repr

/-! ### PAIR -/

/-- A heartbeat path (14 R463, R465): tick number of the last heartbeat accepted on it, whether one has come since the last
edge, edges without one. -/
structure PairPath where
  last : Option Nat := none
  got : Bool := false
  miss : Nat := 0
deriving DecidableEq, Repr

/-- What the partner's last accepted heartbeat said (14 R464), and MONO of its arrival. -/
structure PartnerState where
  slot : Nat
  role : Nat
  mode : Nat
  ready : Bool
  tick : Nat
  psn : Nat
  program : Nat
  requests : Nat
  at_ : Nat
  /-- Its MONO at the tick edge of the heartbeat. -/
  mono : Nat := 0
deriving DecidableEq, Repr

/-- What a unit holds of a task's last complete commit, the active's or its own as active (14 R470, R472, R473): own tick of its
release edge, SSEQ of its safe flows. -/
structure PairCommit where
  /-- Own tick that corresponds to the tick at the commit. -/
  since : Nat
  release : Nat
  sseqs : List (Nat × Nat)
  /-- Tick number of the unit that committed less the own one (14 R475, R476). -/
  shift : Int := 0
deriving DecidableEq, Repr

/-- A join in progress (14 R480): the phases completed, the tasks that have joined. -/
structure PairJoin where
  /-- MONO at which the phase that runs began. -/
  since : Nat := 0
  identity : Bool := false
  configuration : Bool := false
  timed : Bool := false
  copied : Bool := false
  joined : List Nat := []
  /-- MONO since which the offset fixed in phase 3 has held; none: it is still to be fixed (14 R466). -/
  heldFrom : Option Nat := none
deriving DecidableEq, Repr

/-- PAIR beside its registers (14). -/
structure PairBlock where
  xl : PairPath := {}
  na : PairPath := {}
  nb : PairPath := {}
  partner : Option PartnerState := none
  /-- A path was current at the last step 2; ticks for which the cross-link had been current and then lost. -/
  seen : Bool := false
  xlSeen : Bool := false
  /-- Dataset of the last heartbeat sent (14 R464). -/
  sent : List Byte := []
  /-- Sequence counter of the last heartbeat on the networks (11 R383). -/
  hbCount : Nat := 0
  /-- Keys of the 64-byte blocks written in tracked regions since their last commit record (14 R472). -/
  marks : List Nat := []
  /-- The last state transfer sent: block keys with their words, and the commit record (14 R472). -/
  transfer : Option (List (Nat × List Word) × CommitRecord) := none
  /-- Blocks in the standby's staging buffer, in order of arrival (14 R473). -/
  staging : List (Nat × List Word) := []
  commits : List (Nat × PairCommit) := []
  /-- The active's last input snapshot sent, and those a standby has received, newest first, by own tick (14 R477). -/
  snapSent : Option (Nat × List (Nat × List Word)) := none
  snapshots : List (Nat × List (Nat × List Word)) := []
  /-- Own tick of the last missed snapshot. -/
  snapMissed : Option Nat := none
  /-- CRC-32C of the blocks stamped at the last edges, newest first: own tick and CRC (14 R464, R478). -/
  crcs : List (Nat × Nat) := []
  /-- The partner's CRC that waits for the own one: own tick and CRC. -/
  toCompare : Option (Nat × Nat) := none
  /-- Consecutive matching edges (14 R478). -/
  matching : Nat := 0
  /-- Tick number of the active less the own one at corresponding edges, in full (14 R466). What the own schedule adds to the own tick
number: in gapless mode it runs with the active's (14 R477), else 0; and what the active's adds to the active's. -/
  dtick : Int := 0
  shift : Int := 0
  partnerShift : Int := 0
  /-- A unit that has handed over still has to fix DTICK and the offset to the new active (14 R466, R483). -/
  refix : Bool := false
  /-- The last measured offset lies outside 40 µs to 165 µs (14 R466). -/
  offsetOut : Bool := false
  /-- The partner's pair sequence numbers, newest first, by own tick; the own one is still to take the partner's (14 R478). -/
  psns : List (Nat × Nat) := []
  align : Bool := false
  /-- A switch-over is due: on the active at its next edge, on the standby at this own tick (14 R483). -/
  switching : Bool := false
  switchAt : Option Nat := none
  join : Option PairJoin := none
  /-- A stepped-down unit that joins once the cross-link is back (14 R469). -/
  rejoin : Bool := false
  /-- MONO of the partner's last heartbeat before a take-over, until the first release (14 R487). -/
  gapFrom : Option Nat := none
  /-- Own tick at which step 2 last put a role change into effect (01 R42). -/
  roleChanged : Option Nat := none
  /-- Program identity of the change the partner has prepared, and the own tick at which it holds a switch (14 R482). -/
  prepared : Option Nat := none
  partnerHeld : Option Nat := none
  /-- Own tick of the edge at which the active switches a change, and whether it reverts it (14 R482). -/
  changeAt : Option (Nat × Bool) := none
  /-- The last message of these kinds sent over the cross-link (14 R472, R482, R483). -/
  sentMessage : Option PairMessage := none
  /-- The last kind 7 output block sent (14 R484). -/
  blockSent : List Word := []
  /-- The partner has told that a start command is pending in it (14 R480). -/
  partnerStarts : Bool := false
  /-- The bulk copy to a joining partner (14 R480, phase 4): ranges of keys still to be copied, the windows it covers beside the
tracked regions, and the blocks sent at the last tick edge. -/
  bulk : Option (List (Nat × Nat)) := none
  covered : List (Nat × Nat) := []
  bulkSent : List (Nat × List Word) := []
  /-- The pair sequence number stamped on the last block of a station, by kind x 4096 + station (01 R39). -/
  stamps : List (Nat × Option Nat) := []
deriving DecidableEq, Repr

/-! ### SYS, configuration and non-volatile stores -/

/-- A partition as the configuration declares it (01 R16, R21; 02 R74). -/
structure Partition where
  index : Nat
  safety : Bool
  /-- A partition of the service cores (01 R16, R27). -/
  service : Bool := false
  /-- First and last byte of the memory window. -/
  lo : Nat
  hi : Nat
  /-- DRAM bank of the window, 0 to 2. -/
  bank : Nat := 0
  /-- Ranges of block registers the window grants: first and last byte. -/
  grants : List (Nat × Nat) := []
  /-- Ranges a service core may cache (02 R74). -/
  cacheable : List (Nat × Nat) := []
deriving DecidableEq, Repr

/-- What is fused beside SYS_LC, SYS_SER, SYS_SVN and GIRTH_FCRC (15 R490, R491): the partition map of the move to FIELD and
the values behind the safety digest, by register key. -/
structure FusedMap where
  parts : List Partition := []
  regions : List (Nat × Word) := []
  digest : List (Nat × Word) := []
  /-- The unit's MAC base address (11 R381; 15 R492). -/
  mac : Nat := 0
  /-- Digests of the owner keys, the device key and the fleet key (15 R491, R492, R512). What is done with them comes as the outcome of
a check: log entry 33. -/
  ownerKeys : List Nat := []
  deviceKey : Nat := 0
  fleetKey : Nat := 0
  /-- Latencies of each port's PHY in and out, in ns (11 R396). -/
  phyIn : List Nat := []
  phyOut : List Nat := []
deriving DecidableEq, Repr

/-- A flash slot (15 R515) and its half of the configuration region: the images installed, word by word from offset 0; the
security versions of both; the program identity of the firmware. -/
structure SlotContent where
  firmware : List (Nat × Word) := []
  configuration : List (Nat × Word) := []
  fwSvn : Nat := 0
  cfgSvn : Nat := 0
  pid : Nat := 0
deriving DecidableEq, Repr

/-- An image that passed its check: its offset and length in staging, security version and program identity (15 R511). -/
structure StagedImage where
  at_ : Nat
  len : Nat
  svn : Nat
  pid : Nat
deriving DecidableEq, Repr

/-- The image set that passed VERIFY (15 R513 to R515). -/
structure StagedSet where
  firmware : Option StagedImage := none
  configuration : Option StagedImage := none
deriving DecidableEq, Repr

/-- A command of SYS running on the flash controller (15 R514 to R516). -/
inductive FlashJob where
  | stage (dst src len : Nat)
  | verify
  | install
  | pkgload (addr len : Nat)
deriving DecidableEq, Repr

/-- What a front-panel LED shows (16 R539). -/
inductive Led where | dark | green | blink | yellow | red
deriving DecidableEq, Repr

/-- The front panel (16 R539); LP0 to LP7 in `lp`. -/
structure LedPanel where
  run : Led := .dark
  safe : Led := .dark
  pair : Led := .dark
  lnkA : Led := .dark
  lnkB : Led := .dark
  mnt : Led := .dark
  oct : Led := .dark
  lp : List Led := List.replicate 8 .dark
deriving DecidableEq, Repr

/-- SYS beside its registers (15). -/
structure SysBlock where
  /-- Declared partitions in configuration order (01 R16). -/
  parts : List Partition := []
  /-- SAFE demands on their way to Girth: cause and detail (08 R283). -/
  demands : List (Nat × Nat) := []
  /-- Shares the configuration declares (01 R29; 15 R510), and its slot owners, by arbiter x 64 + slot, for CONFIGURE (04 R147). -/
  shares : List DeclaredShare := []
  slots : List (Nat × Word) := []
  /-- The loaded program (05 R186, R190, R191, R194). -/
  program : Program := {}
  /-- Result of the last accepted command of each mailbox, by the key of its sequence register, default 0; none: it is still in
  progress (00 R9). The sequence of the command of the mailbox whose result comes later, if one is in progress. -/
  results : List (Nat × Option Nat) := []
  late : List (Nat × Option Nat) := []
  /-- MONO at which the present start phase began; none once its overrun has been demanded (15 R496). -/
  phaseAt : Option Nat := some 0
  /-- The last reset was a loss of supply (15 R494); a reset is to take effect (15 R495, R499). -/
  supplyLost : Bool := false
  resetting : Bool := false
  /-- SERVICE was entered on a command of the maintenance session (15 R495). -/
  serviceByTool : Bool := false
  /-- Program identity of the firmware started (15 R513). -/
  firmware : Nat := 0
  /-- The configuration: its identity, overlays and selection table (15 R501, R502): mode, train mode, mask. -/
  identity : Nat := 0
  /-- The loaded configuration is bound to this unit (15 R489, R493). -/
  bound : Bool := false
  overlays : List Overlay := []
  selection : List (Nat × Nat × Nat) := []
  /-- Masks CONFIGURE has checked (01 R32). -/
  checked : List Nat := []
  /-- What the overlays in force cover: register key, mask, bits; the latest first. -/
  under : List (Nat × Word × Word) := []
  /-- Mode and train mode for which the mask was last resolved; a request of SYS_OVSEL is open. -/
  resolved : Option (Nat × Nat) := none
  asked : Bool := false
  /-- Fuses (15 R490). -/
  fused : FusedMap := {}
  /-- A fuse write of LCADV in progress: its target (15 R489). -/
  advancing : Option Nat := none
  /-- A kind 4 authorisation for this serial number has passed its check (15 R489). -/
  authorised : Bool := false
  /-- The staging region, by word offset, default erased; the set verified in it (15 R514). -/
  staging : List (Nat × Word) := []
  verified : Option StagedSet := none
  /-- Slots A and B (15 R515). -/
  slotA : Option SlotContent := none
  slotB : Option SlotContent := none
  /-- The flash command in progress (15 R514). -/
  job : Option FlashJob := none
  /-- MONO at which the running BIST lap began, if one has; the manual test item in progress (15 R505, R509). -/
  lapAt : Option Nat := none
  manual : Option Nat := none
  /-- The voter exercise slice has run in the running lap (02 R65). -/
  exercised : Bool := false
  /-- What the front panel shows, as last refreshed (16 R539). -/
  leds : LedPanel := {}
  /-- MONO of the last refresh of the front panel. -/
  ledsAt : Option Nat := none
  /-- MONO of the last sample of the module supply (15 R548). -/
  supplyAt : Option Nat := none
deriving DecidableEq, Repr

/-- An event on its way to REC (09 R320). -/
structure Event where
  code : Nat
  vals : List Nat
  /-- MONO at which it was emitted. -/
  mono : Nat
deriving DecidableEq, Repr

/-! ### The module -/

/-- The whole state. -/
structure State where
  /-- Every block register, default `resetOf` (00 R3, R4). -/
  regs : List (Nat × Word) := []
  /-- SRAM, DRAM and MRAM words, default the unwritten marker (04 R134, R137); log entry 2. -/
  mem : List (Nat × MWord) := []
  /-- The voted core complex and the service cores. -/
  cx : CoreState := {}
  sc0 : CoreState := { stopped := true }
  sc1 : CoreState := { stopped := true }
  core : CoreBlock := {}
  memb : MemBlock := {}
  cyc : CycBlock := {}
  afe : AfeBlock := {}
  pe : PeBlock := {}
  girth : GirthBlock := {}
  recb : RecBlock := {}
  fio : FioBlock := {}
  alp : AlpBlock := {}
  net : NetBlock := {}
  time : TimeBlock := {}
  oct : OctBlock := {}
  brg : BrgBlock := {}
  pair : PairBlock := {}
  sys : SysBlock := {}
  /-- Flash words by byte offset, default erased 0xFFFF_FFFF (01 R19). -/
  flash : List (Nat × Word) := []
  /-- Byte offsets of flash words with an uncorrectable error (04 R152). -/
  flashBad : List Nat := []
  /-- Network buffer words by byte offset (01 R19); log entry 2. -/
  netbuf : List (Nat × Word) := []
  /-- MONO in ns (00 R7). -/
  mono : Nat := 0
  /-- SYNC in units of 2^-32 ns (11 R392). -/
  sync : Nat := 0
  /-- Events emitted and not yet received by REC, oldest first (09 R320). -/
  emitted : List Event := []
  /-- The value the last register read returned to its requester. The model's own; DESIGN CHOICE 0 at reset, log entry 7. -/
  busData : Word := 0#32
  /-- The last register access of REGISTER_WRITE or of a maintenance datagram got an error response. The model's own; DESIGN CHOICE
  false at reset, log entry 7. -/
  busError : Bool := false
  /-- Counter of the free values drawn. The model's own; DESIGN CHOICE 0 at reset, log entry 5. -/
  free : Nat := 0
  /-- The commands waiting, first in, first out. -/
  pending : List Instr := []
deriving DecidableEq, Repr

/-- The module right after reset: every register at its reset value, every memory with nothing listed, no
command waiting. -/
def State.reset : State := {}

/-- Reasons to stop with a fault. No command of this block raises one: every row of the opcode table has an
effect in the spec. The one constructor keeps the type inhabited. -/
inductive Fault where
  /-- Raised by nobody; safe. -/
  | none
deriving DecidableEq, Repr

/-- Reasons to refuse a command. -/
inductive Refusal where
  /-- The command has no meaning in the model yet; safe. -/
  | notModelled (mnemonic : String)
deriving DecidableEq, Repr

end Sys2Proof.Machine
end

