-- ==== Sys2Proof/Machine/Ops.lean ====
section
/-!
DEFINITION. The named operations every block uses: registers and their fields, events, time, mailboxes, the
operating mode, SAFE demands, partitions.
-/

namespace Sys2Proof.Machine

open Reg

/-! ### Registers -/

/-- The value of the register with this key. -/
def State.rd (s : State) (key : Nat) : Word := CMap.lookup resetOf s.regs key

/-- Set the register with this key. -/
def State.wr (s : State) (key : Nat) (v : Word) : State := { s with regs := CMap.put resetOf s.regs key v }

/-- The mask of a field. -/
def fieldMask (lo n : Nat) : Word := BitVec.ofNat 32 ((2 ^ n - 1) * 2 ^ lo)

/-- `w` with bits [lo + n - 1 : lo] set to `v` modulo 2^n. -/
def fieldPut (w : Word) (lo n v : Nat) : Word :=
  (w &&& ~~~ fieldMask lo n) ||| BitVec.ofNat 32 (v % 2 ^ n * 2 ^ lo)

/-- The bits of the register at `addr` whose fields satisfy `p`. -/
def maskOf (p : Access → Bool) (addr : Nat) : Word :=
  match regInfo addr with
  | none => 0
  | some i => i.fields.foldl (fun w f =>
      if p f.acc then (List.range f.cnt).foldl (fun w k => w ||| fieldMask (f.lo + k * f.rep) f.w) w else w) 0#32

/-- The bits of the register at `addr` that belong to a field; the others are reserved and read 0 (00 R4). -/
def fieldBits (addr : Nat) : Word := maskOf (fun _ => true) addr

/-- Bits [lo + n - 1 : lo] of `w`. -/
def fieldGet (w : Word) (lo n : Nat) : Nat := w.toNat / 2 ^ lo % 2 ^ n

/-- A field's value. -/
def State.get (s : State) (f : Fld) : Nat := fieldGet (s.rd f.reg) f.lo f.w

/-- Set a field, modulo its width. -/
def State.set (s : State) (f : Fld) (v : Nat) : State := s.wr f.reg (fieldPut (s.rd f.reg) f.lo f.w v)

/-- A one-bit field as a Bool. -/
def State.bit (s : State) (f : Fld) : Bool := s.get f != 0

/-- Set a field to a Bool. -/
def State.setBit (s : State) (f : Fld) (b : Bool) : State := s.set f b.toNat

/-- Increment a field, saturating at its maximum. -/
def State.inc (s : State) (f : Fld) (n : Nat := 1) : State := s.set f (min (s.get f + n) (2 ^ f.w - 1))

/-- `if c then f s else s`, for effects under a condition. -/
def State.when (s : State) (c : Bool) (f : State → State) : State := if c then f s else s

/-- Signed value of an `n`-bit number. -/
def signedOf (n v : Nat) : Int := if v < 2 ^ (n - 1) then (v : Int) else (v : Int) - 2 ^ n

/-- The `n`-bit two's complement pattern of an integer. -/
def patternOf (n : Nat) (i : Int) : Nat := (i % 2 ^ n).toNat

/-- A signed field's value. -/
def State.sget (s : State) (f : Fld) : Int := signedOf f.w (s.get f)

/-- Set a signed field, modulo its width. -/
def State.sset (s : State) (f : Fld) (i : Int) : State := s.set f (patternOf f.w i)

/-! ### Time -/

/-- Latched fault bits of outputs 1 to 16 in FIO or in Girth (10 R361, word 4). -/
def State.outputFaults (s : State) : Nat :=
  (List.range 16).foldl (fun w i =>
    let f := s.bit (FIO_OnSTAT_OVL (i + 1)) || s.bit (FIO_OnSTAT_EXTD (i + 1)) || s.bit (FIO_OnSTAT_TPF (i + 1))
      || s.bit (FIO_OnSTAT_WIRED (i + 1)) || (decide (i < 4) && s.bit (GIRTH_SOUT_FAULT i))
    w + if f then 2 ^ i else 0) 0

/-- The FIO input block as it stands (10 R361). -/
def State.fioWords (s : State) : List Word :=
  [s.rd FIO_IN, s.rd FIO_WB, s.rd GIRTH_SIN &&& 0x07070707#32,
    BitVec.ofNat 32 (s.get FIO_OUT_RB + s.get GIRTH_STAT_TOUTON * 2 ^ 16), BitVec.ofNat 32 s.outputFaults,
    BitVec.ofNat 32 (s.get FIO_STAT_FS1 + s.get FIO_STAT_FS2 * 4),
    BitVec.ofNat 32 (s.get FIO_FS1_MV + s.get FIO_FS2_MV * 2 ^ 16)]

/-- FIO's samples at the multiples of 10 µs after the present MONO and up to `t` (10 R361); the last two are kept. -/
def State.fioSample (s : State) (t : Nat) : State :=
  let k := t / 10000 * 10000
  if k ≤ s.mono then s
  else
    let w := s.fioWords
    let before := if s.mono + 10000 < k then (k - 10000, w) else s.fio.cur
    { s with fio := { s.fio with cur := (k, w), prev := before } }

/-- Time reaches MONO `t`: SYNC advances by (1 + RATE x 2^-32) ns per ns (11 R392); FIO takes its samples. Time never
runs back. -/
def State.advance (s : State) (t : Nat) : State :=
  if t ≤ s.mono then s
  else { s.fioSample t with
    mono := t
    sync := s.sync + ((t - s.mono : Nat) * ((2 : Int) ^ 32 + s.sget ⟨TIME_RATE, 0, 32⟩)).toNat }

/-- The deviation of Girth's crystal in second `k` of MONO, in parts per 10^9: a Girth time t lies between t × (1 - 50 × 10^-6) and
t × (1 + 50 × 10^-6) on MONO (08 R276). -/
def girthRate (k : Nat) : Int := max (-49997) (min 50002 (Config.girthPpb k))

/-- What the deviation has come to after `k` seconds of MONO, in ns. -/
def girthDrift : Nat → Int
  | 0 => 0
  | k + 1 => girthDrift k + girthRate k

/-- Girth's own time in ns at a MONO (08 R276). -/
def girthTime (m : Nat) : Nat :=
  (m + girthDrift (m / 1000000000) + girthRate (m / 1000000000) * (m % 1000000000 : Nat) / 1000000000).toNat

/-- The time of Girth's own crystal (08 R276). -/
def State.gx (s : State) : Nat := girthTime s.mono

/-- Operating seconds (09 R326), the content of REC_OPSEC. -/
def State.opsec (s : State) : Nat :=
  match s.recb.opsFrom with
  | some t => min (s.recb.opsBase + (s.mono - t) / 1000000000) 0xFFFFFFFF
  | none => s.recb.opsBase

/-- The tick number (01 R22). -/
def State.tick (s : State) : Nat := s.mono / 125000

/-! ### Events -/

/-- The LASTEVT fields of the mailboxes of the blocks that own an event class (00 R8 to R11). DEDUCED: every
mailbox of the block shows the block's last emitted event sequence, log entry 8. REC's is the number of the last
record (09 R321) and is set where REC numbers it. -/
def lastEvtFields : Nat → List Fld
  | 0x1 => [CORE_DBGSEQ_LASTEVT]
  | 0x2 => [MEM_CLRSEQ_LASTEVT]
  | 0x3 => [CYC_CMDSEQ_LASTEVT, CYC_FSEQ_LASTEVT, CYC_OCSEQ_LASTEVT]
  | 0x4 => [TIME_SEQ_LASTEVT]
  | 0x5 => [PE_LSEQ_LASTEVT, PE_PSEQ_LASTEVT]
  | 0x6 => [GIRTH_SEQ_LASTEVT]
  | 0x7 => [FIO_SEQ_LASTEVT, ALP_SEQ_LASTEVT, ALP_HnSEQ_LASTEVT 0, ALP_HnSEQ_LASTEVT 1, ALP_HnSEQ_LASTEVT 2,
      ALP_HnSEQ_LASTEVT 3, ALP_HnSEQ_LASTEVT 4, ALP_HnSEQ_LASTEVT 5, ALP_HnSEQ_LASTEVT 6, ALP_HnSEQ_LASTEVT 7]
  | 0x8 => [NET_SEQ_LASTEVT]
  | 0x9 => [OCT_SEQ_LASTEVT]
  | 0xA => [BRG_SEQ_LASTEVT]
  | 0xB => [PAIR_SEQ_LASTEVT]
  | 0xD => [BIST_MSEQ_LASTEVT]
  | 0xE => [SYS_SEQ_LASTEVT]
  | _ => []

/-- Emit an event: the sequences advance and the event goes to REC (09 R320). -/
def State.emit (s : State) (code : Nat) (vals : List Nat) : State :=
  let s := (lastEvtFields (code / 0x1000)).foldl (fun s f => s.set f (s.get f + 1)) s
  { s with emitted := s.emitted ++ [⟨code, vals, s.mono⟩] }

/-! ### Mailboxes -/

/-- What a mailbox does with a command sequence (00 R9). -/
inductive Acceptance where | accept | answerAgain | sequenceError
deriving DecidableEq, Repr

/-- The rule of 00 R9, compared modulo 2^16. -/
def State.acceptance (s : State) (last : Fld) (cseq : Nat) : Acceptance :=
  if cseq % 0x10000 = (s.get last + 1) % 0x10000 then .accept
  else if cseq % 0x10000 = s.get last then .answerAgain
  else .sequenceError

/-- The result of the last accepted command of the mailbox whose sequence register is `key`; none: it is still in progress. -/
def State.lastResult (s : State) (key : Nat) : Option Nat := CMap.lookup (fun _ => some 0) s.sys.results key

/-- Keep the result of the last accepted command for a repeat. -/
def State.keepResult (s : State) (last : Fld) (r : Option Nat) : State :=
  { s with sys := { s.sys with results := CMap.put (fun _ => some 0) s.sys.results last.reg r } }

/-- Report result `r` of an accepted command. -/
def State.answer (s : State) (last res : Fld) (r : Nat) : State := (s.set res r).keepResult last (some r)

/-- The command just accepted has a result to come. -/
def State.markLate (s : State) (last : Fld) : State :=
  { s with sys := { s.sys with late := CMap.put (fun _ => none) s.sys.late last.reg (some (s.get last)) } }

/-- No command of the mailbox has a result to come any more. -/
def State.clearLate (s : State) (last : Fld) : State :=
  { s with sys := { s.sys with late := CMap.put (fun _ => none) s.sys.late last.reg none } }

/-- Report the result of a command that has been in progress: a repeat is answered with it while that command is the last accepted
one (00 R9). DESIGN CHOICE, log entry 8: where a later command has been accepted meanwhile, the result register shows the result of the
command that ends, as it comes; the spec does not say what it reads then. -/
def State.answerLate (s : State) (last res : Fld) (r : Nat) : State :=
  let own := decide (CMap.lookup (fun _ => none) s.sys.late last.reg = some (s.get last))
  ((s.set res r).when own fun s => s.keepResult last (some r)).clearLate last

/-- A repeat is answered again; one whose result is still to come waits for it (00 R9). -/
def State.repeatAnswer (s : State) (last res : Fld) : State :=
  match s.lastResult last.reg with
  | some r => s.set res r
  | none => s

/-- A command at a mailbox (00 R9): `act` is run on an accepted command and gives its result code;
`refuse` reports a sequence error beside its result (only REC and SYS emit for it). -/
def State.mailbox (s : State) (last res : Fld) (cseq : Nat) (act : State → State × Nat)
    (errorCode : Nat := 7) (refuse : State → State := id) : State :=
  match s.acceptance last cseq with
  | .accept =>
    let (s, r) := act (s.set last cseq)
    s.answer last res r
  | .answerAgain => s.repeatAnswer last res
  | .sequenceError => refuse (s.set res errorCode)

/-- A command at a mailbox whose result may come later: `act` gives none for a command still in progress. -/
def State.mailboxLater (s : State) (last res : Fld) (cseq : Nat) (act : State → State × Option Nat)
    (errorCode : Nat := 7) (refuse : State → State := id) : State :=
  match s.acceptance last cseq with
  | .accept =>
    match act (s.set last cseq) with
    | (s, some r) => s.answer last res r
    | (s, none) => (s.keepResult last none).markLate last
  | .answerAgain => s.repeatAnswer last res
  | .sequenceError => refuse (s.set res errorCode)

/-! ### Operating mode and SAFE demands -/

/-- The operating modes of 00 R12, by their codes. -/
inductive Mode where
  | powerup | boot | startTest | load | configure | stop | run | runDegraded | standby | resync | service | safe
deriving DecidableEq, Repr

/-- The code of a mode (00 R12). -/
def Mode.code : Mode → Nat
  | powerup => 0 | boot => 1 | startTest => 2 | load => 3 | configure => 4 | stop => 5 | run => 6
  | runDegraded => 7 | standby => 8 | resync => 9 | service => 10 | safe => 11

/-- The mode of a code; codes 12 to 15 are never reported (00 R12). -/
def Mode.ofCode : Nat → Mode
  | 0 => powerup | 1 => boot | 2 => startTest | 3 => load | 4 => configure | 5 => stop | 6 => run
  | 7 => runDegraded | 8 => standby | 9 => resync | 10 => service | _ => safe

/-- The operating mode. -/
def State.mode (s : State) : Mode := Mode.ofCode (s.get SYS_MODE_MODE)

/-- Put the mode registers at a mode, without an event. -/
def State.putMode (s : State) (m : Mode) : State :=
  (s.set SYS_MODE_PREV (s.get SYS_MODE_MODE)).set SYS_MODE_MODE m.code

/-- The module has accepted its configuration: of a refused one nothing is applied (01 R30). -/
def State.configured (s : State) : Bool := s.bit SYS_STAT_CFGOK

/-- Change the mode with event 0xE001: old mode, new mode, cause code of 15 R546. -/
def State.toMode (s : State) (m : Mode) (cause : Nat) : State :=
  if s.mode = m then s else (s.putMode m).emit 0xE001 [s.mode.code, m.code, cause]

/-- A message for the partner goes out over the cross-link (14 R472, R482, R483). -/
def State.tellPartner (s : State) (m : PairMessage) : State :=
  s.when (s.get PAIR_CFG_MODE != 0 && s.bit PAIR_STAT_XL) fun s => { s with pair := { s.pair with sentMessage := some m } }

/-- The life-cycle states of 00 R13, by their codes. -/
def State.lifeCycle (s : State) : Nat := s.get SYS_LC_STATE

/-- Fields of access L take a write in BLANK, MANUFACTURE and COMMISSION (00 R5). -/
def State.lcWritable (s : State) : Bool := decide (s.lifeCycle ≤ 2)

/-- A SAFE demand on its way to Girth (08 R283). -/
def State.demand (s : State) (cause detail : Nat) : State :=
  { s with sys := { s.sys with demands := s.sys.demands ++ [(cause, detail)] } }

/-- SYS demands SAFE with a code (15 R503): the first demand since reset is recorded and emits 0xE005. -/
def State.sysDemand (s : State) (code detail : Nat) : State :=
  let s := s.when (s.get SYS_SAFED_CODE == 0) fun s =>
    ((s.set SYS_SAFED_CODE code).set SYS_SAFED_DETAIL detail).emit 0xE005 [code, detail]
  s.demand 3 code

/-- A guarantee break (01 R34): the victim tier's counter and event 0xE004. -/
def State.guaranteeBreak (s : State) (victim benef victimTier benefTier resource shortfall : Nat) : State :=
  (s.inc (SYS_GBRKt_COUNT victimTier)).emit 0xE004
    [benef * 0x10000 + victim, benefTier * 0x1000000 + victimTier * 0x10000 + resource, s.tick % 2 ^ 32, shortfall]

/-! ### Partitions -/

/-- The declaration of partition `p` (01 R16). -/
def State.partition (s : State) (p : Nat) : Option Partition := s.sys.parts.find? fun q => q.index == p

/-- Whether partition `p` is declared a safety partition. -/
def State.isSafety (s : State) (p : Nat) : Bool := ((s.partition p).map (·.safety)).getD false

/-- Whether bytes [lo, hi] lie in the window or in one granted range of the partition (01 R21). -/
def Partition.reaches (q : Partition) (lo hi : Nat) : Bool :=
  (decide (q.lo ≤ lo) && decide (hi ≤ q.hi)) || q.grants.any fun g => decide (g.1 ≤ lo) && decide (hi ≤ g.2)

/-- Whether partition `p` may reach bytes [lo, hi]; an undeclared partition has no window (01 R16). -/
def State.reaches (s : State) (p lo hi : Nat) : Bool := ((s.partition p).map (·.reaches lo hi)).getD false

/-- Change SYS beside its registers. -/
def State.withSys (s : State) (f : SysBlock → SysBlock) : State := { s with sys := f s.sys }

/-- Draw a free value. -/
def State.drawFree (s : State) : Word × State := (Config.freeValue s.free, { s with free := s.free + 1 })

end Sys2Proof.Machine
end

