-- ==== Sys2Proof/Machine/Overlay.lean ====
section
/-!
DEFINITION. Overlays over the base configuration (01 R32; 15 R502): laid over it by mask, and taken away again.
-/

namespace Sys2Proof.Machine

open Reg

/-- Set the bits of a register under a mask. -/
def State.setMasked (s : State) (key : Nat) (mask v : Word) : State := s.wr key ((s.rd key &&& ~~~mask) ||| (v &&& mask))

/-- Whether bit `i` of a mask is 1. -/
def bitOf (v i : Nat) : Bool := v / 2 ^ i % 2 == 1

/-- Set a field of an overlay, keeping what it covers. -/
def State.coverField (s : State) (f : Nat × Word × Word) : State :=
  let old := s.rd f.1 &&& f.2.1
  (s.withSys fun b => { b with under := (f.1, f.2.1, old) :: b.under }).setMasked f.1 f.2.1 f.2.2

/-- The overlays of a mask. -/
def State.overlaysOf (s : State) (mask : Nat) : List Overlay :=
  (s.sys.overlays.mapIdx fun i o => (i, o)).filterMap fun e => if bitOf mask e.1 then some e.2 else none

/-- Lay the overlays of a mask over the base. -/
def State.coverMask (s : State) (mask : Nat) : State :=
  (s.overlaysOf mask).foldl (fun (s : State) o => o.fields.foldl State.coverField s) s

/-- Take the overlays in force away. -/
def State.uncover (s : State) : State :=
  (s.sys.under.foldl (fun (s : State) u => s.setMasked u.1 u.2.1 u.2.2) s).withSys fun b => { b with under := [] }

/-- Change the base configuration while overlays are in force: they are taken away, and the same mask is laid over the changed base (01
R32). -/
def State.changeBase (s : State) (f : State → State) : State := (f s.uncover).coverMask (s.get SYS_OVSEL_ACTIVE)

end Sys2Proof.Machine
end

