-- ==== Sys2Proof/Machine/FieldOps.lean ====
section
/-!
DEFINITION. Operations of FIO and ALP (10): requests, conduction and readback of the outputs (R351 to R360), loop
currents and their alarms (R364 to R366).
-/

namespace Sys2Proof.Machine

open Reg

def State.withFio (s : State) (f : FioBlock → FioBlock) : State := { s with fio := f s.fio }
def State.withAlp (s : State) (f : AlpBlock → AlpBlock) : State := { s with alp := f s.alp }

/-- `w` with bit `i` set to `b`. -/
def putBit (w i : Nat) (b : Bool) : Nat :=
  if bitOf w i == b then w else if b then w + 2 ^ i else w - 2 ^ i

/-! ### FIO -/

/-- The supply group of an output, 1 or 2 (10 "Outputs"). -/
def groupOf (n : Nat) : Nat := if n ≤ 8 then 1 else 2

def State.supply (s : State) (g : Nat) : SupplyGroup := if g = 1 then s.fio.fs1 else s.fio.fs2

def State.setSupply (s : State) (g : Nat) (x : SupplyGroup) : State :=
  s.withFio fun b => if g = 1 then { b with fs1 := x } else { b with fs2 := x }

/-- FIO_STAT's state field and FIO_FS's register of a group. -/
def supplyField (g : Nat) : Fld := if g = 1 then FIO_STAT_FS1 else FIO_STAT_FS2
def supplyMv (g : Nat) : Fld := if g = 1 then FIO_FS1_MV else FIO_FS2_MV
def supplyQual (g : Nat) : Fld := if g = 1 then FIO_FS1_QUAL else FIO_FS2_QUAL

/-- A group's outputs follow the released requests (10 R359, R360). -/
def State.groupOn (s : State) (g : Nat) : Bool := decide (s.get (supplyField g) ≤ 1) && !(s.supply g).hold

/-- An output has a fault latched in FIO (10 R358). -/
def State.outputLatched (s : State) (n : Nat) : Bool :=
  s.bit (FIO_OnSTAT_OVL n) || s.bit (FIO_OnSTAT_EXTD n) || s.bit (FIO_OnSTAT_TPF n) || s.bit (FIO_OnSTAT_WIRED n)

/-- The released request of an output. -/
def State.requested (s : State) (n : Nat) : Bool := bitOf (s.get FIO_OUT_REQ) (n - 1)

/-- The readback of an output, 1 to 16, as FIO and Girth show it; PDRV of an output in diode-OR while it is commanded off (10 R355). -/
def State.setReadback (s : State) (n : Nat) (b : Bool) : State :=
  let s := (s.set FIO_OUT_RB (putBit (s.get FIO_OUT_RB) (n - 1) b)).setBit (FIO_OnSTAT_RB n) b
  if n ≤ 4 then s.setBit (GIRTH_SOUT_RB (n - 1)) b
  else s.setBit (FIO_OnSTAT_PDRV n) (b && s.bit (FIO_OnCFG_DIODEOR n) && !s.requested n)

/-- The high-side switch of an output as FIO drives it, tests apart (10 R351 to R353, R358 to R360). -/
def State.highSide (s : State) (n : Nat) : Bool :=
  s.requested n && s.groupOn (groupOf n) && !s.outputLatched n && decide (s.mode ≠ .safe)

/-- Output `n` conducts or not from now on: its readback follows. -/
def State.driveOutput (s : State) (n : Nat) : State :=
  let want := s.highSide n && !((s.fio.test.map (·.out)) == some n)
  let s := if s.requested n then s else s.setBit (FIO_OnSTAT_OPEN n) false
  if bitOf s.fio.on (n - 1) == want then s
  else
    let s := s.withFio fun b => { b with on := putBit b.on (n - 1) want }
    let started := want && !((s.fio.test.map (·.out)) == some n)
    let s := if started then s.withFio fun b => { b with testBase := CMap.put (fun _ => 0) b.testBase n s.mono } else s
    (s.setReadback n want).when (!want) fun s => s.set (FIO_OnSTAT_MA n) 0

/-- Outputs 5 to 16 follow their requests and conditions. -/
def State.driveOutputs (s : State) : State := ((List.range 12).map (· + 5)).foldl State.driveOutput s

/-- Show requests in FIO_OUT and FIO_OnSTAT. -/
def State.showRequests (s : State) (w : Nat) : State :=
  ((List.range 16).map (· + 1)).foldl (fun s n => s.setBit (FIO_OnSTAT_REQ n) (bitOf w (n - 1))) (s.set FIO_OUT_REQ w)

/-- Outputs 5 to 16 go off together when SYS_MODE becomes SAFE (10 R352). -/
def State.fioSafe (s : State) : State := (s.showRequests 0).driveOutputs

/-! ### ALP -/

def State.loop (s : State) (n : Nat) : LoopState := CMap.lookup (fun _ => {}) s.alp.channels n

def State.setLoop (s : State) (n : Nat) (x : LoopState) : State :=
  s.withAlp fun b => { b with channels := CMap.put (fun _ => {}) b.channels n x }

/-- The alarm current of a channel by its jumper (10 R366), in µA. ALM = 3 has no meaning in the spec: a free value. -/
def State.alarmCurrent (s : State) (n : Nat) : Nat :=
  match s.get (ALP_JMP_POS n) with
  | 3 => 21600
  | 2 =>
    match s.get (ALP_CHnCFG_ALM n) with
    | 0 => 3500
    | 1 => 21600
    | 2 => (s.loop n).driven
    | _ => (Config.freeValue s.free).toNat
  | _ => 3500

/-- An output channel drives the alarm current (10 R365, R366). -/
def State.loopAlarm (s : State) (n : Nat) : State :=
  let ua := s.alarmCurrent n
  let s := if s.get (ALP_JMP_POS n) = 2 ∧ s.get (ALP_CHnCFG_ALM n) = 3 then { s with free := s.free + 1 } else s
  (s.setLoop n { s.loop n with driven := ua }).setBit (ALP_CHnSTAT_ALARM n) true

/-- An output channel drives what its output block releases (10 R365). -/
def State.loopDrive (s : State) (n ua : Nat) : State :=
  if ua = 0 then (s.setBit (ALP_CHnSTAT_CLAMP n) false).loopAlarm n
  else
    let c := if ua < 3500 then 3500 else if 22000 < ua then 22000 else ua
    let s := s.setLoop n { s.loop n with driven := c }
    (s.setBit (ALP_CHnSTAT_ALARM n) false).setBit (ALP_CHnSTAT_CLAMP n) (c != ua)

/-- A release reaches a loop output (10 R365). -/
def State.loopRelease (s : State) (n : Nat) (w : Word) : State :=
  let s := s.setLoop n { s.loop n with released := w.toNat, releasedAt := s.mono }
  if s.get (ALP_CHnCFG_MODE n) = 2 ∧ s.alp.driving ∧ s.mode ≠ .safe then s.loopDrive n w.toNat else s

/-- An output channel begins to drive (10 R365). DEDUCED: before its first release it drives what its output block holds, 0 µA, which
means alarm; log entry 64. -/
def State.loopBegin (s : State) (n : Nat) : State :=
  let s := s.setLoop n { s.loop n with releasedAt := s.mono }
  if s.mode = .safe then s.loopAlarm n else s.loopDrive n (s.loop n).released

/-- The output channels begin to drive at the end of CONFIGURE (10 R365). -/
def State.alpBegin (s : State) : State :=
  (List.range 8).foldl (fun s n => if s.get (ALP_CHnCFG_MODE n) = 2 then s.loopBegin n else s)
    (s.withAlp fun b => { b with driving := true })

/-- A channel that a new mask makes an output begins to drive; one that it makes no output drives no more (10 R365; 15 R502). `old`: the
modes before it. -/
def State.loopsFollow (s : State) (old : List Nat) : State :=
  if !s.alp.driving then s
  else (List.range 8).foldl (fun s n =>
    let was := old[n]? == some 2
    let is := s.get (ALP_CHnCFG_MODE n) == 2
    if is && !was then s.loopBegin n
    else if was && !is then
      ((s.setLoop n { s.loop n with driven := 0 }).setBit (ALP_CHnSTAT_ALARM n) false).setBit (ALP_CHnSTAT_CLAMP n) false
    else s) s

/-- What output channel `n` drives: nothing while its regulator is blocked (10 R368). -/
def State.loopCurrent (s : State) (n : Nat) : Nat := if (s.loop n).cut then 0 else (s.loop n).driven

/-- Every output channel drives its alarm current in SAFE (10 R365). -/
def State.alpSafe (s : State) : State :=
  (List.range 8).foldl (fun s n =>
    if s.get (ALP_CHnCFG_MODE n) = 2 ∧ s.alp.driving then s.loopAlarm n else s) s

end Sys2Proof.Machine
end

