-- ==== Sys2Proof/Machine/Float.lean ====
section
/-!
DEFINITION. Binary32 and binary64 arithmetic of IEEE 754-2019 as the cores (03 R96) and PE (07 R251) use it, on
exact integers: operands are unpacked to sign, integer significand and exponent, the result is computed
exactly and rounded once. Flags are NX 1, UF 2, OF 4, DZ 8, NV 16, in the order of FPSR[6:2] (03 R85).
-/

namespace Sys2Proof.Machine

/-- A binary format: width of the exponent field and of the fraction. -/
structure FpFormat where
  eb : Nat
  mb : Nat
deriving DecidableEq, Repr

def binary32 : FpFormat := ⟨8, 23⟩
def binary64 : FpFormat := ⟨11, 52⟩

/-- Rounding modes by FPSR.RM: 0 to nearest ties to even, 1 toward zero, 2 toward +infinity, 3 toward -infinity. -/
inductive Rounding where | nearest | zero | up | down
deriving DecidableEq, Repr

def Rounding.ofCode : Nat → Rounding
  | 0 => nearest | 1 => zero | 2 => up | _ => down

/-- An unpacked operand; a finite one has the value (-1)^neg x m x 2^e with m > 0. -/
inductive FpVal where
  | nan (signalling : Bool)
  | inf (neg : Bool)
  | zero (neg : Bool)
  | fin (neg : Bool) (m : Nat) (e : Int)
deriving DecidableEq, Repr

def flagNX : Nat := 1
def flagUF : Nat := 2
def flagOF : Nat := 4
def flagDZ : Nat := 8
def flagNV : Nat := 16

namespace FpFormat

def bias (f : FpFormat) : Nat := 2 ^ (f.eb - 1) - 1
def emin (f : FpFormat) : Int := 1 - (f.bias : Int)
def signBit (f : FpFormat) (neg : Bool) : Nat := if neg then 2 ^ (f.eb + f.mb) else 0
def infBits (f : FpFormat) (neg : Bool) : Nat := f.signBit neg + (2 ^ f.eb - 1) * 2 ^ f.mb
def maxBits (f : FpFormat) (neg : Bool) : Nat := f.infBits neg - 1

/-- The canonical quiet NaN (03 R96). -/
def nanBits (f : FpFormat) : Nat := (2 ^ f.eb - 1) * 2 ^ f.mb + 2 ^ (f.mb - 1)

/-- Unpack a pattern. -/
def unpack (f : FpFormat) (x : Nat) : FpVal :=
  let neg := x / 2 ^ (f.eb + f.mb) % 2 == 1
  let ex := x / 2 ^ f.mb % 2 ^ f.eb
  let fr := x % 2 ^ f.mb
  if ex = 2 ^ f.eb - 1 then
    if fr = 0 then .inf neg else .nan (fr < 2 ^ (f.mb - 1))
  else if ex = 0 then
    if fr = 0 then .zero neg else .fin neg fr (f.emin - f.mb)
  else .fin neg (2 ^ f.mb + fr) ((ex : Int) - f.bias - f.mb)

end FpFormat

/-- Whether the significand is incremented: last bit `odd`, remainder `rem` of `2 * half`. -/
def Rounding.increments (rm : Rounding) (neg odd : Bool) (rem half : Nat) : Bool :=
  match rm with
  | .nearest => decide (half < rem) || (rem == half && odd)
  | .zero => false
  | .up => !neg && rem != 0
  | .down => neg && rem != 0

/-- Round m x 2^e to a multiple of 2^q: the multiple and whether it is inexact. -/
def roundAt (rm : Rounding) (neg : Bool) (m : Nat) (e q : Int) : Nat × Bool :=
  if q ≤ e then (m * 2 ^ (e - q).toNat, false)
  else
    let sh := (q - e).toNat
    let t := m / 2 ^ sh
    let rem := m % 2 ^ sh
    (if rm.increments neg (t % 2 == 1) rem (2 ^ (sh - 1)) then t + 1 else t, rem != 0)

/-- Round an exact non-zero value to the format: pattern and flags. -/
def FpFormat.round (f : FpFormat) (rm : Rounding) (neg : Bool) (m : Nat) (e : Int) : Nat × Nat :=
  let top := e + (Nat.log2 m : Int)
  let q := max (top - f.mb) (f.emin - f.mb)
  let (t, inexact) := roundAt rm neg m e q
  let (t, q) := if t = 2 ^ (f.mb + 1) then (2 ^ f.mb, q + 1) else (t, q)
  let expo := q + f.mb
  if (f.bias : Int) < expo then
    let toInf := match rm with
      | .nearest => true | .zero => false | .up => !neg | .down => neg
    (if toInf then f.infBits neg else f.maxBits neg, flagOF + flagNX)
  else
    let unbounded := roundAt rm neg m e (top - f.mb)
    let tiny := if Config.tininessAfterRounding then
        decide (top < f.emin) && !(decide (top = f.emin - 1) && unbounded.1 == 2 ^ (f.mb + 1))
      else decide (top < f.emin)
    let flags := if inexact then flagNX + (if tiny then flagUF else 0) else 0
    if t < 2 ^ f.mb then (f.signBit neg + t, flags)
    else (f.signBit neg + (expo + f.bias).toNat * 2 ^ f.mb + (t - 2 ^ f.mb), flags)

namespace FpFormat

/-- The result NaN with NV if one of the operands is signalling. -/
def quiet (f : FpFormat) (signalling : Bool) : Nat × Nat := (f.nanBits, if signalling then flagNV else 0)

/-- The invalid-operation result. -/
def invalid (f : FpFormat) : Nat × Nat := (f.nanBits, flagNV)

end FpFormat

def FpVal.isNan : FpVal → Bool
  | .nan _ => true
  | _ => false

def FpVal.isSignalling : FpVal → Bool
  | .nan s => s
  | _ => false

def FpVal.neg : FpVal → Bool
  | .nan _ => false
  | .inf n => n
  | .zero n => n
  | .fin n _ _ => n

def FpVal.negate : FpVal → FpVal
  | .nan s => .nan s
  | .inf n => .inf !n
  | .zero n => .zero !n
  | .fin n m e => .fin (!n) m e

/-- The integer (-1)^neg x m. -/
def signedSig (neg : Bool) (m : Nat) : Int := if neg then -(m : Int) else m

/-- Sum of two operands, rounded once. -/
def fpAdd (f : FpFormat) (rm : Rounding) (a b : FpVal) : Nat × Nat :=
  match a, b with
  | .nan s, y => f.quiet (s || y.isSignalling)
  | x, .nan s => f.quiet (s || x.isSignalling)
  | .inf x, .inf y => if x = y then (f.infBits x, 0) else f.invalid
  | .inf x, _ => (f.infBits x, 0)
  | _, .inf y => (f.infBits y, 0)
  | .zero x, .zero y => (f.signBit (if x = y then x else rm == .down), 0)
  | .zero _, .fin n m e => f.round rm n m e
  | .fin n m e, .zero _ => f.round rm n m e
  | .fin n1 m1 e1, .fin n2 m2 e2 =>
    let e := min e1 e2
    let v := signedSig n1 (m1 * 2 ^ (e1 - e).toNat) + signedSig n2 (m2 * 2 ^ (e2 - e).toNat)
    if v = 0 then (f.signBit (rm == .down), 0) else f.round rm (decide (v < 0)) v.natAbs e

/-- Exact product of two operands that are not NaN; none: 0 x infinity. -/
def fpProduct (a b : FpVal) : Option FpVal :=
  let n := a.neg != b.neg
  match a, b with
  | .inf _, .zero _ => none
  | .zero _, .inf _ => none
  | .inf _, _ => some (.inf n)
  | _, .inf _ => some (.inf n)
  | .zero _, _ => some (.zero n)
  | _, .zero _ => some (.zero n)
  | .fin _ m1 e1, .fin _ m2 e2 => some (.fin n (m1 * m2) (e1 + e2))
  | _, _ => none

/-- A value as a pattern, rounded once. -/
def FpFormat.pack (f : FpFormat) (rm : Rounding) : FpVal → Nat × Nat
  | .nan s => f.quiet s
  | .inf n => (f.infBits n, 0)
  | .zero n => (f.signBit n, 0)
  | .fin n m e => f.round rm n m e

def fpMul (f : FpFormat) (rm : Rounding) (a b : FpVal) : Nat × Nat :=
  if a.isNan || b.isNan then f.quiet (a.isSignalling || b.isSignalling)
  else match fpProduct a b with
    | some p => f.pack rm p
    | none => f.invalid

/-- a x b + c, rounded once. -/
def fpFused (f : FpFormat) (rm : Rounding) (a b c : FpVal) : Nat × Nat :=
  if a.isNan || b.isNan then f.quiet (a.isSignalling || b.isSignalling || c.isSignalling)
  else match fpProduct a b with
    | some p => fpAdd f rm p c
    | none =>
      if c.isNan then (f.nanBits, if c.isSignalling || Config.fusedZeroInfinityInvalid then flagNV else 0)
      else f.invalid

/-- Quotient; the significand quotient keeps mb + 3 bits and a sticky bit. -/
def fpDiv (f : FpFormat) (rm : Rounding) (a b : FpVal) : Nat × Nat :=
  let n := a.neg != b.neg
  match a, b with
  | .nan s, y => f.quiet (s || y.isSignalling)
  | x, .nan s => f.quiet (s || x.isSignalling)
  | .inf _, .inf _ => f.invalid
  | .zero _, .zero _ => f.invalid
  | .inf _, _ => (f.infBits n, 0)
  | _, .inf _ => (f.signBit n, 0)
  | .zero _, _ => (f.signBit n, 0)
  | _, .zero _ => (f.infBits n, flagDZ)
  | .fin _ m1 e1, .fin _ m2 e2 =>
    let k := 2 * f.mb + 6
    let num := m1 * 2 ^ k
    f.round rm n (num / m2 * 2 + (if num % m2 = 0 then 0 else 1)) (e1 - e2 - k - 1)

/-- Integer square root from bit `i` - 1 down; `r` is the root so far. -/
def rootFrom : Nat → Nat → Nat → Nat
  | 0, _, r => r
  | i + 1, x, r => rootFrom i x (if (r + 2 ^ i) * (r + 2 ^ i) ≤ x then r + 2 ^ i else r)

def fpSqrt (f : FpFormat) (rm : Rounding) (a : FpVal) : Nat × Nat :=
  match a with
  | .nan s => f.quiet s
  | .zero n => (f.signBit n, 0)
  | .inf n => if n then f.invalid else (f.infBits false, 0)
  | .fin n m e =>
    if n then f.invalid
    else
      let k := 2 * f.mb + 6 + (e % 2).toNat
      let x := m * 2 ^ k
      let r := rootFrom (2 * f.mb + 5) x 0
      f.round rm false (r * 2 + (if r * r = x then 0 else 1)) ((e - k) / 2 - 1)

/-- Order of two operands that are not NaN, -0 and +0 equal. -/
def fpLess (a b : FpVal) : Bool :=
  match a, b with
  | .inf x, .inf y => x && !y
  | .inf x, _ => x
  | _, .inf y => !y
  | .zero _, .zero _ => false
  | .zero _, .fin n _ _ => !n
  | .fin n _ _, .zero _ => n
  | .fin n1 m1 e1, .fin n2 m2 e2 =>
    let e := min e1 e2
    decide (signedSig n1 (m1 * 2 ^ (e1 - e).toNat) < signedSig n2 (m2 * 2 ^ (e2 - e).toNat))
  | _, _ => false

def fpEqual (a b : FpVal) : Bool := !a.isNan && !b.isNan && !fpLess a b && !fpLess b a

/-- Smaller of two operands, -0 below +0. -/
def fpBelow (a b : FpVal) : Bool :=
  match a, b with
  | .zero x, .zero y => x && !y
  | _, _ => fpLess a b

/-- FMIN or FMAX on patterns (03 R96): with one NaN the other operand; a signalling NaN raises NV. -/
def fpMinMax (f : FpFormat) (max : Bool) (x y : Nat) : Nat × Nat :=
  let a := f.unpack x
  let b := f.unpack y
  let flags := if a.isSignalling || b.isSignalling then flagNV else 0
  if a.isNan && b.isNan then (f.nanBits, flags)
  else if a.isNan then (y, flags)
  else if b.isNan then (x, flags)
  else if max then (if fpBelow a b then y else x, 0)
  else (if fpBelow b a then y else x, 0)

/-- Round to an integer: the integer and whether it is inexact. -/
def fpToInt (rm : Rounding) (a : FpVal) : Int × Bool :=
  match a with
  | .fin n m e =>
    let (t, inexact) := roundAt rm n m e 0
    (signedSig n t, inexact)
  | _ => (0, false)

/-- Conversion to an integer in [lo, hi], saturating; a NaN gives 0; NV in each of these cases. -/
def fpToRange (rm : Rounding) (a : FpVal) (lo hi : Int) : Int × Nat :=
  match a with
  | .nan _ => (0, flagNV)
  | .inf n => (if n then lo else hi, flagNV)
  | a =>
    let (v, inexact) := fpToInt rm a
    if v < lo then (lo, flagNV) else if hi < v then (hi, flagNV) else (v, if inexact then flagNX else 0)

/-- An integer scaled by 2^e, rounded to the format. -/
def fpOfInt (f : FpFormat) (rm : Rounding) (v : Int) (e : Int := 0) : Nat × Nat :=
  if v = 0 then (f.signBit false, 0) else f.round rm (decide (v < 0)) v.natAbs e

/-- The class code of FCLS (03 R96). -/
def fpClass (f : FpFormat) (x : Nat) : Nat :=
  match f.unpack x with
  | .zero n => n.toNat
  | .fin n m _ => (if m < 2 ^ f.mb then 2 else 4) + n.toNat
  | .inf n => 6 + n.toNat
  | .nan s => if s then 9 else 8

end Sys2Proof.Machine
end

