-- ==== Sys2Proof/Machine/Crc.lean ====
section
/-!
DEFINITION. The cyclic redundancy checks of the manual: CRC-32C (09 R321) over bytes.
-/

namespace Sys2Proof.Machine

/-- One reflected shift by a bit (09 R321). -/
def crcStep (r : Nat) : Nat := if r % 2 = 1 then Nat.xor (r / 2) 0x82F63B78 else r / 2

/-- A byte into the register. -/
def crcByte (r b : Nat) : Nat :=
  crcStep (crcStep (crcStep (crcStep (crcStep (crcStep (crcStep (crcStep (Nat.xor r b))))))))

/-- CRC-32C of a list of bytes: 0x1EDC6F41 reflected, initial value and final exclusive-OR of all ones (09 R321). -/
def crc32c (bytes : List Nat) : Nat := Nat.xor (bytes.foldl crcByte 0xFFFFFFFF) 0xFFFFFFFF

/-- The four bytes of a word, low byte first. -/
def wordBytes (w : Word) : List Nat :=
  let n := w.toNat
  [n % 256, n / 256 % 256, n / 65536 % 256, n / 16777216]

/-- `n` bytes of a number, low byte first. -/
def natBytes : Nat → Nat → List Nat
  | 0, _ => []
  | n + 1, v => v % 256 :: natBytes n (v / 256)

/-- CRC-32C of words, low byte of each first. -/
def crcWords (ws : List Word) : Nat := crc32c (ws.flatMap wordBytes)

/-- CRC-32 of IEEE 802.3 over bytes, the header check sequence of a PD header (11 R383). PRESUMED: IEC 61375-2-3, log entry 20. -/
def crc32 (bytes : List Nat) : Nat :=
  let step := fun (r : Nat) => if r % 2 = 1 then Nat.xor (r / 2) 0xEDB88320 else r / 2
  Nat.xor (bytes.foldl (fun r b => (List.range 8).foldl (fun r _ => step r) (Nat.xor r b)) 0xFFFFFFFF) 0xFFFFFFFF

end Sys2Proof.Machine
end

