-- ==== Sys2Proof/Machine/MemOps.lean ====
section
/-!
DEFINITION. The memory word operations of MEM: where words live, reads with correction, refetch and poison,
writes through the flip mask, the merge buffer, reservations (04; 03 R111 to R113).

A word's key is its core address in SRAM and MRAM, and 0x1_0000_0000 + its physical offset in DRAM.
-/

namespace Sys2Proof.Machine

open Reg

/-- The base of the DRAM keys. -/
def dramBase : Nat := 0x100000000

/-- The key of the first word of the disturbance ring, in the upper half of bank 2 up to the end of the data banks (09 R329). -/
def ringBase : Nat := dramBase + 0xA0000000

/-- The key of the aligned word holding a key. -/
def wordKey (k : Nat) : Nat := k - k % 4

/-- The space of a word key. -/
def spaceOf (k : Nat) : Space := if k < 0x10000000 then .sram else if k < dramBase then .mram else .dram

/-- Space codes of 04 R165. -/
def Space.code : Space → Nat
  | .sram => 0 | .dram => 1 | .mram => 2

/-- The address MEM reports: core address in SRAM and MRAM, physical offset in DRAM (04 R165). -/
def reported (k : Nat) : Nat := k % 0x100000000

/-- The module's own ranges of MRAM (04 R162). -/
def moduleMram (k : Nat) : Bool := decide (0x100E0000 ≤ k) && decide (k < 0x10100000)

/-- The stored word with key `k`. -/
def State.stored (s : State) (k : Nat) : MWord := CMap.lookup (fun _ => unwrittenMarker) s.mem k

/-- Whether a word can be reached now: DRAM initialised (04 R137), not under a range clear (04 R160). -/
def State.wordReachable (s : State) (k : Nat) : Bool :=
  (spaceOf k != .dram || s.bit MEM_STAT_DINIT) &&
    match s.memb.clear with
    | some (lo, hi) => !(decide (lo ≤ k) && decide (k ≤ hi))
    | none => true

/-- Replace the stored word with key `k`. -/
def State.store (s : State) (k : Nat) (w : MWord) : State :=
  { s with mem := CMap.put (fun _ => unwrittenMarker) s.mem k w }

/-- Change MEM's own state. -/
def State.withMem (s : State) (f : MemBlock → MemBlock) : State := { s with memb := f s.memb }

/-- Master numbers of MEM_ARBDAT.MASTER. -/
def masterCode : Master → Nat
  | .cx => 1 | .sc0 => 2 | .sc1 => 3

/-- Most merge-buffer entries a master may hold (04 R144). -/
def masterQuota : Master → Nat
  | .cx => 6 | .sc0 => 1 | .sc1 => 1

/-! ### Regions -/

/-- Whether enabled descriptor `n` covers the word (04 R141). -/
def State.regionCovers (s : State) (k n : Nat) : Bool :=
  s.bit (MEM_REGnL_EN n) && s.get (MEM_REGnB_SPACE n) == (spaceOf k).code
    && decide (s.get (MEM_REGnB_BASE n) ≤ reported k / 4096) && decide (reported k / 4096 ≤ s.get (MEM_REGnL_LIMIT n))

/-- The descriptor that covers a word, if one does (04 R141). -/
def State.regionOf (s : State) (k : Nat) : Option Nat := (List.range 32).find? (s.regionCovers k)

/-- An attribute of a word: false where no descriptor covers it. -/
def State.attr (s : State) (k : Nat) (f : Nat → Fld) : Bool := ((s.regionOf k).map fun n => s.bit (f n)).getD false

def State.isStrict (s : State) (k : Nat) : Bool := s.attr k MEM_REGnA_STRICT
def State.isSafetyWord (s : State) (k : Nat) : Bool := s.attr k MEM_REGnA_SAFETY

/-- The descriptor of a word in a CODE region. -/
def State.codeRegion (s : State) (k : Nat) : Option Nat :=
  match s.regionOf k with
  | some n => if s.bit (MEM_REGnA_CODE n) then some n else none
  | none => none

/-- The owner partition of a word (04 R141). -/
def State.ownerOf (s : State) (k : Nat) : Option Nat := (s.regionOf k).map fun n => s.get (MEM_REGnA_OWNER n)

/-! ### Poison queue and poisoning -/

/-- MEM_PQADDR and MEM_PQINFO show the head of the poison queue (04 R153). -/
def State.showPoison (s : State) : State :=
  match s.memb.pq with
  | [] => (((((s.set MEM_PQADDR_ADDR 0).set MEM_PQINFO_PART 0).set MEM_PQINFO_NOOWN 0).set MEM_PQINFO_SPACE 0).set
      MEM_PQINFO_SAFETY 0).set MEM_PQINFO_MASTER 0 |>.set MEM_PQINFO_DEPTH 0
  | e :: r => (((((s.set MEM_PQADDR_ADDR e.addr).set MEM_PQINFO_PART (e.owner.getD 0)).setBit MEM_PQINFO_NOOWN
      e.owner.isNone).set MEM_PQINFO_SPACE e.space.code).setBit MEM_PQINFO_SAFETY e.safety).set
      MEM_PQINFO_MASTER e.master |>.set MEM_PQINFO_DEPTH (r.length + 1)

/-- Place an entry in the poison queue; a full queue loses it and sets OVF (04 R153). -/
def State.queuePoison (s : State) (k master : Nat) : State :=
  if s.memb.pq.length ≥ 16 then s.setBit MEM_PQINFO_OVF true
  else (s.withMem fun m =>
    { m with pq := m.pq ++ [⟨reported k, spaceOf k, s.ownerOf k, s.isSafetyWord k, master⟩] }).showPoison

/-- A word's queued correction write-back is cancelled (04 R139). -/
def State.cancelWriteback (s : State) (k : Nat) : State := s.withMem fun m => { m with wback := m.wback.filter fun e => e.1 != k }

/-- Poison a word: marker, MEM_UECNT, event, queue entry (04 R153; R152 for a failed refetch). Only a full-word write clears the
marker (R154): a queued correction of the word is dropped with it. -/
def State.poison (s : State) (k master code : Nat) (vals : List Nat) : State :=
  ((((s.cancelWriteback k).store k poisonMarker).inc MEM_UECNT_COUNT).emit code vals).queuePoison k master

/-- The values of event 0x2004. -/
def State.poisonVals (s : State) (k : Nat) : List Nat :=
  [reported k, (spaceOf k).code, (s.ownerOf k).getD 0]

/-! ### Refetch -/

/-- The flash word at a byte offset. -/
def State.flashWord (s : State) (off : Nat) : Word := CMap.lookup (fun _ => 0xFFFFFFFF#32) s.flash (off - off % 4)

/-- Whether the 256-byte flash page of an offset is erased (04 R152; 15 R510 programs 256 bytes). -/
def State.flashErased (s : State) (off : Nat) : Bool := s.flash.all fun e => e.1 / 256 != off / 256

/-- The flash offset of a word of CODE region `n` (04 R142). -/
def State.imageOffset (s : State) (k n : Nat) : Nat :=
  s.get (MEM_REGnS_SRC n) + (reported k - s.get (MEM_REGnB_BASE n) * 4096)

/-- Refetch a word of CODE region `n` (04 R152): the data, or none with the word poisoned. -/
def State.refetch (s : State) (k n master : Nat) : State × Option Word :=
  let off := s.imageOffset k n
  if s.flashBad.contains (off - off % 4) || s.flashErased off then
    (s.poison k master 0x2005 [reported k, n], none)
  else
    let d := s.flashWord off
    (((s.cancelWriteback k).store k (encodeWord d)).emit 0x2003 [reported k, n, s.get (MEM_REGnS_SRC n)], some d)

/-! ### Corrections -/

/-- Count and report a correction and queue its write-back (04 R139); `scrub`: found by the scrubber. -/
def State.noteCorrection (s : State) (k : Nat) (w fixed : MWord) (vbit scrub : Bool) : State :=
  let s := (s.inc MEM_CECNT_COUNT).set MEM_LASTCE_ADDR (reported k)
  let s := (((s.set MEM_LASTCS_SYN (syndrome w)).setBit MEM_LASTCS_VBIT vbit).set MEM_LASTCS_SPACE
    (spaceOf k).code).setBit MEM_LASTCS_SRC scrub |>.set MEM_LASTCS_HARD 0
  let s := s.emit 0x2001 [reported k, (s.rd MEM_LASTCS).toNat]
  if scrub then s
  else s.withMem fun m => { m with wback := m.wback.filter (fun e => e.1 != k) ++ [(k, fixed)] }

/-! ### Writes -/

/-- A written 64-byte block is marked: of a tracked region, of a window that a bulk copy covers (14 R472, R480). -/
def State.markBlock (s : State) (k : Nat) : State :=
  let b := k / 64 * 64
  let tracked : Bool := match s.regionOf k with
    | some n => (List.range 16).any fun r => s.bit (PAIR_RrCFG_EN r) && s.get (PAIR_RrCFG_REGION r) == n
    | none => false
  let covered := s.pair.covered.any fun r => decide (r.1 ≤ k) && decide (k ≤ r.2)
  if s.get PAIR_CFG_MODE ≠ 0 ∧ (tracked ∨ covered) ∧ !s.pair.marks.contains b then { s with pair := { s.pair with marks := s.pair.marks ++ [b] } }
  else s

/-- A bus master writes a whole word, check bits included (04 R154, R158): flip mask, cancelled write-back. -/
def State.putWord (s : State) (k : Nat) (w : MWord) : State :=
  let s := (s.cancelWriteback k).markBlock k
  if s.memb.flip = some k then
    let mask := mword (s.bit MEM_FLIPC_VAL) (BitVec.ofNat 7 (s.get MEM_FLIPC_CHK)) (s.rd MEM_FLIPD)
    let s := (s.store k (w ^^^ mask)).withMem fun m => { m with flip := none }
    ((s.setBit MEM_FLIPCTL_ARM false).setBit MEM_FLIPCTL_DONE true).emit 0x200F
      [s.get MEM_FLIPA_VALUE, s.get MEM_FLIPD_VALUE, (s.rd MEM_FLIPC).toNat]
  else s.store k w

/-- A write of a whole word of data by a bus master (04 R154, R158). -/
def State.writeWord (s : State) (k : Nat) (d : Word) : State := s.putWord k (encodeWord d)

/-- The bytes of `new` enabled by `be` laid over `old`. -/
def mergeBytes (old new : Word) (be : BitVec 4) : Word :=
  let m : Word := (if be.getLsbD 0 then 0xFF#32 else 0) ||| (if be.getLsbD 1 then 0xFF00#32 else 0)
    ||| (if be.getLsbD 2 then 0xFF0000#32 else 0) ||| (if be.getLsbD 3 then 0xFF000000#32 else 0)
  (old &&& ~~~m) ||| (new &&& m)

/-- Discarded bytes of a partial write: event 0x2006 (04 R146). -/
def State.discardPartial (s : State) (k master part : Nat) : State := s.emit 0x2006 [reported k, master, part]

/-- A partial write of a word (04 R145, R146): read, correct, merge, write. -/
def State.readModifyWrite (s : State) (k : Nat) (be : BitVec 4) (d : Word) (master part : Nat) : State :=
  let w := s.stored k
  match classify w with
  | .unwritten fixed =>
    (s.when fixed fun s => s.noteCorrection k w unwrittenMarker false false).writeWord k (mergeBytes 0 d be)
  | .written old fixed vbit =>
    (s.when fixed fun s => s.noteCorrection k w (encodeWord old) vbit false).writeWord k (mergeBytes old d be)
  | .poisoned => (s.queuePoison k master).discardPartial k master part
  | .uncorrectable =>
    match s.codeRegion k with
    | some n =>
      match s.refetch k n master with
      | (s, some old) => s.writeWord k (mergeBytes old d be)
      | (s, none) => s.discardPartial k master part
    | none => (s.poison k master 0x2004 (s.poisonVals k)).discardPartial k master part

/-- Write bytes of a word: whole or by read-modify-write. -/
def State.writeBytes (s : State) (k : Nat) (be : BitVec 4) (d : Word) (master part : Nat) : State :=
  if be = 15#4 then s.writeWord k d else s.readModifyWrite k be d master part

/-! ### Merge buffer -/

/-- Write one merge-buffer entry to memory (04 R145). -/
def State.flushEntry (s : State) (e : MergeEntry) : State :=
  (s.withMem fun m => { m with merge := m.merge.filter (fun x => x != e) }).writeBytes e.key e.be e.data (masterCode e.owner) e.part

/-- Write the entries that satisfy `p`, oldest first. -/
def State.flushWhere (s : State) (p : MergeEntry → Bool) : State :=
  (s.memb.merge.filter p).foldl State.flushEntry s

/-- Entries of a word are written before the word is read (04 R145). -/
def State.flushWord (s : State) (k : Nat) : State := s.flushWhere fun e => e.key == k

/-- All entries of a master are written: BAR.M, BAR.W, IMC (04 R145). -/
def State.flushMaster (s : State) (c : Master) : State := s.flushWhere fun e => e.owner == c

/-- Reservations a write by `c` (none: another bus master) to the word clears (03 R112). -/
def State.breakReservations (s : State) (k : Nat) (c : Option Master) : State :=
  s.withMem fun m => { m with resv := m.resv.filter fun e => e.2 != k || some e.1 == c }

/-- Write an entry that has become full (04 R145). -/
def State.flushFull (s : State) (k : Nat) (c : Master) : State :=
  s.flushWhere fun e => e.key == k && e.owner == c && e.be == 15#4

/-- A store by a core enters the merge buffer (04 R144, R145). -/
def State.mergeStore (s : State) (c : Master) (k : Nat) (be : BitVec 4) (d : Word) (part : Nat) : State :=
  let s := s.breakReservations k (some c)
  let s := s.flushWhere fun e => e.key == k && e.owner != c
  if s.memb.merge.any fun e => e.key == k && e.owner == c then
    (s.withMem fun m => { m with merge := m.merge.map fun e =>
      if e.key == k && e.owner == c then { e with be := e.be ||| be, data := mergeBytes e.data d be } else e }).flushFull k c
  else
    let own := s.memb.merge.filter fun e => e.owner == c
    let s := match own with
      | e :: _ => if own.length ≥ masterQuota c then s.flushEntry e else s
      | [] => s
    (s.withMem fun m => { m with merge := m.merge ++ [⟨k, be, mergeBytes 0 d be, c, s.mono, part⟩] }).flushFull k c

/-- A write by CYC, PE, NET, Bridle or REC bypasses the merge buffer (04 R144, R145; 03 R112). In the module's own MRAM, in DRAM not yet
initialised and in a range under a clear it gets an error response and stores nothing (R137, R160, R162). -/
def State.agentWrite (s : State) (k : Nat) (be : BitVec 4) (d : Word) (master part : Nat) : State :=
  let s := s.breakReservations k none
  if moduleMram k || !s.wordReachable k then s else (s.flushWord k).writeBytes k be d master part

/-! ### Reads -/

/-- Who reads (04 R138): a load or a fetch of a core, CYC for a task of a partition, another block. -/
inductive Reader where
  | load (c : Master) (priv part : Nat)
  | fetch (c : Master) (priv part : Nat)
  | cyc (task part : Nat)
  | block (master part : Nat)
deriving DecidableEq, Repr

def Reader.master : Reader → Nat
  | .load c _ _ => masterCode c
  | .fetch c _ _ => masterCode c
  | .cyc _ _ => 4
  | .block m _ => m

def Reader.part : Reader → Nat
  | .load _ _ p => p
  | .fetch _ _ p => p
  | .cyc _ p => p
  | .block _ p => p

/-- What a read returns (04 R138). -/
inductive ReadResult where
  | data (d : Word)
  /-- Unwritten word in a strict region: cause 6 subcause 3. -/
  | strict
  /-- Error response: cause 6 or 3, subcause 4. -/
  | failed
  /-- The read waits for a refetch. -/
  | held
  /-- SAFE demanded; no response (04 R143). -/
  | noResponse
deriving DecidableEq, Repr

/-- Whether an unwritten word of a strict region is an exception for the reader (04 R138). -/
def Reader.strictTraps : Reader → Bool
  | .load .cx priv _ => priv == 0
  | .load _ _ _ => true
  | _ => false

/-- Whether a bad word in a safety region makes this reader demand SAFE (04 R143). -/
def State.safetyReader (s : State) : Reader → Bool
  | .load .cx priv _ => priv == 0
  | .fetch .cx priv _ => priv == 0
  | .cyc _ p => s.isSafety p
  | _ => false

/-- The task event 0x2007 names (04 R143). -/
def State.readTask (s : State) : Reader → Nat
  | .cyc t _ => t
  | .load .cx _ _ | .fetch .cx _ _ => if s.bit CYC_RUN_VALID then s.get CYC_RUN_TASK else 0xFFFFFFFF
  | _ => 0xFFFFFFFF

/-- A read met a poisoned word (04 R138, R143). -/
def State.badRead (s : State) (k : Nat) (r : Reader) : State × ReadResult :=
  if s.isSafetyWord k && s.safetyReader r then
    ((s.emit 0x2007 [reported k, r.part, s.readTask r]).sysDemand 2 (reported k % 0x10000), .noResponse)
  else (s, .failed)

/-- Read a word (04 R138, R139, R152, R153). A core waits for a refetch; another block receives it at once. Event 0x2008 reports
every read of an unwritten word of a strict region, also one that is answered with 0 (R164). -/
def State.readWord (s : State) (k : Nat) (r : Reader) : State × ReadResult :=
  let s := s.flushWord k
  let w := s.stored k
  match classify w with
  | .unwritten fixed =>
    let s := s.when fixed fun s => s.noteCorrection k w unwrittenMarker false false
    let s := s.when (s.isStrict k) fun s => s.emit 0x2008 [reported k, r.part]
    (s, if s.isStrict k && r.strictTraps then .strict else .data 0)
  | .written d fixed vbit => (s.when fixed fun s => s.noteCorrection k w (encodeWord d) vbit false, .data d)
  | .poisoned => (s.emit 0x2006 [reported k, r.master, r.part]).badRead k r
  | .uncorrectable =>
    match s.codeRegion k with
    | none => (s.poison k 0 0x2004 (s.poisonVals k)).badRead k r
    | some n =>
      match r with
      | .load _ _ _ | .fetch _ _ _ =>
        (s.withMem fun m => if m.refetch.any (·.key == k) then m else { m with refetch := m.refetch ++ [⟨k, n⟩] }, .held)
      | _ =>
        match s.refetch k n 0 with
        | (s, some d) => (s, .data d)
        | (s, none) => s.badRead k r

/-! ### The module's own MRAM (04 R162)

The layout within the ranges of the table is the model's: DESIGN CHOICE, log entry 79. -/

/-- Trims of AFE channel `ch` and of loop channel `c`, as words of AFE_CHnTRIM and ALP_CHnTRIM. -/
def trimAt (ch : Nat) : Nat := 0x100E0000 + 4 * ch
def loopTrimAt (c : Nat) : Nat := 0x100E0100 + 4 * c

/-- The learned term of COMP (11 R391). -/
def learnedAt : Nat := 0x100E0200

/-- Stamp `i` of core `c`, the newest 0 (02 R56). -/
def stampAt (c i : Nat) : Nat := 0x100F1000 + 64 * c + 4 * i

/-- Operating seconds and power-cycle count (09 R326). -/
def opsecAt : Nat := 0x100F1800
def powerCyclesAt : Nat := 0x100F1804

/-- A word of the module's MRAM: none where it holds no data. -/
def State.moduleWord (s : State) (k : Nat) : Option Word :=
  match classify (s.stored k) with
  | .written d _ _ => some d
  | _ => none

/-- MEM reads a word of the module's MRAM for the module; one that holds no data reads 0 (DESIGN CHOICE, log entry 79). -/
def State.moduleRead (s : State) (k : Nat) : State × Word :=
  match s.readWord k (.block 0 0) with
  | (s, .data d) => (s, d)
  | (s, _) => (s, 0#32)

/-- MEM writes a word of the module's MRAM for the module. -/
def State.moduleWrite (s : State) (k : Nat) (d : Word) : State :=
  if s.wordReachable k then (s.cancelWriteback k).store k (encodeWord d) else s

end Sys2Proof.Machine
end

