-- ==== Sys2Proof/Machine/RecOps.lean ====
section
/-!
DEFINITION. Operations of the recorders (09): records and their queue (R318 to R324), the event ring and flash wear
(R327, R343, R544), FROST and THAW (R340 to R342), frame records, triggers and captures (R329 to R334).
-/

namespace Sys2Proof.Machine

open Reg

def State.withRec (s : State) (f : RecBlock → RecBlock) : State := { s with recb := f s.recb }

def State.frozen (s : State) : Bool := s.bit REC_STAT_FROZEN

/-! ### Records -/

/-- SYNC as seconds x 10^9 + nanoseconds at MONO `m`, modulo 2^64 (09 R320); SYNC runs at its present rate. -/
def State.syncAt (s : State) (m : Int) : Nat :=
  let rate := (2 : Int) ^ 32 + s.sget ⟨TIME_RATE, 0, 32⟩
  ((((s.sync : Int) + (m - s.mono) * rate) / 2 ^ 32) % 2 ^ 64).toNat

/-- TIME is SYNC: REC_CFG.TSYNC = 1 and SYNC acquired (09 R320). -/
def State.recSync (s : State) : Bool := s.bit REC_CFG_TSYNC && !s.bit TIME_STAT_NOACQ

/-- The time of MONO `m` as a record gives it (09 R320). -/
def State.recTime (s : State) (m : Int) : Nat := if s.recSync then s.syncAt m else (m % 2 ^ 64).toNat

/-- The sample instant of frame `n` on MONO (06 R206); that of the first three frames lies before MONO 0. -/
def sampleInstant (n : Nat) : Int := (n : Int) * 31250 - 95000

/-- The codes that are never lost to a full queue (09 R324). -/
def criticalCode (code : Nat) : Bool := code == 0x1006 || code == 0x1007 || code == 0x1008 || code == 0x6003

/-- Drop the newest record whose code is not critical, if there is one: that record and the others. -/
def dropNewest : List EventRecord → Option (EventRecord × List EventRecord)
  | [] => none
  | r :: t =>
    match dropNewest t with
    | some (d, t') => some (d, r :: t')
    | none => if criticalCode r.code then none else some (r, t)

/-- Events lost: the sticky count and the count still to be reported (09 R324). -/
def State.loseToQueue (s : State) : State := (s.inc REC_ELOSS_QFULL).withRec fun b => { b with lostQueue := b.lostQueue + 1 }

/-- REC_STAT.QDEPTH, and NEW with each record written. -/
def State.showQueue (s : State) : State := s.set REC_STAT_QDEPTH (min s.recb.queue.length 256)

/-! ### The rate limiter -/

/-- The limiter entry of a code, if one is in use (09 R322). -/
def State.limiter (s : State) (code : Nat) : Option Nat :=
  (List.range 256).find? fun e =>
    let w := s.rd (bank REC_RLDAT0 e)
    fieldGet w 31 1 == 1 && fieldGet w 0 16 == code

def State.bucket (s : State) (e : Nat) : Bucket := CMap.lookup (fun _ => {}) s.recb.buckets e

def State.setBucket (s : State) (e : Nat) (b : Bucket) : State :=
  s.withRec fun r => { r with buckets := CMap.put (fun _ => {}) r.buckets e b }

/-- BURST and PERIOD of an entry. -/
def State.burst (s : State) (e : Nat) : Nat := fieldGet (s.rd (bank REC_RLDAT1 e)) 0 8
def State.period (s : State) (e : Nat) : Nat := fieldGet (s.rd (bank REC_RLDAT1 e)) 16 16

/-- Take a token of an entry: whether there was one, and the suppressed count to carry (09 R322). The count stays until a record
carries it. -/
def State.takeToken (s : State) (e : Nat) : State × Option Nat :=
  let b := s.bucket e
  if b.taken < s.burst e then
    (s.setBucket e { b with taken := b.taken + 1, since := if b.taken = 0 then s.mono else b.since }, some b.supp)
  else (s.setBucket e { b with supp := b.supp + 1 }, none)

/-- A record of the entry's code carries the count: it returns to 0 (09 R322). -/
def State.clearSupp (s : State) (e : Nat) : State := s.setBucket e { s.bucket e with supp := 0 }

/-- A queued record is lost: the count it carried goes to the next record of its code (09 R322). -/
def State.returnSupp (s : State) (r : EventRecord) : State :=
  match s.limiter r.code with
  | some e => s.setBucket e { s.bucket e with supp := (s.bucket e).supp + r.supp }
  | none => s

/-- Number a record and queue it (09 R321, R324); `mk` builds it from its number. A record that finds no place takes no
number; the answer says whether it was recorded. DEDUCED: NEW is set when the record enters the queue, log entry 13. -/
def State.queueRecord (s : State) (code : Nat) (mk : Nat → EventRecord) : State × Bool :=
  let accept (s : State) (q : List EventRecord) : State :=
    let n := (s.get REC_ENUM_NUM + 1) % 2 ^ 32
    let s := (s.set REC_ENUM_NUM n).set REC_SEQ_LASTEVT n
    ((s.withRec fun b => { b with queue := q ++ [mk n] }).showQueue).setBit REC_STAT_NEW true
  let q := s.recb.queue
  if q.length < 256 then (accept s q, true)
  else if criticalCode code then
    match dropNewest q with
    | some (d, q) => (accept (s.loseToQueue.returnSupp d) q, true)
    | none => (accept s q, true)
  else (s.loseToQueue, false)

/-- FLAGS of a record (09 R319). DEDUCED: the path into SAFE is that of codes 0x6003 and 0x1006 to 0x1008, log entry 13. -/
def State.recordFlags (s : State) (code nval : Nat) (supp snap : Bool) : Nat :=
  s.recSync.toNat + supp.toNat * 2 + snap.toNat * 4 + (criticalCode code).toNat * 8 + s.frozen.toNat * 16 + nval * 256

/-- A record of an event that reaches REC now. -/
def State.mkRecord (s : State) (code : Nat) (vals : List Nat) (supp sset : Nat) (snap : Bool) (n : Nat) : EventRecord :=
  { number := n, code, flags := s.recordFlags code (min vals.length 8) (supp != 0) snap, sset,
    opsec := s.opsec, pcyc := s.get REC_PWRCYC_COUNT, time := s.recTime s.mono, vals := (vals.take 8).map (· % 2 ^ 32), supp }

/-- The 15 words of a record before its CRC (09 R318). -/
def EventRecord.body (r : EventRecord) : List Word :=
  let v := fun i => (r.vals[i]?).getD 0
  ([r.code + r.number % 65536 * 65536, r.flags + r.sset * 65536, r.opsec, r.pcyc, r.time % 2 ^ 32, r.time / 2 ^ 32]
    ++ (List.range 8).map v ++ [r.supp]).map (BitVec.ofNat 32)

/-- The 16 words of a record as stored (09 R318). A record that fails its CRC has one check bit wrong in the model. -/
def EventRecord.words (r : EventRecord) : List Word :=
  let c := crcWords r.body
  r.body ++ [BitVec.ofNat 32 (if r.bad then Nat.xor c 1 else c)]

/-! ### Snapshot sets -/

/-- The addresses of a snapshot set with their slots (09 R323). -/
def State.snapshotSlots (s : State) (set : Nat) : List (Nat × Nat) :=
  if set = 0 then []
  else ((List.range 8).map fun i => (i, (s.rd (bank REC_SSADDR (set + i * 32))).toNat / 4 * 4)).filter fun e => e.2 != 0

/-! ### The event ring -/

/-- The highest erase count of a list. -/
def maxCount (l : List (Nat × Nat)) : Nat := l.foldl (fun m e => max m e.2) 0

/-- REC_WEAR and event 0xC00D (09 R343). -/
def State.showWear (s : State) : State :=
  let e := maxCount (s.recb.wearE.filter fun x => !s.recb.retiredE.contains x.1)
  let d := maxCount (s.recb.wearD.filter fun x => !s.recb.retiredD.contains x.1)
  let s := s.set REC_WEAR_MAXERASE (min (max e d) 0x1FFFF)
  let s := s.set REC_WEAR_RETIRED (min (s.recb.retiredE.length + s.recb.retiredD.length) 0xFF)
  let s := if 80000 < e ∧ !s.recb.wearSaidE then (s.withRec fun b => { b with wearSaidE := true }).emit 0xC00D [0, e] else s
  if 80000 < d ∧ !s.recb.wearSaidD then (s.withRec fun b => { b with wearSaidD := true }).emit 0xC00D [1, d] else s

def bumpCount (l : List (Nat × Nat)) (k : Nat) : List (Nat × Nat) :=
  CMap.put (fun _ => 0) l k (CMap.lookup (fun _ => 0) l k + 1)

/-- Erase a block of the event region. One whose erase fails is retired (09 R343); whether it fails is a free value, log entry 13. -/
def State.eraseEventBlock (s : State) (blk : Nat) : State :=
  let s := s.withRec fun b => { b with wearE := bumpCount b.wearE blk }
  let (v, s) := s.drawFree
  (s.when (v.getLsbD 0) fun s => (s.withRec fun b => { b with retiredE := blk :: b.retiredE }).emit 0xC00C
    [0, blk, CMap.lookup (fun _ => 0) s.recb.wearE blk]).showWear

/-- The erased block of the event region taken next in turn (09 R327, R343). -/
def State.nextErased (s : State) : Option Nat :=
  let cand := (List.range 128).map fun i => (s.recb.nextE + i) % 128
  cand.find? fun blk => !s.recb.retiredE.contains blk && !(s.recb.ring.any fun r => r.block == blk)

/-- Full ring blocks kept outside FROST (09 R327, R343). -/
def State.ringCapacity (s : State) : Nat := 64 - (s.recb.retiredE.length - 63)

/-- Erase the oldest ring blocks until `keep` are left (09 R327). -/
def trimRing : Nat → Nat → State → State
  | 0, _, s => s
  | n + 1, keep, s =>
    match s.recb.ring with
    | b :: rest =>
      if keep ≤ rest.length then trimRing n keep ((s.withRec fun r => { r with ring := rest }).eraseEventBlock b.block) else s
    | [] => s

/-- Begin ring block `k`, with the records it holds already, in an erased block (09 R327): outside FROST the oldest full blocks
beyond the capacity are erased. None: no erased block is left, which only FROST brings about (09 R341). -/
def State.beginRing (s : State) (k : Nat) (l : List EventRecord) : Option State :=
  let s := if s.frozen then s else trimRing 128 s.ringCapacity s
  s.nextErased.map fun blk => s.withRec fun b => { b with ring := b.ring ++ [⟨k, blk, l⟩], nextE := (blk + 1) % 128 }

/-- Events lost because the frozen ring has no erased block left: counted, reported once per minute (09 R341). -/
def State.loseToFrost (s : State) : State :=
  let s := (s.inc REC_ELOSS_FROST).withRec fun b => { b with lostFrost := b.lostFrost + 1 }
  let due := match s.recb.frostReported with
    | none => true
    | some t => decide (t + 60000000000 ≤ s.mono)
  if due then
    (s.withRec fun b => { b with lostFrost := 0, frostReported := some s.mono }).emit 0xC008 [s.recb.lostFrost, 2]
  else s

/-- Add a record to the last ring block. -/
def appendLast (r : EventRecord) : List RingBlock → List RingBlock
  | [] => []
  | [b] => [{ b with records := b.records ++ [r] }]
  | b :: t => b :: appendLast r t

/-- Write a record to the event ring (09 R327, R341): a block that it fills is followed by the next ring block at once, where an
erased block is left. -/
def State.ringWrite (s : State) (r : EventRecord) : State :=
  let k := r.number / 1024
  let placed :=
    if (s.recb.ring.getLast?.map (·.number)) = some k then some (s.withRec fun b => { b with ring := appendLast r b.ring })
    else s.beginRing k [r]
  match placed with
  | none => (s.returnSupp r).loseToFrost
  | some s => if r.number % 1024 = 1023 then (s.beginRing (k + 1) []).getD s else s

/-- A failed program: the block being filled is retired and its ring block goes on in the next erased block (09 R343).
DESIGN CHOICE: with the records it held, log entry 13. -/
def State.retireEventBlock (s : State) : State :=
  match s.recb.ring.getLast? with
  | none => s
  | some b =>
    let count := CMap.lookup (fun _ => 0) s.recb.wearE b.block
    let s := s.withRec fun r => { r with ring := r.ring.dropLast, retiredE := b.block :: r.retiredE }
    let s := (s.emit 0xC00C [0, b.block, count]).showWear
    (s.beginRing b.number b.records).getD s

/-- The highest record number in the ring, 0 if none. -/
def State.ringHighest (s : State) : Nat :=
  s.recb.ring.foldl (fun m b => b.records.foldl (fun m r => max m r.number) m) 0

/-- A record by number, from the queue or the ring (09 R328). -/
def State.findRecord (s : State) (n : Nat) : Option EventRecord :=
  match s.recb.queue.find? fun r => r.number == n with
  | some r => some r
  | none => (s.recb.ring.flatMap (·.records)).find? fun r => r.number == n

/-! ### FROST and THAW -/

/-- FROST from a source: 1 executive, 2 maintenance tool, 3 SAFE entry, 4 trip (09 R340). -/
def State.frost (s : State) (source : Nat) : State :=
  if s.frozen then s
  else
    let s := (s.setBit REC_STAT_FROZEN true).set REC_STAT_FSRC source
    (s.withRec fun b => { b with savedFrost := source, frostReported := none, lostFrost := 0 }).emit 0xC006 [source]

/-- Captures closed and waiting for their copy. -/
def State.waiting (s : State) : List Capture := s.recb.captures.filter (·.closed)

/-- THAW from a source (09 R342). DEDUCED: the oldest ring blocks, the overflow included, are erased at once down to what R327
keeps outside FROST, so that writing goes on however full the overflow was; log entry 13. -/
def State.thaw (s : State) (source : Nat) : State :=
  let s := (s.setBit REC_STAT_FROZEN false).set REC_STAT_FSRC 0
  let s := (s.withRec fun b => { b with savedFrost := 0 }).emit 0xC007 [source, s.waiting.length]
  trimRing 128 (s.ringCapacity + 1) s

/-! ### Frame records and captures -/

/-- The 64 binary channels as they stand (09 R330); `missing`: groups missing in the frame. -/
def State.binaryChannels (s : State) (triggerLines missing : Nat) : Nat :=
  let pv := (List.range 4).foldl (fun w i => w + s.get (GIRTH_SIN_PV i) * 2 ^ i) 0
  s.get PE_FLAGS_FLAG + s.get GIRTH_STAT_TOUTON * 2 ^ 32 + s.get GIRTH_INST_OP * 2 ^ 36 + pv * 2 ^ 44
    + s.get GIRTH_STAT_SOUTON * 2 ^ 48 + triggerLines * 2 ^ 52 + (s.get GIRTH_STAT_STATE == 2).toNat * 2 ^ 60
    + s.recb.coreTrigger.toNat * 2 ^ 61 + s.get GIRTH_STAT_PESIL * 2 ^ 62 + (missing != 0).toNat * 2 ^ 63

/-- Show the captures in REC_STAT. -/
def State.showCaptures (s : State) : State :=
  (s.setBit REC_STAT_OPEN (s.recb.captures.any fun c => !c.closed)).set REC_STAT_CAPS s.recb.captures.length

/-- The longest capture in frames (09 R332). -/
def captureMax : Nat := 640000

/-- A trigger within an open capture (09 R332). -/
def Capture.mark (c : Capture) (extend : Bool) (source frame post : Nat) : Capture :=
  let marks := if c.marks.length < 16 then c.marks ++ [(frame - c.first, source)] else c.marks
  let c := { c with marks, triggers := c.triggers + 1 }
  if extend then { c with last := min (frame + post * 3200 - 1) (c.first + captureMax - 1), extended := true } else c

/-- A trigger from a source with its trigger frame (09 R331 to R333). -/
def State.recTrigger (s : State) (source frame : Nat) : State :=
  if !s.recb.triggers then s
  else if (s.recb.captures.any fun c => !c.closed) then
    let mark := fun (c : Capture) =>
      if c.closed then c else c.mark (s.bit REC_DCFG_EXTEND) source frame (s.get REC_DCFG_POST)
    s.withRec fun b => { b with captures := b.captures.map mark }
  else if 6 ≤ s.recb.captures.length then (s.inc REC_DLOSS_TRIG).emit 0xC004 [1, source, frame]
  else
    let n := s.get REC_DNUM_NUM + 1
    let s := s.set REC_DNUM_NUM n
    let want := (frame : Int) - s.get REC_DCFG_PRE * 3200
    let have_ := s.recb.firstFrame.getD frame
    let first := max want.toNat have_
    let c : Capture :=
      { number := n, first, trigger := frame, last := frame + s.get REC_DCFG_POST * 3200 - 1
        marks := [(frame - first, source)], preshort := decide (want < (have_ : Int))
        time := s.recTime (sampleInstant first), ts := s.recSync }
    let s := s.withRec fun b => { b with captures := b.captures ++ [c] }
    (s.emit 0xC001 [n, source, frame]).showCaptures

/-- Close the open capture whose last frame has been recorded (09 R332). -/
def State.closeCapture (s : State) (frame : Nat) : State :=
  let due := fun (c : Capture) => !c.closed && decide (c.last ≤ frame)
  match s.recb.captures.find? due with
  | none => s
  | some c =>
    let len := c.last + 1 - c.first
    let close := fun (x : Capture) => if due x then { x with closed := true, capped := decide (captureMax ≤ len) } else x
    let s := s.withRec fun b => { b with captures := b.captures.map close }
    (s.emit 0xC002 [c.number, len, c.triggers]).showCaptures

/-- Frames the disturbance ring holds (09 R329). -/
def ringFrames : Nat := 4793490

/-- Whether a frame belongs to a capture that is open or waiting (09 R333). -/
def State.held (s : State) (n : Nat) : Bool :=
  s.recb.captures.any fun c => decide (c.first ≤ n) && decide (n ≤ c.last)

/-- Drop the oldest frame that no capture holds: the others, and its place in the ring. -/
def dropOldest (held : Nat → Bool) : List RingFrame → List RingFrame × Option Nat
  | [] => ([], none)
  | f :: t =>
    if held f.number then
      match dropOldest held t with
      | (l, p) => (f :: l, p)
    else (t, some f.place)

/-- The frames the ring keeps and the place of the next record: one never used, else that of the oldest frame no capture holds. -/
def State.ringPlace (s : State) : List RingFrame × Nat :=
  let l := s.recb.frames
  if l.length < ringFrames then (l, l.length)
  else match dropOldest s.held l with
    | (l, p) => (l, p.getD 0)

/-- Write words from a DRAM physical offset as a bus agent. -/
def State.agentWrites (s : State) (phys : Nat) (ws : List (Word × BitVec 4)) : State :=
  (ws.foldl (fun (acc : State × Nat) w => (acc.1.agentWrite (dramBase + acc.2) w.2 w.1 0 0, acc.2 + 4)) (s, phys)).1

/-- The 28 words of a frame record (09 R329). -/
def FrameRecord.words (f : FrameRecord) : List Word :=
  [BitVec.ofNat 32 f.number, BitVec.ofNat 32 (f.missing % 16 + f.ovr % 2 ^ 24 * 256)]
    ++ (List.range 24).map (fun i => (f.values[i]?).getD 0#32)
    ++ [BitVec.ofNat 32 f.binary, BitVec.ofNat 32 (f.binary / 2 ^ 32)]

/-- A frame record from its words. -/
def FrameRecord.ofWords (w : List Word) : FrameRecord :=
  let n := fun i => (w.getD i 0#32).toNat
  { number := n 0, missing := n 1 % 16, ovr := n 1 / 256, values := (w.drop 2).take 24, binary := n 26 + n 27 * 2 ^ 32 }

/-- Write the record of a frame into the ring (09 R329), if DRAM was initialised when the frame was delivered. -/
def State.writeFrame (s : State) (r : FrameRecord) : State :=
  if !s.bit MEM_STAT_DINIT || decide (r.number < s.recb.fromFrame) then s
  else
    let (l, place) := s.ringPlace
    let first := some (s.recb.firstFrame.getD r.number)
    let s := s.agentWrites (ringBase - dramBase + 112 * place) (r.words.map fun w => (w, 15#4))
    (s.withRec fun b => { b with frames := l ++ [⟨r.number, place⟩], firstFrame := first }).closeCapture r.number

/-- Read a frame's record from the ring, with correction. What takes the place of a word that memory does not give, the manual leaves
open: a free value, log entry 13. -/
def State.readFrame (s : State) (f : RingFrame) : State × FrameRecord :=
  let (s, ws) := (List.range 28).foldl (fun (acc : State × List Word) i =>
    match acc.1.readWord (ringBase + 112 * f.place + 4 * i) (.block 7 0) with
    | (s, .data w) => (s, acc.2 ++ [w])
    | (s, _) => match s.drawFree with
      | (v, s) => (s, acc.2 ++ [v.setWidth 32])) (s, [])
  (s, FrameRecord.ofWords ws)

/-- Read the records of several frames. -/
def State.readFrames (s : State) (l : List RingFrame) : State × List FrameRecord :=
  l.foldl (fun (acc : State × List FrameRecord) f => match acc.1.readFrame f with
    | (s, r) => (s, acc.2 ++ [r])) (s, [])

/-- Rising edges of binary channels with their trigger enabled (09 R331), at the end of frame `frame`'s slot. -/
def State.binaryTriggers (s : State) (now frame : Nat) : State :=
  let en := s.get REC_BTRIG0_EDGE + s.get REC_BTRIG1_EDGE * 2 ^ 32
  let old := s.recb.lastBinary
  (List.range 64).foldl (fun s b =>
    if en / 2 ^ b % 2 = 1 ∧ now / 2 ^ b % 2 = 1 ∧ old / 2 ^ b % 2 = 0 then s.recTrigger (8 + b) frame else s) s

/-- The end of frame `frame`'s slot: the binary channels are taken and their triggers act. -/
def State.slotBinary (s : State) (frame triggerLines missing ovr : Nat) : State :=
  let now := s.binaryChannels triggerLines missing
  let s := s.binaryTriggers now frame
  s.withRec fun b => { b with lastBinary := now, coreTrigger := false, slots := b.slots ++ [(frame, missing, ovr, now)] }

/-! ### The disturbance region -/

/-- FLAGS of a disturbance record's header (09 R335). -/
def DisturbanceRecord.flags (d : DisturbanceRecord) : Nat :=
  d.capture.preshort.toNat + d.capture.ts.toNat * 2 + (d.frames.any fun f => f.missing != 0).toNat * 4
    + d.capture.extended.toNat * 8 + d.capture.capped.toNat * 16

/-- The 63 words of the header before its own CRC (09 R335), bytes 0 to 251. -/
def DisturbanceRecord.headerBody (d : DisturbanceRecord) : List Word :=
  let c := d.capture
  let mark := fun i => match c.marks[i]? with
    | some (at_, source) => at_ % 2 ^ 24 + source * 2 ^ 24
    | none => 0
  let range := fun i => (d.ranges[i]?).getD 0
  ([c.number, c.first, d.frames.length, c.trigger - c.first, c.time % 2 ^ 32, c.time / 2 ^ 32] ++ (List.range 16).map mark
      ++ [c.triggers % 65536 + d.flags * 65536]).map (BitVec.ofNat 32)
    ++ (List.range 24).map (fun i => (d.scales[i]?).getD 0#32)
    ++ (List.range 6).map (fun i => BitVec.ofNat 32
      (range (4 * i) + range (4 * i + 1) * 2 ^ 8 + range (4 * i + 2) * 2 ^ 16 + range (4 * i + 3) * 2 ^ 24))
    ++ [BitVec.ofNat 32 (crcWords (d.frames.flatMap FrameRecord.words))] ++ List.replicate 9 0#32

/-- The header of a disturbance record as it stands in flash (09 R335): 64 words. -/
def DisturbanceRecord.header (d : DisturbanceRecord) : List Word :=
  d.headerBody ++ [BitVec.ofNat 32 (crcWords d.headerBody)]

/-- 64 KiB blocks of the disturbance region (09 R334). -/
def disturbanceBlocks : Nat := 3072

/-- Blocks a record of `n` frames takes with its header (09 R334, the example). -/
def blocksOf (n : Nat) : Nat := (256 + 112 * n + 65535) / 65536

/-- Blocks free in the disturbance region. -/
def State.freeBlocks (s : State) : Nat :=
  disturbanceBlocks - s.recb.retiredD.length - (s.recb.stored.map fun d => blocksOf d.frames.length).foldl (· + ·) 0

/-- The blocks from `at_` in turn, retired ones left out, up to `n`. -/
def State.blocksFrom (s : State) (at_ n : Nat) : List Nat :=
  (((List.range disturbanceBlocks).map fun i => (at_ + i) % disturbanceBlocks).filter fun b =>
    !s.recb.retiredD.contains b).take n

/-- Erase the oldest disturbance record (09 R334). -/
def State.eraseOldestDisturbance (s : State) : State :=
  match s.recb.stored with
  | [] => s
  | d :: rest =>
    let blks := s.blocksFrom d.block (blocksOf d.frames.length)
    let s := s.withRec fun b => { b with stored := rest, wearD := blks.foldl bumpCount b.wearD }
    (s.emit 0xC005 [d.capture.number]).showWear

/-- Erase oldest records until `n` blocks are free. -/
def makeRoom : Nat → Nat → State → State
  | 0, _, s => s
  | k + 1, n, s => if s.freeBlocks < n then makeRoom k n s.eraseOldestDisturbance else s

/-- Retire blocks of the disturbance region that failed (09 R343). -/
def State.retireDisturbance (s : State) (bad : List Nat) : State :=
  (bad.foldl (fun s blk =>
    if s.recb.retiredD.contains blk then s
    else (s.withRec fun b => { b with retiredD := blk :: b.retiredD }).emit 0xC00C
      [1, blk, CMap.lookup (fun _ => 0) s.recb.wearD blk]) s).showWear

/-- Store the oldest closed capture (09 R334, R341); none if it must wait. -/
def State.storeCapture (s : State) : State :=
  match s.recb.captures.find? (·.closed) with
  | none => s
  | some c =>
    let ring := s.recb.frames.filter fun f => decide (c.first ≤ f.number) && decide (f.number ≤ c.last)
    let n := blocksOf ring.length
    if s.frozen ∧ s.freeBlocks < n then s
    else
      let s := if s.frozen then s else makeRoom s.recb.stored.length n s
      let blks := s.blocksFrom s.recb.nextD n
      let blk := blks.headD 0
      let (s, frames) := s.readFrames ring
      let ranges := (List.range 24).map fun ch => s.get (AFE_CHnCFG_RANGE ch)
      let s := s.withRec fun b => { b with
        stored := b.stored ++ [{ capture := c, block := blk, frames, scales := b.scales, ranges }],
        nextD := ((blks.getLast?).getD 0 + 1) % disturbanceBlocks,
        captures := b.captures.filter fun x => x.number != c.number }
      (s.emit 0xC003 [c.number, blk]).showCaptures

end Sys2Proof.Machine
end

