-- ==== Sys2Proof/Machine/Afe.lean ====
section
/-!
DEFINITION. The sampling front end (06 R203 to R212) and PE's intake of its words (R213 to R215, R234).
-/

namespace Sys2Proof.Machine

open Reg

def State.withAfe (s : State) (f : AfeBlock → AfeBlock) : State := { s with afe := f s.afe }
def State.withPe (s : State) (f : PeBlock → PeBlock) : State := { s with pe := f s.pe }

def State.group (s : State) (g : Nat) : GroupState := CMap.lookup (fun _ => {}) s.afe.groups g
def State.setGroup (s : State) (g : Nat) (x : GroupState) : State :=
  s.withAfe fun a => { a with groups := CMap.put (fun _ => {}) a.groups g x }

def State.channel (s : State) (ch : Nat) : ChannelState := CMap.lookup (fun _ => {}) s.afe.channels ch
def State.setChannel (s : State) (ch : Nat) (x : ChannelState) : State :=
  s.withAfe fun a => { a with channels := CMap.put (fun _ => {}) a.channels ch x }

/-- A channel is converted (06 R203). -/
def State.channelOn (s : State) (ch : Nat) : Bool := s.get (AFE_CHnCFG_RANGE ch) != 0

/-- The converted channels of a group (06 "Channels and ranges"). -/
def State.groupChannels (s : State) (g : Nat) : List Nat :=
  ((List.range 6).map fun i => 6 * g + i).filter s.channelOn

/-! ### Frames (06 R203, R204, R206, R212) -/

def codeMax : Int := 8388607

/-- A code saturates at full scale (06 R204). -/
def saturateCode (c : Int) : Int := if codeMax < c then codeMax else if c < -codeMax then -codeMax else c

/-- Magnitude above the overrange value: 10.5 V of 12.5 V, 52.5 mA of 62.5 mA full scale (06 R203, R204). -/
def overrange (c : Int) : Bool := decide (21 * codeMax < 25 * (c.natAbs : Int))

/-- A raw word without its parity bit. -/
def rawBody (c : Int) (ch : Nat) (ovr : Bool) (frame : Nat) : Nat :=
  patternOf 24 c + ch * 2 ^ 24 + ovr.toNat * 2 ^ 29 + frame % 2 * 2 ^ 30

/-- A raw word (06 R212). -/
def rawWord (c : Int) (ch : Nat) (ovr : Bool) (frame : Nat) : Word :=
  let b := rawBody c ch ovr frame
  BitVec.ofNat 32 (b + onesBelow 31 b % 2 * 2 ^ 31)

/-- The code of a channel as its raw word carries it: while the spare converter is the source, scaled to the raw gain of the own one by
the factor in fuses (06 R209), rounded to the nearest code, a tie upwards: DESIGN CHOICE, log entry 80. -/
def State.sourceCode (s : State) (ch : Nat) (code : Int) : Int :=
  if s.bit (AFE_CHnCAL_SUBST ch) then (2 * code * (1000000 + (s.channel ch).spareScale) + 1000000) / 2000000 else code

/-- The sample of a channel in frame `n`: its raw word, and the overrange excursion (06 R204). -/
def State.sampleChannel (s : State) (n ch : Nat) (code : Int) : State :=
  if !s.channelOn ch then s
  else
    let c := saturateCode (s.sourceCode ch code)
    let ovr := overrange c
    let w := rawWord c ch ovr n
    let s := s.wr (AFE_CHnLAST ch) w
    let x := s.channel ch
    if ovr then
      let s := s.setChannel ch { x with below := 0 }
      if s.bit (AFE_CHnOVR_NOW ch) then s
      else ((s.inc (AFE_CHnOVR_COUNT ch)).setBit (AFE_CHnOVR_NOW ch) true).emit 0x5016 [ch, w.toNat]
    else if s.bit (AFE_CHnOVR_NOW ch) then
      if 32 ≤ x.below + 1 then (s.setChannel ch { x with below := 0 }).setBit (AFE_CHnOVR_NOW ch) false
      else s.setChannel ch { x with below := x.below + 1 }
    else s

/-! ### Intake (06 R213 to R215, R234) -/

/-- A PE memory word with its check bits (06 R218). -/
def peWord (d : Word) : PWord := checkBits d ++ d

def State.peMem (s : State) (off : Nat) : PWord := CMap.lookup (fun _ => 0#39) s.pe.mem off

def State.peStore (s : State) (off : Nat) (d : Word) : State :=
  s.withPe fun p => { p with mem := CMap.put (fun _ => 0#39) p.mem off (peWord d) }

/-- Offset of the history slot of a channel for a frame (06 R214). -/
def historyAt (ch frame : Nat) : Nat := 0x80000 + ch * 0x4000 + frame % 4096 * 4

/-- The missing marker (06 R215). -/
def missingMarker : Word := 0x7FC00001#32

/-- A ratio rounded once to binary32, `den` > 0. -/
def binary32OfRatio (num : Int) (den : Nat) : Word :=
  let k := Nat.log2 den + 40
  let m := num.natAbs * 2 ^ k
  let q := m / den * 2 + (if m % den = 0 then 0 else 1)
  if num = 0 then 0#32 else BitVec.ofNat 32 (binary32.round .nearest (decide (num < 0)) q (-((k : Int) + 1))).1

/-- A signed field of AFE_CHnTRIM in a word of it: OFF in [31:16], GAIN in [15:0]. -/
def trimField (w : Word) (lo : Nat) : Int := signedOf 16 (fieldGet w lo 16)

/-- The corrected value of code `c` of a channel (06 R214), computed exactly and rounded once (DEDUCED, log entry 18). The trims are
those at the frame's start (R208). -/
def State.corrected (s : State) (ch : Nat) (c : Int) : Word :=
  let trim := s.pe.trims.getD ch 0#32
  let v := (c - trimField trim 16) * (1000000 + trimField trim 0)
  if s.get (AFE_CHnCFG_RANGE ch) = 1 then binary32OfRatio (v * 25) (2000000 * 8388607)
  else binary32OfRatio v (16000000 * 8388607)

/-- The exact value of a finite binary32 pattern as a multiple of 2^-149. -/
def exactOf (w : Word) : Int :=
  match binary32.unpack w.toNat with
  | .fin n m e => signedSig n (m * 2 ^ (e + 149).toNat)
  | _ => 0

/-- Point `i` of `gap` + 1 between two history values, on frame number (06 R234), rounded once (DEDUCED, log entry 18). -/
def interpolate (v0 v1 : Word) (i gap : Nat) : Word :=
  let a := exactOf v0
  let b := exactOf v1
  binary32OfRatio (a * ((gap : Int) + 1 - i) + b * i) ((gap + 1) * 2 ^ 149)

/-- A PE memory word read: corrected data and, where a correction was made, the syndrome; none: uncorrectable (06 R218). -/
def peDecode (w : PWord) : Option (Word × Option Nat) :=
  let d := w.extractLsb' 0 32
  let syn := (w.extractLsb' 32 7 ^^^ checkBits d).toNat
  if syn = 0 then some (d, none)
  else match syndromeBit syn with
    | some b => some (d ^^^ BitVec.ofNat 32 (2 ^ b), some syn)
    | none => if onesBelow 7 syn = 1 then some (d, some syn) else none

/-- The data of a PE memory word, corrected where it can be; 0 where it cannot. -/
def State.peData (s : State) (off : Nat) : Word := ((peDecode (s.peMem off)).map (·.1)).getD 0#32

/-- Count a correction and write the word back (06 R218). -/
def State.peCorrect (s : State) (off : Nat) (d : Word) (syn : Nat) : State :=
  ((s.peStore off d).inc PE_CECNT_COUNT).emit 0x500A [0x50000000 + off, syn]

/-- Words are read outside the slot's bundles: single errors among them are corrected, written back and counted (06 R218). -/
def State.peMend (s : State) (offs : List Nat) : State :=
  offs.foldl (fun (s : State) off => match peDecode (s.peMem off) with
    | some (d, some syn) => s.peCorrect off d syn
    | _ => s) s

/-- Replace the markers of a gap that frame `n` closes (06 R234). -/
def State.fillGap (s : State) (n gap ch : Nat) : State :=
  let s := s.when (gap != 0) (·.peMend [historyAt ch (n - gap - 1)])
  let v0 := s.peData (historyAt ch (n - gap - 1))
  let v1 := s.peData (historyAt ch n)
  (List.range gap).foldl (fun s i => s.peStore (historyAt ch (n - gap + i)) (interpolate v0 v1 (i + 1) gap)) s

/-- A group is missing in frame `n` (06 R213, R215). A first frame after the AFE starts that is missing already emits 0x5001, though no
frame came before it, and a run of 8 missing frames while the group is still lost counts no further loss: DESIGN CHOICE, log entry 82. -/
def State.groupMissing (s : State) (g n : Nat) : State :=
  let s := (s.groupChannels g).foldl (fun s ch => s.peStore (historyAt ch n) missingMarker) s
  let s := (s.inc (AFE_GgSTAT_MISS g)).inc (AFE_GgSTAT_RUN g)
  let x := s.group g
  let m := x.missing + 1
  let s := if m = 1 then s.emit 0x5001 [g, n, s.get (AFE_GgSTAT_RUN g)] else s
  let x := { x with missing := m, good := 0, gap := 0, lastMissing := n }
  if m = 8 ∧ !x.lost then
    let s := s.setGroup g { x with lost := true, lostFrom := n - 7 }
    let s := (s.set AFE_STAT_GOK (putBit (s.get AFE_STAT_GOK) g false)).inc (AFE_GgSTAT_LOSSES g)
    s.emit 0x5014 [g, n]
  else s.setGroup g x

/-- A group is not missing in frame `n` (06 R213, R234). A group that was lost before it was ever good has its bit set with event 0x5015:
DESIGN CHOICE, log entry 82. -/
def State.groupPresent (s : State) (g n : Nat) : State :=
  let x := s.group g
  let gap := if x.missing = 1 ∨ x.missing = 2 then x.missing else 0
  let s := (s.groupChannels g).foldl (fun s ch => s.fillGap n gap ch) s
  let s := s.set (AFE_GgSTAT_RUN g) 0
  let y : GroupState := { x with missing := 0, good := x.good + 1, gap }
  if 64 ≤ y.good ∧ !bitOf (s.get AFE_STAT_GOK) g then
    let s := s.set AFE_STAT_GOK (putBit (s.get AFE_STAT_GOK) g true)
    if y.lost then (s.setGroup g { y with lost := false }).emit 0x5015 [g, y.lastMissing + 1 - y.lostFrom]
    else s.setGroup g y
  else s.setGroup g y

/-- The intake of the frame closes: what has not been received by now is missing (06 R213). Its values reach the history as PE_FRAME
takes its number, so a slot holds the frame before until then (R215). -/
def State.closeIntake (s : State) : State :=
  if s.pe.closed then s
  else
    let n := s.pe.frame
    let got := s.pe.intake.map (·.1)
    let missing := (List.range 4).filter fun g => (s.groupChannels g).any fun ch => !got.contains ch
    let s := s.pe.intake.foldl (fun (s : State) e => s.peStore (historyAt e.1 n) e.2) s
    let s := (List.range 4).foldl (fun (s : State) g =>
      if (s.groupChannels g).isEmpty then s
      else if missing.contains g then s.groupMissing g n else s.groupPresent g n) s
    let mask := missing.foldl (fun w g => w + 2 ^ g) 0
    let s := (s.withPe fun p => { p with closed := true, missing := mask }).set PE_FRAME_N n
    s.setBit PE_STAT_MISS (mask != 0)

/-- Every word of the frame has been received. -/
def State.intakeComplete (s : State) : Bool :=
  (List.range 24).all fun ch => !s.channelOn ch || s.pe.intake.any fun e => e.1 == ch

/-- The frame that starts at a MONO: frame k starts within one AX clock, 20.35 ns, of k x 31 250 ns (01 R25). -/
def frameAt (mono : Nat) : Option Nat := if (mono + 20) % 31250 ≤ 40 then some ((mono + 20) / 31250) else none

/-- A frame starts (06 R206): every converted channel is sampled, PE opens its intake. Codes are the converters', before
saturation. -/
def execAfeFrameStart (t : Nat) (codes : List (Nat × Int)) (s : State) : Host.Outcome State Fault Refusal :=
  let s := s.advance t
  match frameAt s.mono with
  | none => .next s
  | some n =>
  if !s.afe.started ∨ (n ≤ s.pe.frame ∧ s.pe.frame ≠ 0) then .next s
  else
    let s := s.closeIntake.setBit AFE_STAT_LOCK true
    let s := codes.foldl (fun s c => if c.1 < 24 then s.sampleChannel n c.1 c.2 else s) s
    let trims := (List.range 24).map fun ch => s.rd (AFE_CHnTRIM ch)
    .next (s.withPe fun p =>
      { p with frame := n, intake := [], trims, closed := false, ovr := 0, missing := 0 })

/-- A raw word over a group's link at PE (06 R212 to R214). -/
def execPeRawWordReceive (t : Nat) (group : Fin 4) (w : Word) (s : State) : Host.Outcome State Fault Refusal :=
  let s := s.advance t
  let n := s.pe.frame
  let ch := fieldGet w 24 5
  if s.pe.closed ∨ n * 31250 + 2000 < s.mono ∨ onesBelow 32 w.toNat % 2 = 1 ∨ 23 < ch ∨ ch / 6 ≠ group.val
      ∨ !s.channelOn ch ∨ w.getLsbD 30 != (n % 2 == 1) then .next s
  else
    let v := s.corrected ch (signedOf 24 (fieldGet w 0 24))
    .next (s.withPe fun p => { p with intake := p.intake.filter (fun e => e.1 != ch) ++ [(ch, v)], ovr := putBit p.ovr ch (w.getLsbD 29) })

/-- 2.00 µs after the frame's start (06 R213). -/
def execIntakeDeadline (t : Nat) (s : State) : Host.Outcome State Fault Refusal :=
  let s := s.advance t
  if s.pe.frame * 31250 + 2000 ≤ s.mono then .next s.closeIntake else .next s

/-! ### Background calibration (06 R208 to R211) -/

/-- AFE_CALCFG.INT in ns; values outside 1 to 3600 act as 3600. -/
def State.calInterval (s : State) : Nat :=
  let i := s.get AFE_CALCFG_INT
  (if i = 0 ∨ 3600 < i then 3600 else i) * 1000000000

/-- AFE_CHnCAL.AGE (06 R210): s since the last successful calibration. -/
def State.calAge (s : State) (ch : Nat) : Nat := min ((s.mono - (s.channel ch).calAt) / 1000000000) 0xFFFF

/-- The AFE_CHnCAL word with its age. -/
def State.calWord (s : State) (ch : Nat) : Word := fieldPut (s.rd (AFE_CHnCAL ch)) 0 16 (s.calAge ch)

def State.setCalRun (s : State) (g : Nat) (b : Bool) : State := s.set AFE_STAT_CALRUN (putBit (s.get AFE_STAT_CALRUN) g b)

/-- A calibration begins (06 R208). -/
def execCalibrationStart (t : Nat) (group : Fin 4) (s : State) : Host.Outcome State Fault Refusal :=
  let s := s.advance t
  let g := group.val
  let x := s.group g
  if s.afe.started ∧ s.bit AFE_CALCFG_EN ∧ !x.suspended ∧ x.cal.isNone ∧ x.lastStart + s.calInterval ≤ s.mono then
    let cal : Calibration := { channel := 6 * g + x.nextChannel, start := s.mono }
    .next ((s.setGroup g { x with cal := some cal, nextChannel := (x.nextChannel + 1) % 6, lastStart := s.mono }).setCalRun g true)
  else .next s

/-- The times of a calibration's phases in ns after its start (06 R208). -/
def phaseTime : Nat → Nat
  | 0 => 8000000 | 1 => 24000000 | 2 => 40000000 | _ => 48000000

/-- The next phase: at 8 ms the spare converter becomes the source, with its own trims (06 R208, R209). -/
def execCalibrationPhase (t : Nat) (group : Fin 4) (s : State) : Host.Outcome State Fault Refusal :=
  let s := s.advance t
  let x := s.group group.val
  match x.cal with
  | none => .next s
  | some c =>
    if 3 ≤ c.phase ∨ s.mono < c.start + phaseTime c.phase then .next s
    else
      let s := s.setGroup group.val { x with cal := some { c with phase := c.phase + 1 } }
      if c.phase = 0 then
        let s := s.setChannel c.channel { s.channel c.channel with trim := s.rd (AFE_CHnTRIM c.channel) }
        .next ((s.setBit (AFE_CHnCAL_SUBST c.channel) true).wr (AFE_CHnTRIM c.channel) x.spare)
      else .next s

/-- Why a calibration fails, if it does (06 R210). -/
def calFailure (x : ChannelState) (r : CalResult) : Option Nat :=
  if 20 * (r.reading.natAbs) + 2 * 8388607 < 10000 * (r.first - r.second).natAbs then some 1
  else if 5000 < (r.gain - x.factoryGain).natAbs then some 2
  else if 2 * 8388607 < 1000 * (r.off - x.factoryOff).natAbs then some 3
  else none

/-- At 48 ms the own converter is the source again; the new trims or the previous ones apply (06 R208, R210). In a group that has been
suspended meanwhile the trims in use stay: the calibration ends without a result (R211; DESIGN CHOICE, log entry 80). -/
def execCalibrationEnd (t : Nat) (group : Fin 4) (r : CalResult) (s : State) : Host.Outcome State Fault Refusal :=
  let s := s.advance t
  let g := group.val
  let x := s.group g
  match x.cal with
  | none => .next s
  | some c =>
    if c.phase ≠ 3 ∨ s.mono < c.start + phaseTime 3 then .next s
    else
      let ch := c.channel
      let s := ((s.setGroup g { x with cal := none }).setCalRun g false).setBit (AFE_CHnCAL_SUBST ch) false
      let own := s.channel ch
      if x.suspended then .next (s.wr (AFE_CHnTRIM ch) own.trim)
      else match calFailure own r with
      | some case_ =>
        let s := (s.wr (AFE_CHnTRIM ch) own.trim).inc (AFE_CHnCAL_FAILS ch)
        let s := s.emit 0x5011 [ch, case_, (s.calWord ch).toNat]
        if s.get (AFE_CHnCAL_FAILS ch) = 3 then .next ((s.setBit (AFE_CHnCAL_DEG ch) true).emit 0x5012 [ch]) else .next s
      | none =>
        let w := BitVec.ofNat 32 (patternOf 16 r.gain + patternOf 16 r.off * 65536)
        let s := ((s.wr (AFE_CHnTRIM ch) w).set (AFE_CHnCAL_FAILS ch) 0).setBit (AFE_CHnCAL_DEG ch) false
        let due := match own.savedAt with
          | none => true
          | some t => decide (t + 3600000000000 ≤ s.mono)
        let y : ChannelState := { own with calAt := s.mono, ageSaid := false }
        .next (if due then (s.moduleWrite (trimAt ch) w).setChannel ch { y with savedAt := some s.mono } else s.setChannel ch y)

/-- Insert a reading in order. -/
def insertSorted (v : Int) : List Int → List Int
  | [] => [v]
  | h :: t => if v ≤ h then v :: h :: t else h :: insertSorted v t

/-- Twice the median of the four groups' readings: the middle two summed. -/
def twiceMedian (l : List Int) : Int :=
  match l.foldl (fun acc v => insertSorted v acc) [] with
  | [_, b, c, _] => b + c
  | _ => 0

/-- The reference measurements of a lap (06 R211). -/
def execReferenceCheck (t : Nat) (r0 r1 r2 r3 : Int) (s : State) : Host.Outcome State Fault Refusal :=
  let s := s.advance t
  let l := [r0, r1, r2, r3]
  let m := twiceMedian l
  let judge (s : State) (e : Nat × Int) : State :=
    let (g, r) := e
    let dev := 2 * r - m
    if m.natAbs < 2000 * dev.natAbs then
      let s := s.set AFE_STAT_REFBAD (putBit (s.get AFE_STAT_REFBAD) g true)
      let ppm := if m = 0 then 0 else (dev.natAbs * 1000000 / m.natAbs : Nat)
      (s.setGroup g { s.group g with suspended := true }).emit 0x5013 [g, ppm]
    else if !bitOf (s.get AFE_STAT_REFBAD) g then s.setGroup g { s.group g with suspended := false }
    else s
  .next ([(0, r0), (1, r1), (2, r2), (3, r3)].foldl judge s)

/-- A channel's AGE exceeds 10 group laps, 60 x INT seconds (06 R211). AGE ends at 65 535: with a longer limit it never does. -/
def execCalibrationAgeExceeded (t : Nat) (ch : Fin 24) (s : State) : Host.Outcome State Fault Refusal :=
  let s := s.advance t
  let c := ch.val
  let x := s.channel c
  if !x.ageSaid ∧ 60 * (s.calInterval / 1000000000) < s.calAge c then
    .next ((s.setChannel c { x with ageSaid := true }).emit 0x5017 [c, s.calAge c])
  else .next s

end Sys2Proof.Machine
end

