-- ==== Sys2Proof/Machine/Comtrade.lean ====
section
/-!
DEFINITION. The COMTRADE files of a disturbance record (09 R337 to R339). The order of the items in a line of the
configuration file is that of IEEE C37.111-2013, PRESUMED; log entry 16.
-/

namespace Sys2Proof.Machine

open Reg

/-- Round a ratio to the nearest integer, `den` > 0. -/
def roundRatio (num den : Int) : Int :=
  let q := num / den
  let r := num % den
  if den < 2 * r ∨ (2 * r = den ∧ Config.tieUp q) then q + 1 else q

/-- ASCII codes of a string. -/
def ascii (s : String) : List Nat := s.toList.map Char.toNat

/-- Decimal digits of a number, most significant first; `fuel` digits at most. -/
def digitsFrom : Nat → Nat → List Nat → List Nat
  | 0, _, acc => acc
  | fuel + 1, n, acc => if n < 10 then (48 + n) :: acc else digitsFrom fuel (n / 10) ((48 + n % 10) :: acc)

def decimal (n : Nat) : List Nat := digitsFrom 24 n []

/-- A number in exactly `k` digits. -/
def padded (k n : Nat) : List Nat := (List.range k).map fun i => 48 + n / 10 ^ (k - 1 - i) % 10

def crlf : List Nat := [13, 10]

/-- Items of a line, separated by commas. -/
def csvLine : List (List Nat) → List Nat
  | [] => crlf
  | [a] => a ++ crlf
  | a :: t => a ++ [44] ++ csvLine t

/-- Year, month, day of a day number counted from 01/01/1970, in the Gregorian calendar. -/
def civil (days : Nat) : Nat × Nat × Nat :=
  let z := days + 719468
  let era := z / 146097
  let doe := z % 146097
  let yoe := (doe - doe / 1460 + doe / 36524 - doe / 146096) / 365
  let doy := doe - (365 * yoe + yoe / 4 - yoe / 100)
  let mp := (5 * doy + 2) / 153
  let d := doy - (153 * mp + 2) / 5 + 1
  let m := if mp < 10 then mp + 3 else mp - 9
  (yoe + era * 400 + (if m ≤ 2 then 1 else 0), m, d)

/-- dd/mm/yyyy,hh:mm:ss.ssssss of a time in ns from 01/01/1970 00:00:00 (09 R338). -/
def stampText (ns : Nat) : List Nat :=
  let sec := ns / 1000000000
  let (y, m, d) := civil (sec / 86400)
  let tod := sec % 86400
  padded 2 d ++ [47] ++ padded 2 m ++ [47] ++ padded 4 y ++ [44] ++ padded 2 (tod / 3600) ++ [58]
    ++ padded 2 (tod / 60 % 60) ++ [58] ++ padded 2 (tod % 60) ++ [46] ++ padded 6 (ns / 1000 % 1000000)

/-- The text of a scale, in the item width of IEEE C37.111-2013 (PRESUMED, log entry 16). -/
def scaleItem (w : Word) : List Nat := (Config.scaleText w).take 32

/-- The ch_id of a digital channel (09 R338): its source in the table of R330, with its number there. DESIGN CHOICE: the words of a
row that names several channels are put in the singular, and its references in brackets left out; log entry 16. -/
def digitalItem (b : Nat) : List Nat :=
  let name := fun (pre : String) (n : Nat) (post : String) => ascii pre ++ decimal n ++ ascii post
  if b < 32 then name "PE trip flag " b ""
  else if b < 36 then name "Trip output " (b - 31) " energised"
  else if b < 44 then name "Instantaneous element " (b - 36) " operated"
  else if b < 48 then name "Safety pair value PV of pair " (b - 43) ""
  else if b < 52 then name "Safety output " (b - 47) " conducting"
  else if b < 60 then name "Record trigger line " (b - 52) " raised in the frame"
  else if b = 60 then ascii "Girth in SAFE"
  else if b = 61 then ascii "Core trigger given in the frame"
  else if b = 62 then ascii "PE silent"
  else ascii "Any AFE group missing in the frame"

/-- The line of analogue channel `ch`, 0 to 23 (09 R338). -/
def analogueLine (scales : List Word) (units : List (List Nat)) (ch : Nat) : List Nat :=
  csvLine [decimal (ch + 1), ascii "AFE" ++ padded 2 ch, [], [], (units[ch]?).getD [], scaleItem ((scales[ch]?).getD 0#32),
    ascii "0", ascii "0", ascii "-3.4E38", ascii "3.4E38", ascii "1", ascii "1", ascii "P"]

/-- The configuration file (09 R338). -/
def State.comtradeConfig (s : State) (d : DisturbanceRecord) : List Nat :=
  let c := d.capture
  csvLine [s.recb.station, decimal (s.rd SYS_SER).toNat, ascii "2013"]
    ++ csvLine [ascii "88", ascii "24A", ascii "64D"]
    ++ (List.range 24).flatMap (analogueLine d.scales s.recb.units)
    ++ (List.range 64).flatMap (fun b => csvLine [decimal (b + 1), digitalItem b, [], [], ascii "0"])
    ++ csvLine [s.recb.lf] ++ csvLine [ascii "1"] ++ csvLine [ascii "32000", decimal d.frames.length]
    ++ csvLine [stampText c.time] ++ csvLine [stampText (c.time + (c.trigger - c.first) * 31250)]
    ++ csvLine [ascii "BINARY32"] ++ csvLine [ascii "1"] ++ csvLine [ascii "+0h00", ascii "+0h00"]
    ++ csvLine [if c.ts then ascii "0" else ascii "F", ascii "0"]

/-- Sample `k`, from 1, of the data file (09 R339). -/
def sampleWords (k : Nat) (f : FrameRecord) : List Word :=
  [BitVec.ofNat 32 k, BitVec.ofInt 32 (roundRatio (3125 * ((k : Int) - 1)) 100)]
    ++ (List.range 24).map (fun i => (f.values[i]?).getD 0#32)
    ++ [BitVec.ofNat 32 f.binary, BitVec.ofNat 32 (f.binary / 2 ^ 32)]

def samplesFrom : Nat → List FrameRecord → List Word
  | _, [] => []
  | k, f :: t => sampleWords k f ++ samplesFrom (k + 1) t

/-- The data file (09 R339). -/
def DisturbanceRecord.dataFile (d : DisturbanceRecord) : List Word := samplesFrom 1 d.frames

/-- The first word of up to four bytes and its byte enables. -/
def packWord (b : List Nat) : Word × BitVec 4 :=
  let b := b.take 4
  (BitVec.ofNat 32 ((b.reverse).foldl (fun w x => w * 256 + x) 0), BitVec.ofNat 4 (2 ^ b.length - 1))

/-- Words of a byte string with the byte enables of each. -/
def packWords : Nat → List Nat → List (Word × BitVec 4)
  | 0, _ => []
  | _, [] => []
  | n + 1, b => packWord b :: packWords n (b.drop 4)

/-- Bytes an export takes (09 R337). -/
def exportBytes (cfg data : Nat) : Nat := 8 + (cfg + 3) / 4 * 4 + data

/-- The buffer lies in DRAM outside the disturbance ring (09 R337). -/
def bufferOk (addr len : Nat) : Bool := decide (addr + len ≤ 0xA0000000)

/-- What the export writes, in address order (09 R337). -/
def State.exportWords (s : State) (d : DisturbanceRecord) : List (Word × BitVec 4) :=
  let cfg := s.comtradeConfig d
  let data := d.dataFile
  [(BitVec.ofNat 32 cfg.length, 0xF#4), (BitVec.ofNat 32 (4 * data.length), 0xF#4)] ++ packWords cfg.length cfg
    ++ data.map fun w => (w, 0xF#4)

end Sys2Proof.Machine
end

