-- ==== Sys2Proof/Machine/Alp.lean ====
section
/-!
DEFINITION. The commands and events of ALP (10 R362 to R373): loop channels, HART, service keys.
-/

namespace Sys2Proof.Machine

open Reg

/-! ### Loop channels -/

/-- The corrected current of a raw current (10 R373); its rounding to 1 µA leaves ties open. -/
def State.loopCorrected (s : State) (n : Nat) (raw : Int) : Int :=
  4000 + roundRatio ((raw + s.sget (ALP_CHnTRIM_OFFS n) - 4000) * (1000000 + s.sget (ALP_CHnTRIM_GAIN n))) 1000000

/-- The NE 43 band of a corrected current (10 R364). -/
def band (ua : Int) : Nat :=
  if ua < 3600 then 1 else if ua < 3800 then 2 else if ua ≤ 20500 then 3 else if ua ≤ 21000 then 4 else 5

/-- ALP_STAT.FLT (10 R378). -/
def State.showLoopFault (s : State) (n : Nat) : State :=
  let f := s.bit (ALP_CHnSTAT_OPEN n) || s.bit (ALP_CHnSTAT_COMPL n) || s.bit (ALP_CHnSTAT_OVLD n)
  s.set ALP_STAT_FLT (putBit (s.get ALP_STAT_FLT) n f)

/-- The input block of a channel as the sample now taken leaves it (10 R369). -/
def State.sampleLoop (s : State) (n : Nat) : State :=
  let x := s.loop n
  s.setLoop n { x with prev := x.cur
                       cur := (s.mono, [s.rd (ALP_CHnVAL n), s.rd (ALP_CHnSTAT n) &&& 0x1FF#32, s.rd (ALP_CHnHEAD n)]) }

/-- A 1 kSa/s sample of a channel (10 R363, R364, R369): raw current in µA, headroom in mV. -/
def execLoopBandChange (t : Nat) (ch : Fin 8) (ua : Int) (headroomMv : Nat) (s : State) : Host.Outcome State Fault Refusal :=
  let s := s.advance t
  let n := ch.val
  let mode := s.get (ALP_CHnCFG_MODE n)
  if mode = 0 then .next (s.set (ALP_CHnSTAT_BAND n) 0)
  else
    let s := s.setLoop n { s.loop n with raw := ua }
    let v := s.loopCorrected n ua
    let s := (s.sset (ALP_CHnVAL_UA n) v).set (ALP_CHnHEAD_MV n) (if mode = 1 then 0 else min headroomMv 65535)
    let b := band v
    let old := s.get (ALP_CHnSTAT_BAND n)
    let s := (s.set (ALP_CHnSTAT_BAND n) b).sampleLoop n
    if b ≠ old ∧ (b = 1 ∨ b = 5) then .next (s.emit 0x7010 [n, b, patternOf 32 v]) else .next s

/-- A flag's condition has held, or been absent, for 50 ms (10 R367): judged on the last sample. DEDUCED: the measured current is the
one before the user trim, which R364 names apart; log entry 64. -/
def execLoopFlagChange (t : Nat) (ch : Fin 8) (compl : Bool) (s : State) : Host.Outcome State Fault Refusal :=
  let s := s.advance t
  let n := ch.val
  let mode := s.get (ALP_CHnCFG_MODE n)
  let v := (s.loop n).raw
  if mode = 0 then .next s
  else if compl then
    let low := decide (s.get (ALP_CHnHEAD_MV n) < 2500)
    let on := s.bit (ALP_CHnSTAT_COMPL n)
    if mode = 2 ∧ low ∧ !on ∧ !s.bit (ALP_CHnSTAT_OPEN n) then
      .next (((s.setBit (ALP_CHnSTAT_COMPL n) true).emit 0x7012 [n, s.get (ALP_CHnHEAD_MV n)]).showLoopFault n)
    else if !low ∧ on then .next (((s.setBit (ALP_CHnSTAT_COMPL n) false).emit 0x7014 [n, 2]).showLoopFault n)
    else .next s
  else
    let open_ := if mode = 1 then decide (v < 500) else decide (v < 1000) && decide (3500 ≤ s.loopCurrent n)
    let on := s.bit (ALP_CHnSTAT_OPEN n)
    if open_ ∧ !on then .next (((s.setBit (ALP_CHnSTAT_OPEN n) true).emit 0x7011 [n]).showLoopFault n)
    else if !open_ ∧ on then .next (((s.setBit (ALP_CHnSTAT_OPEN n) false).emit 0x7014 [n, 1]).showLoopFault n)
    else .next s

/-- Above 30 mA for 1 ms (10 R368). -/
def execLoopOverload (t : Nat) (ch : Fin 8) (ua : Nat) (s : State) : Host.Outcome State Fault Refusal :=
  let s := s.advance t
  let n := ch.val
  if s.get (ALP_CHnCFG_MODE n) = 0 ∨ ua ≤ 30000 ∨ s.bit (ALP_CHnSTAT_OVLD n) then .next s
  else
    let s := (s.setLoop n { s.loop n with cut := true, triedAt := s.mono }).setBit (ALP_CHnSTAT_OVLD n) true
    .next ((s.emit 0x7013 [n, ua]).showLoopFault n)

/-- A try, 1 s after the last (10 R368). -/
def execLoopOverloadRetry (t : Nat) (ch : Fin 8) (ua : Nat) (s : State) : Host.Outcome State Fault Refusal :=
  let s := s.advance t
  let n := ch.val
  if !s.bit (ALP_CHnSTAT_OVLD n) ∨ s.mono < (s.loop n).triedAt + 1000000000 then .next s
  else
    let s := s.setLoop n { s.loop n with cut := decide (25000 < ua), triedAt := s.mono }
    if ua ≤ 25000 then .next ((s.setBit (ALP_CHnSTAT_OVLD n) false).showLoopFault n) else .next s

/-- No release for TMO (10 R365). -/
def execLoopReleaseTimeout (t : Nat) (ch : Fin 8) (s : State) : Host.Outcome State Fault Refusal :=
  let s := s.advance t
  let n := ch.val
  let tmo := s.get (ALP_CHnCFG_TMO n)
  if s.get (ALP_CHnCFG_MODE n) = 2 ∧ s.alp.driving ∧ tmo ≠ 0 ∧ (s.loop n).releasedAt + tmo * 1000000 ≤ s.mono then
    .next (s.loopAlarm n)
  else .next s

/-- A jumper is moved while the module is powered (10 R366). -/
def execJumperChange (t : Nat) (ch : Fin 8) (pos : Fin 4) (s : State) : Host.Outcome State Fault Refusal :=
  let s := s.advance t
  let n := ch.val
  let s := s.withAlp fun a => { a with jumpers := CMap.put (fun _ => 0) a.jumpers n pos.val }
  .next ((s.setBit ALP_STAT_JMPCHG true).emit 0x7016 [n, s.get (ALP_JMP_POS n), pos.val])

/-! ### HART (10 R370 to R372) -/

def State.hartModem (s : State) (m : Nat) : Option Nat := if m = 0 then s.alp.modem0 else s.alp.modem1

/-- The first `len` bytes of a channel's buffer, low byte first. -/
def State.hartBytes (s : State) (c len : Nat) : List Nat :=
  (List.range len).map fun i => (s.rd (ALP_HnBUFi c (i / 4))).toNat / 256 ^ (i % 4) % 256

/-- The characters of a HART frame on the channel (10 R370, R372): the preamble, the application's bytes, in whose first address byte the
module says which master it is, and the check byte. PRESUMED from HART: preamble characters 0xFF, the master's bit, the check byte as the
exclusive or of the bytes; log entry 64. -/
def State.hartFrame (s : State) (c len : Nat) : List Nat :=
  let master := (1 - s.get (ALP_CHnCFG_HMAST c)) * 128
  let body := (s.hartBytes c len).mapIdx fun i b => if i = 1 then b % 128 + master else b
  List.replicate (5 * (s.get (ALP_CHnCFG_HPRE c) + 1)) 0xFF ++ body ++ [body.foldl Nat.xor 0]

/-- The attempts of a HART command: the first and its retries. -/
def State.hartAttempts (s : State) (c : Nat) : Nat := s.get (ALP_CHnCFG_HRETRY c) + 1

/-- A modem takes a channel, whose frame it sends, or none. -/
def State.setModem (s : State) (m : Nat) (c : Option Nat) : State :=
  let frame := (c.map fun k => s.hartFrame k ((s.loop k).hart.getD 0)).getD []
  let attempts := (c.map s.hartAttempts).getD 0
  let s := s.withAlp fun a =>
    if m = 0 then { a with modem0 := c, frame0 := frame, attempts0 := attempts }
    else { a with modem1 := c, frame1 := frame, attempts1 := attempts }
  s.set ALP_STAT_HBUSY (putBit (s.get ALP_STAT_HBUSY) m c.isSome)

/-- A modem takes the next channel after `c`, cyclically, that has a command pending (10 R371). -/
def State.nextTransaction (s : State) (m c : Nat) : State :=
  let order := (List.range 4).map fun i => 4 * m + (c + 1 + i) % 4
  s.setModem m (order.find? fun k => (s.loop k).hart.isSome)

/-- A HART command ends with a result (10 R372): event 0x7015 if it is not 0. -/
def State.hartResult (s : State) (c r : Nat) : State := if r = 0 then s else s.emit 0x7015 [c, r]

/-- A HART command answered at once, with no response. -/
def hartAnswer (c r : Nat) (s : State) : State × Option Nat := (s.hartResult c r, some r)

/-- GO (10 R372). The spec names no result for a LEN outside 1 to 272: a free value, and no frame is sent. -/
def hartGo (c len : Nat) (s : State) : State × Option Nat :=
  if !(s.bit (ALP_CHnCFG_HART c) || s.bit (ALP_CHnCFG_HEXCL c)) then hartAnswer c 4 (s.set (ALP_HnRES_RLEN c) 0)
  else if (s.loop c).hart.isSome then hartAnswer c 8 s
  else if len = 0 ∨ 272 < len then
    let (v, s) := s.drawFree
    hartAnswer c (v.toNat % 16) s
  else
    let s := s.setLoop c { s.loop c with hart := some len }
    (if (s.hartModem (c / 4)).isNone then s.setModem (c / 4) (some c) else s, none)

/-- A command at a channel's HART mailbox (10 R372); a sequence error emits nothing (00 R9). -/
def State.hartCommand (s : State) (c cseq len : Nat) : State :=
  s.mailboxLater (ALP_HnSEQ_LASTCMD c) (ALP_HnRES_RESULT c) cseq (hartGo c len)

def execHartGo (t cseq : Nat) (ch : Fin 8) (len : Nat) (s : State) : Host.Outcome State Fault Refusal :=
  .next ((s.advance t).hartCommand ch.val cseq len)

/-- Write response bytes into a channel's buffer, low byte first. -/
def State.hartBuffer (s : State) (c : Nat) (bytes : List Nat) : State :=
  (packWords bytes.length bytes).zipIdx.foldl (fun (s : State) e =>
    let mask := (List.range 4).foldl (fun m i => if e.1.2.getLsbD i then m + 255 * 256 ^ i else m) 0
    let old := s.rd (ALP_HnBUFi c e.2)
    s.wr (ALP_HnBUFi c e.2) ((old &&& ~~~ BitVec.ofNat 32 mask) ||| (e.1.1 &&& BitVec.ofNat 32 mask))) s

/-- The transaction of a modem ends (10 R372): 0 with its response, 1 no response, 2 errors, 3 link not quiet. -/
def execHartTransactionEnd (t : Nat) (second : Bool) (result : Fin 4) (response : List Byte) (s : State) :
    Host.Outcome State Fault Refusal :=
  let s := s.advance t
  let m := second.toNat
  match s.hartModem m with
  | none => .next s
  | some c =>
    let bytes := (response.map (·.toNat)).take 272
    let s := s.setLoop c { s.loop c with hart := none }
    let s := if result.val = 0 then (s.hartBuffer c bytes).set (ALP_HnRES_RLEN c) bytes.length
      else s.set (ALP_HnRES_RLEN c) 0
    let s := s.answerLate (ALP_HnSEQ_LASTCMD c) (ALP_HnRES_RESULT c) result.val
    .next ((s.hartResult c result.val).nextTransaction m (c % 4))

/-- A frame of a device in burst mode (10 R370). -/
def execHartBurstFrame (ch : Fin 8) (s : State) : Host.Outcome State Fault Refusal :=
  .next (s.inc (ALP_HnRES_BURSTS ch.val))

/-! ### Service keys (10 R373) -/

/-- A key action refused (10 R373). -/
def State.keyRefused (s : State) (reason : Nat) : State := s.emit 0x7018 [s.get ALP_KEYS_CALCH, reason]

/-- The next input channel with KEYCAL after `c`; 15 after the last. -/
def State.nextCal (s : State) (c : Nat) : Nat :=
  let from_ := if c = 15 then 0 else c + 1
  (((List.range 8).filter fun n => decide (from_ ≤ n) && s.get (ALP_CHnCFG_MODE n) == 1 && s.bit (ALP_CHnCFG_KEYCAL n)).head?).getD 15

/-- SEL is pressed or released; a press shorter than 1 s acts. -/
def execKeySel (t : Nat) (down : Bool) (s : State) : Host.Outcome State Fault Refusal :=
  let s := s.advance t
  let was := s.bit ALP_KEYS_SEL
  let s := s.setBit ALP_KEYS_SEL down
  if down then .next (if was then s else s.withAlp fun a => { a with selAt := s.mono })
  else if !was ∨ s.alp.selAt + 1000000000 ≤ s.mono then .next s
  else if s.mode ≠ .service then .next (s.keyRefused 1)
  else .next (s.set ALP_KEYS_CALCH (s.nextCal (s.get ALP_KEYS_CALCH)))

/-- Put a channel's trim, in use and in MRAM, and what follows from it. -/
def State.setTrim (s : State) (n : Nat) (w : Word) : State :=
  let s := (s.wr (ALP_CHnTRIM n) w).moduleWrite (loopTrimAt n) w
  s.setBit (ALP_CHnSTAT_TRIM n) (w != 0#32)

/-- ZERO held for 2 s with a channel selected: OFFS so that the raw current reads 4.000 mA. -/
def keyZero (s : State) : State :=
  let n := s.get ALP_KEYS_CALCH
  if s.mode ≠ .service then s.keyRefused 1
  else if n = 15 then s
  else
    let raw := (s.loop n).raw
    if raw < 3800 ∨ 4400 < raw then s.keyRefused 2
    else
      let offs := 4000 - raw
      (s.setTrim n (fieldPut (s.rd (ALP_CHnTRIM n)) 0 16 (patternOf 16 offs))).emit 0x7017 [n, 1, patternOf 32 offs]

/-- SPAN held for 2 s with a channel selected: GAIN so that the present current reads 20.000 mA. -/
def keySpan (s : State) : State :=
  let n := s.get ALP_KEYS_CALCH
  if s.mode ≠ .service then s.keyRefused 1
  else if n = 15 then s
  else
    let raw := (s.loop n).raw
    let now := s.loopCorrected n raw
    let base := raw + s.sget (ALP_CHnTRIM_OFFS n) - 4000
    let gain := if base = 0 then 0 else roundRatio ((16000 - base) * 1000000 * base.sign) base.natAbs
    if now < 19000 ∨ 21000 < now ∨ base = 0 ∨ gain < -30000 ∨ 30000 < gain then s.keyRefused 3
    else (s.setTrim n (fieldPut (s.rd (ALP_CHnTRIM n)) 16 16 (patternOf 16 gain))).emit 0x7017 [n, 2, patternOf 32 gain]

/-- A key is pressed, has been held for 2 s since `at_` (it acts), or is released. -/
def State.keyHold (s : State) (f : Fld) (at_ : Nat) (k : KeyHold) (act : State → State) : State :=
  match k with
  | .press => s.setBit f true
  | .held => if s.bit f && decide (at_ + 2000000000 ≤ s.mono) then act s else s
  | .release => s.setBit f false

def execKeyZero (t : Nat) (k : KeyHold) (s : State) : Host.Outcome State Fault Refusal :=
  let s := s.advance t
  let s := if k = .press ∧ !s.bit ALP_KEYS_ZERO then s.withAlp fun a => { a with zeroAt := s.mono } else s
  .next (s.keyHold ALP_KEYS_ZERO s.alp.zeroAt k keyZero)

def execKeySpan (t : Nat) (k : KeyHold) (s : State) : Host.Outcome State Fault Refusal :=
  let s := s.advance t
  let s := if k = .press ∧ !s.bit ALP_KEYS_SPAN then s.withAlp fun a => { a with spanAt := s.mono } else s
  .next (s.keyHold ALP_KEYS_SPAN s.alp.spanAt k keySpan)

/-- CLRTRIM (10 R373). -/
def alpClrtrim (n : Nat) (s : State) : State × Nat := (s.setTrim n 0#32, 0)

def execClrtrim (t cseq : Nat) (ch : Fin 8) (s : State) : Host.Outcome State Fault Refusal :=
  .next ((s.advance t).mailbox ALP_SEQ_LASTCMD ALP_RES_RESULT cseq (alpClrtrim ch.val))

end Sys2Proof.Machine
end

