-- ==== Sys2Proof/Machine/CycCheck.lean ====
section
/-!
DEFINITION. The configuration checks of CYC: fields of tasks (01 R16, R24; 05 R166), core-complex time (01 R29 to
R31), the response-time analysis (05 R169), the image map (05 R173) and the mover's work (05 R176). Each check
answers the first refusal it finds, in the form of 15 R542.
-/

namespace Sys2Proof.Machine

open Reg

/-- A refusal of CONFIGURE (15 R542). -/
structure CfgRefusal where
  result : Nat
  claimB : Nat := 0
  claimA : Nat := 0
  resource : Nat := 0
  index : Nat := 0
  index2 : Nat := 0
deriving DecidableEq, Repr

/-- The first refusal of two checks. -/
def firstOf (a b : Option CfgRefusal) : Option CfgRefusal :=
  match a with
  | some r => some r
  | none => b

/-- The first refusal over a list. -/
def firstRefusal {α : Type} (f : α → Option CfgRefusal) : List α → Option CfgRefusal
  | [] => none
  | x :: r => firstOf (f x) (firstRefusal f r)

/-- The tasks the configuration enables, ascending. -/
def State.enabledTasks (s : State) : List Nat := (List.range 16).filter fun n => s.bit (CYC_TnREL_EN n)

def State.taskPart (s : State) (n : Nat) : Nat := s.get (CYC_TnREL_PART n)
def State.taskSafety (s : State) (n : Nat) : Bool := s.isSafety (s.taskPart n)

/-- The tier of a task (01 R27). -/
def State.taskTier (s : State) (n : Nat) : Nat := if s.taskSafety n then 3 else 5

/-- The tier of a claimant by its kind (01 R27, R28); a partition's own claims take the tier of its tasks, those of a partition of the
service cores tier 6. -/
def State.claimantTier (s : State) (c : Nat) : Nat :=
  let i := c % 0x1000
  match c / 0x1000 with
  | 0x1 => s.taskTier i
  | 0x2 => 2
  | 0x3 => 5
  | 0x4 => 4
  | 0x5 => 4
  | 0x6 => if s.isSafety i then 3 else if ((s.partition i).map (·.service)).getD false then 6 else 5
  | 0x7 => if i = 0 ∧ s.bit MEM_STAT_PROMO then 5 else 6
  | 0x8 => 6
  | 0x9 => 1
  | _ => 3

/-- A claimant for whose guarantee that of a victim of tier `tier` may be broken (01 R28, R33): its kind is one in use, its tier no
lower. -/
def State.mayBenefit (s : State) (tier c : Nat) : Bool :=
  decide (0x1000 ≤ c) && decide (c < 0xB000) && decide (s.claimantTier c ≤ tier)

/-- Budget and period of a task in ns. -/
def State.taskBudget (s : State) (n : Nat) : Nat := s.get (CYC_TnBUD_BUD n) * 100
def State.taskPeriod (s : State) (n : Nat) : Nat := s.get (CYC_TnPER_PER n) * 125000

/-- Fields of a task (01 R16, R24; 05 R166). -/
def State.checkTask (s : State) (n : Nat) : Option CfgRefusal :=
  let per := s.get (CYC_TnPER_PER n)
  let rel := s.get (CYC_TnREL_REL n)
  if per < 2 ∨ 8192 < per ∨ per ≤ s.get (CYC_TnPER_OFFS n) ∨ rel < 1 ∨ per < rel ∨ s.get (CYC_TnBUD_BUD n) = 0
      ∨ (s.partition (s.taskPart n)).isNone then
    some { result := 3, index := n }
  else none

/-- Of the other claimants among tasks `l`, the one of lowest tier and highest index (01 R31). -/
def State.otherTask (s : State) (l : List Nat) (n : Nat) : Option Nat :=
  l.foldl (fun best m => if m = n then best else match best with
    | none => some m
    | some b => if s.taskTier b ≤ s.taskTier m then some m else some b) none

/-- A refusal of a share by task `n` (01 R31). -/
def State.taskRefusal (s : State) (l : List Nat) (n resource : Nat) : CfgRefusal :=
  let other := s.otherTask l n
  { result := 1, claimB := 0x1000 + n, claimA := (other.map (0x1000 + ·)).getD 0, resource, index := n, index2 := other.getD 0 }

/-- Core-complex time: the sum of budget over period stays at or below 0.90 (01 R29), added in task order. -/
def State.checkCoreTime (s : State) (l : List Nat) : List Nat → Nat × Nat → Option CfgRefusal
  | [], _ => none
  | n :: r, (a, b) =>
    let num := a * s.taskPeriod n + s.taskBudget n * b
    let den := b * s.taskPeriod n
    if 9 * den < 10 * num then some (s.taskRefusal l n 0x0001) else s.checkCoreTime l r (num, den)

/-- Release jitter of a task (05 R169) with the dispatch delay `extra` added (05 R194). -/
def State.jitter (s : State) (extra n : Nat) : Nat := (if s.taskSafety n then 50000 else 20000) + extra

/-- One iteration of the response-time equation (05 R169). -/
def State.responseStep (s : State) (extra : Nat) (higher : List Nat) (c w : Nat) : Nat :=
  higher.foldl (fun acc j =>
    acc + (w + s.jitter extra j + s.taskPeriod j - 1) / s.taskPeriod j * (s.taskBudget j + 2000)) c

/-- Whether task `n` meets its deadline: iteration from w = C until it settles or J + w reaches D (05 R169). The
fuel exceeds the steps possible, since each step that does not settle adds at least 2 µs. A failure gives the w of the sum that
failed, `prev`. -/
def State.responds (s : State) (extra : Nat) (higher : List Nat) (n : Nat) : Nat → Nat → Nat → Bool × Nat
  | 0, prev, _ => (false, prev)
  | fuel + 1, prev, w =>
    if s.get (CYC_TnREL_REL n) * 125000 ≤ s.jitter extra n + w then (false, prev)
    else
      let w' := s.responseStep extra higher (s.taskBudget n) w
      if w' = w then (true, w) else s.responds extra higher n fuel w w'

/-- The response-time analysis of one task (05 R169). DESIGN CHOICE, log entry 81: the terms of the failed iteration are those of the
sum that reached the deadline, at the w it was formed with; where C alone reaches it, at w = C. -/
def State.checkResponse (s : State) (extra : Nat) (l : List Nat) (n : Nat) : Option CfgRefusal :=
  let higher := l.filter fun j => decide (j < n)
  match s.responds extra higher n 600000 (s.taskBudget n) (s.taskBudget n) with
  | (true, _) => none
  | (false, w) =>
    let term := fun j => (w + s.jitter extra j + s.taskPeriod j - 1) / s.taskPeriod j * (s.taskBudget j + 2000)
    let worst := higher.foldl (fun best j => match best with
      | none => some j
      | some b => if term b ≤ term j then some j else some b) none
    some { result := 1, claimB := 0x1000 + n, claimA := (worst.map (0x1000 + ·)).getD 0, resource := 0x0001,
           index := n, index2 := worst.getD 0 }

/-! ### Image map -/

/-- The image map entries in use, ascending: only entries a configuration has written can be (reset 0). -/
def State.imageEntries (s : State) : List Nat :=
  (s.regs.filterMap fun e => if e.1 % 0x100000000 = CYC_IMD0 then some (e.1 / 0x100000000) else none).filter fun i =>
    s.bit ⟨bank CYC_IMD0 i, 31, 1⟩ && s.get ⟨bank CYC_IMD0 i, 0, 4⟩ != 0

/-- Fields of an image map entry (05 R173, R202). -/
def State.imKind (s : State) (i : Nat) : Nat := s.get ⟨bank CYC_IMD0 i, 0, 4⟩
def State.imStation (s : State) (i : Nat) : Nat := s.get ⟨bank CYC_IMD0 i, 4, 12⟩
def State.imTask (s : State) (i : Nat) : Nat := s.get ⟨bank CYC_IMD0 i, 16, 4⟩
def State.imOut (s : State) (i : Nat) : Bool := s.bit ⟨bank CYC_IMD0 i, 20, 1⟩
def State.imQw (s : State) (i : Nat) : Bool := s.bit ⟨bank CYC_IMD0 i, 21, 1⟩
def State.imSubz (s : State) (i : Nat) : Bool := s.bit ⟨bank CYC_IMD0 i, 22, 1⟩
def State.imOffset (s : State) (i : Nat) : Nat := s.get ⟨bank CYC_IMD1 i, 0, 16⟩
def State.imLength (s : State) (i : Nat) : Nat := s.get ⟨bank CYC_IMD1 i, 16, 11⟩
def State.imAddress (s : State) (i : Nat) : Nat := s.get ⟨bank CYC_IMD2 i, 2, 30⟩ * 4

/-- Highest station number of a kind, and whether it has an output direction (05 R173). -/
def kindLimits : Nat → Option (Nat × Bool)
  | 1 => some (0, true)
  | 2 => some (7, true)
  | 3 => some (4095, true)
  | 4 => some (4095, true)
  | 5 => some (255, true)
  | 6 => some (63, false)
  | 7 => some (0, true)
  | 8 => some (31, true)
  | 9 => some (3, false)
  | _ => none

/-- Words an entry takes in memory: its data and, for an input with QW, its status word (05 R175). -/
def State.imWords (s : State) (i : Nat) : Nat := s.imLength i + (if s.imQw i && !s.imOut i then 1 else 0)

/-- Fields and window of an entry (05 R173). -/
def State.checkEntry (s : State) (i : Nat) : Option CfgRefusal :=
  let bad := some { result := 3, index := i : CfgRefusal }
  match kindLimits (s.imKind i) with
  | none => bad
  | some (top, out) =>
    if top < s.imStation i ∨ (s.imOut i ∧ !out) ∨ (s.imOut i ∧ s.imQw i) ∨ s.imLength i = 0 ∨ 1024 < s.imLength i then bad
    else match s.partition (s.taskPart (s.imTask i)) with
      | none => bad
      | some q => if q.lo ≤ s.imAddress i ∧ s.imAddress i + 4 * s.imWords i ≤ q.hi + 1 then none else bad

/-- Two output entries that write the same word of the same station (05 R173). -/
def State.entriesClash (s : State) (i j : Nat) : Bool :=
  s.imOut i && s.imOut j && s.imKind i == s.imKind j && s.imStation i == s.imStation j
    && decide (s.imOffset i < s.imOffset j + s.imLength j) && decide (s.imOffset j < s.imOffset i + s.imLength i)

/-- Output clashes of an entry with those before it. -/
def State.checkClashes (s : State) : List Nat → List Nat → Option CfgRefusal
  | _, [] => none
  | before, i :: r =>
    match before.find? (s.entriesClash i) with
    | some j => some { result := 2, claimB := 0x1000 + s.imTask i, claimA := 0x1000 + s.imTask j, index := i, index2 := j }
    | none => s.checkClashes (before ++ [i]) r

/-- Mover work of a task's inputs or outputs in units of 4 ns: 0.2 µs per entry, 4 ns per word (05 R176). -/
def State.moverWork (s : State) (entries : List Nat) (n : Nat) (out : Bool) : Nat :=
  ((entries.filter fun i => s.imTask i == n && s.imOut i == out).map fun i => 50 + s.imWords i).foldl (· + ·) 0

/-- Residue, period, work and task of every kind of edge that moves entries. -/
def State.moverEdges (s : State) (l : List Nat) : List (Nat × Nat × Nat × Nat) :=
  let es := s.imageEntries
  (l.flatMap fun n =>
    let per := s.get (CYC_TnPER_PER n)
    let offs := s.get (CYC_TnPER_OFFS n)
    [(offs % per, per, s.moverWork es n false, n), ((offs + s.get (CYC_TnREL_REL n)) % per, per, s.moverWork es n true, n)]).filter
      fun e => e.2.2.1 != 0

/-- Whether two edge classes have a common tick. -/
def edgesMeet (a b : Nat × Nat × Nat × Nat) : Bool :=
  let g := Nat.gcd a.2.1 b.2.1
  a.1 % g == b.1 % g

/-- The heaviest set of edge classes that pairwise, hence jointly, have a common tick: its work and highest task. A class that
meets every class left is never better left out. -/
def heaviestEdge : List (Nat × Nat × Nat × Nat) → List (Nat × Nat × Nat × Nat) → Nat × Nat
  | chosen, [] => (chosen.foldl (fun a e => a + e.2.2.1) 0, chosen.foldl (fun a e => max a e.2.2.2) 0)
  | chosen, e :: r =>
    if chosen.all (edgesMeet e) then
      let with_ := heaviestEdge (e :: chosen) r
      if (r.filter fun x => chosen.all (edgesMeet x)).all (edgesMeet e) then with_
      else
        let without := heaviestEdge chosen r
        if without.1 < with_.1 then with_ else without
    else heaviestEdge chosen r

/-- The mover's work stays within 18 µs at every edge (05 R176). -/
def State.checkMover (s : State) (l : List Nat) : Option CfgRefusal :=
  let (work, n) := heaviestEdge [] (s.moverEdges l)
  if 4500 < work then some (s.taskRefusal l n 0x0001) else none

/-- Every check of CYC's configuration registers; `extra` delays each dispatch. -/
def State.checkCyc (s : State) (extra : Nat) : Option CfgRefusal :=
  let l := s.enabledTasks
  firstOf (firstRefusal s.checkTask l) <|
  firstOf (s.checkCoreTime l l (0, 1)) <|
  firstOf (firstRefusal (s.checkResponse extra l) l) <|
  firstOf (firstRefusal s.checkEntry s.imageEntries) <|
  firstOf (s.checkClashes [] s.imageEntries) (s.checkMover l)

/-- Report a refusal in SYS_CFGRES0 to SYS_CFGRES2 and with event 0xE002 (15 R501, R542). -/
def State.reportRefusal (s : State) (r : CfgRefusal) (comb : Nat) : State :=
  let s := ((s.set SYS_CFGRES0_RESULT r.result).set SYS_CFGRES0_INDEX r.index).set SYS_CFGRES0_COMB comb
  let s := (s.set SYS_CFGRES1_RESOURCE r.resource).set SYS_CFGRES1_INDEX2 r.index2
  let s := (s.set SYS_CFGRES2_CLAIMB r.claimB).set SYS_CFGRES2_CLAIMA r.claimA
  s.emit 0xE002 [(s.rd SYS_CFGRES0).toNat, (s.rd SYS_CFGRES1).toNat, (s.rd SYS_CFGRES2).toNat]

end Sys2Proof.Machine
end

