-- ==== Sys2Proof/Machine/CoreOps.lean ====
section
/-!
DEFINITION. What every core instruction shares (03): registers, special registers, privilege and window checks,
the fetch, exception entry and return, retirement.
-/

namespace Sys2Proof.Machine

open Reg

/-! ### The cores' registers -/

/-- The state of a core master. -/
def State.coreOf (s : State) : Master → CoreState
  | .cx => s.cx
  | .sc0 => s.sc0
  | .sc1 => s.sc1

/-- Change the state of a core master. -/
def State.onCore (s : State) (c : Master) (f : CoreState → CoreState) : State :=
  match c with
  | .cx => { s with cx := f s.cx }
  | .sc0 => { s with sc0 := f s.sc0 }
  | .sc1 => { s with sc1 := f s.sc1 }

/-- Read GPn; GP0 reads 0 (03 R81). -/
def CoreState.gpr (x : CoreState) (n : RegNo) : Word := if n = 0 then 0 else CMap.lookup (fun _ => 0#32) x.gp n.val

/-- Write GPn; a write to GP0 is discarded (03 R81). -/
def CoreState.setGpr (x : CoreState) (n : RegNo) (v : Word) : CoreState :=
  if n = 0 then x else { x with gp := CMap.put (fun _ => 0#32) x.gp n.val v }

/-- Read FPn, 64 bits (03 R82). -/
def CoreState.fpr (x : CoreState) (n : RegNo) : DWord := CMap.lookup (fun _ => 0#64) x.fp n.val

/-- Write FPn, 64 bits. -/
def CoreState.setFpr (x : CoreState) (n : RegNo) (v : DWord) : CoreState :=
  { x with fp := CMap.put (fun _ => 0#64) x.fp n.val v }

/-- Reset values of the special registers (03 R84). -/
def sprReset (n : Nat) : Word :=
  if n = 0x000 then 0x2#32 else if n = 0x015 then 0xF0000800#32
  else if n = 0x070 ∨ n = 0x071 then 0xFFFFFFFF#32 else if n = 0x072 then 0x80000000#32 else 0#32

/-- A special register as held. -/
def CoreState.special (x : CoreState) (n : Nat) : Word := CMap.lookup sprReset x.spr n

/-- Set a special register as held. -/
def CoreState.setSpecial (x : CoreState) (n : Nat) (v : Word) : CoreState := { x with spr := CMap.put sprReset x.spr n v }

/-! Numbers of the special registers (03 R84). -/
def sprSTATUS : Nat := 0x000
def sprEVBASE : Nat := 0x005
def sprMVBASE : Nat := 0x015
def sprIMASK : Nat := 0x020
def sprIPEND : Nat := 0x021
def sprFPSR : Nat := 0x030
def sprTASK : Nat := 0x040
def sprRIC_LO : Nat := 0x060
def sprRIC_HI : Nat := 0x061
def sprTCMP_LO : Nat := 0x070
def sprTCMP_HI : Nat := 0x071
def sprTSHI : Nat := 0x072

/-- EPC, ESTAT, ECAUSE and EADDR of a level, executive (false) or monitor (true). -/
def sprEPC (m : Bool) : Nat := if m then 0x011 else 0x001
def sprESTAT (m : Bool) : Nat := if m then 0x012 else 0x002
def sprECAUSE (m : Bool) : Nat := if m then 0x013 else 0x003
def sprEADDR (m : Bool) : Nat := if m then 0x014 else 0x004

/-- A field of a special register. -/
def CoreState.sprField (x : CoreState) (n lo w : Nat) : Nat := fieldGet (x.special n) lo w

/-- Set a field of a special register. -/
def CoreState.putSprField (x : CoreState) (n lo w v : Nat) : CoreState :=
  x.setSpecial n (fieldPut (x.special n) lo w v)

/-- STATUS.PRIV, IE, EXLE, EXLM, PART (03 R85). -/
def CoreState.priv (x : CoreState) : Nat := x.sprField sprSTATUS 0 2
def CoreState.ie (x : CoreState) : Bool := x.sprField sprSTATUS 2 1 == 1
def CoreState.exle (x : CoreState) : Bool := x.sprField sprSTATUS 3 1 == 1
def CoreState.exlm (x : CoreState) : Bool := x.sprField sprSTATUS 4 1 == 1
def CoreState.part (x : CoreState) : Nat := x.sprField sprSTATUS 8 5

/-- TASK.INDEX and TASK.VALID (03 R85). -/
def CoreState.taskIndex (x : CoreState) : Nat := x.sprField sprTASK 0 4
def CoreState.taskValid (x : CoreState) : Bool := x.sprField sprTASK 31 1 == 1

/-- The instruction retires (02 R59). -/
def CoreState.count (x : CoreState) : CoreState := { x with ric := x.ric + 1 }

/-- The instruction retires and the next one follows. -/
def CoreState.retire (x : CoreState) : CoreState := { x.count with pc := x.pc + 4 }

/-- Sign extension of an immediate (03 R94). -/
def sext16 (i : BitVec 16) : Word := i.signExtend 32
def zext16 (i : BitVec 16) : Word := i.setWidth 32

/-! ### Exceptions -/

/-- The service core's index. -/
def scIndex : Master → Nat
  | .sc1 => 1
  | _ => 0

/-- The reset state of a core: everything at reset (03 R83, R117). -/
def CoreState.fresh (stopped : Bool) : CoreState := { stopped := stopped }

/-- CORE_SCCTL.EN of a service core. -/
def State.scEnabled (s : State) (c : Master) : Bool :=
  match c with
  | .sc1 => s.bit CORE_SCCTL_EN1
  | _ => s.bit CORE_SCCTL_EN0

/-- CORE_SCSTAT.RUN follows whether the service core runs. -/
def State.showService (s : State) : State :=
  (s.setBit CORE_SCSTAT_RUN0 (!s.sc0.stopped)).setBit CORE_SCSTAT_RUN1 (!s.sc1.stopped)

/-- The holder that is a service core's instruction cache. -/
def instructionLevel (c : Master) : Nat := 3 + scIndex c

/-- Reset a service core: it restarts only while its enable bit is 1 (02 R77, 03 R117). Its own caches hold nothing then, log entry 42. -/
def State.resetService (s : State) (c : Master) : State :=
  let s := s.onCore c fun _ => CoreState.fresh (!s.scEnabled c)
  let s := s.withMem fun m => { m with resv := m.resv.filter fun e => e.1 != c }
  let own := fun (e : CacheWord) => e.holder == scIndex c || e.holder == instructionLevel c
  let s := { s with core := { s.core with cache := s.core.cache.filter fun e => !own e } }
  (match c with
    | .sc1 => { s with core := { s.core with kick1 := s.mono } }
    | _ => { s with core := { s.core with kick0 := s.mono } }).showService

/-- Clear a master's LDL reservation (03 R112). -/
def State.clearReservation (s : State) (c : Master) : State :=
  s.withMem fun m => { m with resv := m.resv.filter fun e => e.1 != c }

/-- Exception entry to the executive (false) or the monitor (true) as one step (03 R119). -/
def State.enterException (s : State) (c : Master) (m : Bool) (cause sub : Nat) (epc eaddr : Word) : State :=
  let s := s.onCore c fun x =>
    let estat := x.priv + (if x.ie then 4 else 0) + x.part * 256
    let base := x.special (if m then sprMVBASE else sprEVBASE)
    let x := x.setSpecial (sprEPC m) epc
    let x := x.setSpecial (sprESTAT m) (BitVec.ofNat 32 estat)
    let x := x.setSpecial (sprECAUSE m) (BitVec.ofNat 32 (cause + sub % 256 * 256))
    let x := x.setSpecial (sprEADDR m) eaddr
    let x := x.putSprField sprSTATUS 0 2 (if m then 2 else 1)
    let x := x.putSprField sprSTATUS 2 1 0
    let x := x.putSprField sprSTATUS (if m then 4 else 3) 1 1
    { x with pc := BitVec.ofNat 32 (base.toNat / 2048 * 2048 + cause * 0x40), wait := .none }
  s.clearReservation c

/-- An exception at monitor privilege with EXLM = 1 (03 R117): the complex demands SAFE, a service core is reset. -/
def State.nestedMonitor (s : State) (c : Master) (cause : Nat) : State :=
  match c with
  | .cx => (s.onCore .cx fun x => { x with wait := .noResponse }).sysDemand 1 0
  | .sc0 => ((s.resetService .sc0).setBit CORE_SCSTAT_MFLT0 true).emit 0x1012 [0, cause]
  | .sc1 => ((s.resetService .sc1).setBit CORE_SCSTAT_MFLT1 true).emit 0x1012 [1, cause]

/-- The causes that become a double fault while STATUS.EXLE = 1 (03 R117). -/
def doubles (cause : Nat) : Bool := (decide (1 ≤ cause) && decide (cause ≤ 12)) || cause == 14

/-- Raise an exception (03 R114, R117): where each cause goes. `sub`, `epc` and `eaddr` are the cause table's; of a double fault EPC is
the instruction. -/
def State.raise (s : State) (c : Master) (cause sub : Nat) (epc eaddr : Word) : State :=
  let x := s.coreOf c
  if x.priv = 2 ∧ x.exlm then s.nestedMonitor c (x.special (sprECAUSE true)).toNat
  else if x.exle ∧ doubles cause then s.enterException c true 15 cause x.pc eaddr
  else if x.priv = 2 ∨ cause = 13 then s.enterException c true cause sub epc eaddr
  else s.enterException c false cause sub epc eaddr

/-- Raise an exception at the instruction itself: EPC is its address. -/
def State.raiseHere (s : State) (c : Master) (cause sub : Nat) (eaddr : Word) : State :=
  s.raise c cause sub (s.coreOf c).pc eaddr

/-- ERET at privilege x as one step (03 R120); `m`: at monitor privilege. DEDUCED: the PC is word-aligned (03 R91), log entry 38. -/
def State.returnFrom (s : State) (c : Master) (m : Bool) : State :=
  let s := s.onCore c fun x =>
    let e := x.special (sprESTAT m)
    let x := { x.count with pc := x.special (sprEPC m) &&& 0xFFFFFFFC#32 }
    let x := x.putSprField sprSTATUS 0 2 (fieldGet e 0 2)
    let x := x.putSprField sprSTATUS 2 1 (fieldGet e 2 1)
    let x := x.putSprField sprSTATUS 8 5 (fieldGet e 8 5)
    x.putSprField sprSTATUS (if m then 4 else 3) 1 0
  s.clearReservation c

/-! ### Targets of an access -/

/-- What an address of the cores' map names (01 R19). -/
inductive Target where
  /-- A word of SRAM, MRAM or DRAM. -/
  | word (key : Nat)
  | flash (off : Nat)
  | register (addr : Nat)
  | peProgram (off : Nat)
  | peData (off : Nat)
  | peHistory (off : Nat)
  | buffer (off : Nat)
  | backplane (addr : Nat)
  | rom (off : Nat)
  /-- No target: error response (01 R19; 04 R137, R160, R161). -/
  | nothing
deriving DecidableEq, Repr

/-- The DRAM bank of a master (04 R161). -/
def State.dramBank (s : State) : Master → Nat
  | .cx => s.get MEM_DBANK_CX
  | .sc0 => s.get MEM_DBANK_SC0
  | .sc1 => s.get MEM_DBANK_SC1

/-- The word key of an address in SRAM, MRAM or, in DRAM bank `bank`, the DRAM window (04 R161). -/
def addressKey (bank addr : Nat) : Option Nat :=
  if addr < 0x800000 then some (wordKey addr)
  else if 0x10000000 ≤ addr ∧ addr < 0x10100000 then some (wordKey addr)
  else if 0x80000000 ≤ addr ∧ addr < 0xC0000000 ∧ bank < 3 then
    some (wordKey (dramBase + bank * 0x40000000 + (addr - 0x80000000)))
  else none

/-- The word key of an address that a core or the mover reaches: the disturbance ring answers neither (the text before 09 R329). -/
def memoryKey (bank addr : Nat) : Option Nat := (addressKey bank addr).filter fun k => decide (k < ringBase)

/-- The target of an address in DRAM bank `bank` (01 R19). -/
def State.targetIn (s : State) (bank addr : Nat) : Target :=
  match memoryKey bank addr with
  | some k => if s.wordReachable k then .word k else .nothing
  | none =>
    if 0x20000000 ≤ addr ∧ addr < 0x40000000 then .flash (addr - 0x20000000)
    else if 0x40000000 ≤ addr ∧ addr < 0x41000000 then
      if (regInfo addr).isSome then .register addr else .nothing
    else if 0x50000000 ≤ addr ∧ addr < 0x50040000 then .peProgram (addr - 0x50000000)
    else if 0x50040000 ≤ addr ∧ addr < 0x50080000 then .peData (addr - 0x50040000)
    else if 0x50080000 ≤ addr ∧ addr < 0x500E0000 then .peHistory (addr - 0x50080000)
    else if 0x60000000 ≤ addr ∧ addr < 0x60400000 then .buffer (addr - 0x60000000)
    else if 0xC0000000 ≤ addr ∧ addr < 0xE0000000 then .backplane addr
    else if 0xF0000000 ≤ addr ∧ addr < 0xF0010000 then .rom (addr - 0xF0000000)
    else .nothing

/-- The target of a core's access. -/
def State.target (s : State) (c : Master) (addr : Nat) : Target := s.targetIn (s.dramBank c) addr

/-! ### Window and protection checks -/

/-- The right an access needs (03 R87), as the bit of MPBASEn that grants it. -/
inductive Right where | rd | wr | ex
deriving DecidableEq, Repr

def Right.bit : Right → Nat
  | .rd => 1 | .wr => 2 | .ex => 3

/-- Entry `n` is in use. -/
def CoreState.mpOn (x : CoreState) (n : Nat) : Bool := x.sprField (0x100 + 2 * n) 0 1 == 1

/-- Entry `n` holds bytes [lo, hi] and grants the right (03 R85, R87). -/
def CoreState.mpGrants (x : CoreState) (r : Right) (lo hi n : Nat) : Bool :=
  x.mpOn n && x.sprField (0x100 + 2 * n) r.bit 1 == 1
    && decide (x.sprField (0x100 + 2 * n) 5 27 * 32 ≤ lo) && decide (hi ≤ x.sprField (0x101 + 2 * n) 5 27 * 32 + 31)

/-- The protection entries allow the access (03 R87). -/
def CoreState.mpAllows (x : CoreState) (r : Right) (lo hi : Nat) : Bool :=
  !(List.range 8).any x.mpOn || (List.range 8).any (x.mpGrants r lo hi)

/-- Record and report a service firewall violation (02 R75). -/
def State.firewall (s : State) (c : Master) (addr : Nat) : State :=
  match c with
  | .cx => s
  | .sc0 => (((s.setBit CORE_SCSTAT_FWV0 true).set CORE_SCFWA0_ADDR addr)).emit 0x1011 [0, addr, s.sc0.part]
  | .sc1 => (((s.setBit CORE_SCSTAT_FWV1 true).set CORE_SCFWA1_ADDR addr)).emit 0x1011 [1, addr, s.sc1.part]

/-- Whether the window of a partition that satisfies `p` meets bytes [lo, hi] in DRAM bank `bank` (01 R16). -/
def State.inWindowOf (s : State) (p : Partition → Bool) (bank lo hi : Nat) : Bool :=
  let dram := decide (0x80000000 ≤ lo) && decide (lo < 0xC0000000)
  s.sys.parts.any fun q => p q && decide (q.lo ≤ hi) && decide (lo ≤ q.hi) && (!dram || q.bank == bank)

/-- Whether a safety partition's window meets bytes [lo, hi] in DRAM bank `bank` (01 R16). -/
def State.inSafetyWindow (s : State) (bank lo hi : Nat) : Bool := s.inWindowOf (·.safety) bank lo hi

/-- The output image entries that hold the word with key `k` (05 R173): addresses of the task's partition, in its DRAM bank. -/
def State.outputEntriesAt (s : State) (k : Nat) : List Nat :=
  s.imageEntries.filter fun i =>
    let bank := ((s.partition (s.taskPart (s.imTask i))).map (·.bank)).getD 0
    s.imOut i && match memoryKey bank (s.imAddress i) with
      | some lo => decide (lo ≤ k) && decide (k < lo + 4 * s.imLength i)
      | none => false

/-- The command registers whose commands change the operating mode (02 R78; 14 R480, R483; 15 R495). -/
def modeCommand (lo : Nat) : Bool := lo / 4 * 4 == SYS_CMD || lo / 4 * 4 == PAIR_CMD

/-- What a service core can never reach, whatever a window grants: a safety partition's window and the GIRTH block (01 R14). -/
def State.serviceExcluded (s : State) (c : Master) (lo hi : Nat) : Bool :=
  s.inSafetyWindow (s.dramBank c) lo hi || (decide (0x40700000 ≤ hi) && decide (lo < 0x40800000))

/-- What a service core can never write beside that (02 R75, R78): CYC, CORE but its own CORE_SCKICK, the output side of any image, a
command that changes the mode. -/
def State.serviceForbidden (s : State) (c : Master) (lo hi : Nat) : Bool :=
  let kick := match c with | .sc1 => CORE_SCKICK1 | _ => CORE_SCKICK0
  let image := match memoryKey (s.dramBank c) lo with
    | some k => !(s.outputEntriesAt k).isEmpty
    | none => false
  image || modeCommand lo || (decide (0x40300000 ≤ hi) && decide (lo < 0x40400000))
    || (decide (0x40100000 ≤ hi) && decide (lo < 0x40200000) && lo != kick)

/-- What the CORE block lets every service core do: read CORE_ID and CORE_STAT, write its own CORE_SCKICK (02 R80). DEDUCED: no
grant of the window is needed for these, log entry 9. -/
def serviceGrant (c : Master) (r : Right) (lo : Nat) : Bool :=
  match c, r with
  | .cx, _ => false
  | _, .rd => lo == CORE_ID || lo == CORE_STAT
  | .sc0, .wr => lo == CORE_SCKICK0
  | .sc1, .wr => lo == CORE_SCKICK1
  | _, .ex => false

/-- A fetch from the boot ROM: at monitor privilege it needs no window (03 R88; log entry 9). -/
def romFetch (r : Right) (priv lo : Nat) : Bool := r == .ex && priv == 2 && decide (0xF0000000 ≤ lo) && decide (lo < 0xF0010000)

/-- Whether the service firewall passes an access (01 R14, R16; 02 R75): in the window of the issuing partition, which is no safety
partition, and nothing a service core may not reach. -/
def State.firewallPasses (s : State) (c : Master) (r : Right) (lo hi : Nat) : Bool :=
  match c with
  | .cx => true
  | _ =>
    let x := s.coreOf c
    romFetch r x.priv lo || serviceGrant c r lo
      || (s.reaches x.part lo hi && !s.isSafety x.part && !s.serviceExcluded c lo hi
        && !(r == .wr && s.serviceForbidden c lo hi))

/-- The core's own checks of an access, at partition privilege only (01 R21; 03 R87, R88; 04 R159): the subcause, if one fails. -/
def State.coreRefuses (s : State) (c : Master) (r : Right) (lo hi : Nat) : Option Nat :=
  let x := s.coreOf c
  if x.priv ≠ 0 then none
  else if !(s.reaches x.part lo hi || serviceGrant c r lo) || (decide (0x40200000 ≤ lo) && decide (lo < 0x40300000)) then some 1
  else if !x.mpAllows r lo hi then some 6
  else none

/-- The service firewall at an access that is presented (02 R75): a refusal is an error response. -/
def State.firewallCheck (s : State) (c : Master) (r : Right) (lo hi : Nat) : State × Option Nat :=
  if s.firewallPasses c r lo hi then (s, none) else (s.firewall c lo, some 2)

/-- The core's own checks with what they report: a service core outside its window is a violation of the firewall too (02 R75). -/
def State.coreCheck (s : State) (c : Master) (r : Right) (lo hi : Nat) : State × Option Nat :=
  match s.coreRefuses c r lo hi with
  | some 1 => (s.firewall c lo, some 1)
  | r => (s, r)

/-- The checks of an access before its target has it (01 R21; 02 R75; 03 R87; 04 R159): the subcause, if one fails. -/
def State.checkAccess (s : State) (c : Master) (r : Right) (lo hi : Nat) : State × Option Nat :=
  match s.coreCheck c r lo hi with
  | (s, some sub) => (s, some sub)
  | (s, none) => s.firewallCheck c r lo hi

/-- How a target answers a write. -/
inductive WriteAnswer where
  | done
  | error (sub : Nat)
  | held
deriving DecidableEq, Repr

/-! ### Stores to memory words -/

/-- Byte enables of an access. -/
def byteEnables (addr size : Nat) : BitVec 4 :=
  if size = 0 then BitVec.ofNat 4 (2 ^ (addr % 4)) else if size = 1 then BitVec.ofNat 4 (3 * 2 ^ (addr % 4)) else 15#4

/-- The value of a store in the lanes of its word. -/
def storeLanes (addr : Nat) (v : Word) : Word := v <<< (8 * (addr % 4))

/-- A store of a core to a memory word: SRAM and DRAM through the merge buffer, MRAM directly (04 R144, R162). -/
def State.storeWord (s : State) (c : Master) (priv part k addr size : Nat) (v : Word) : State × WriteAnswer :=
  let be := byteEnables addr size
  let d := storeLanes addr v
  if spaceOf k = .mram then
    if moduleMram k ∧ priv ≠ 2 then (s, .error 2)
    else ((s.breakReservations k (some c)).writeBytes k be d (masterCode c) part, .done)
  else (s.mergeStore c k be d part, .done)

/-! ### The caches of the service cores (02 R74) -/

/-- The holder that is a service core's own first level; the shared second level is holder 2. -/
def secondLevel : Nat := 2

/-- Change what the caches hold. -/
def State.withCache (s : State) (f : List CacheWord → List CacheWord) : State :=
  { s with core := { s.core with cache := f s.core.cache } }

/-- The key of the word at `addr` where core `c` caches it: a service core, in a range its partition declares cacheable, in the window
of no partition of the complex (02 R74). -/
def State.cacheKey (s : State) (c : Master) (addr : Nat) : Option Nat :=
  if c = .cx then none
  else match s.partition (s.coreOf c).part, memoryKey (s.dramBank c) addr with
    | some q, some k =>
      let lo := addr / 4 * 4
      if q.service && q.cacheable.any (fun g => decide (g.1 ≤ lo) && decide (lo + 3 ≤ g.2))
          && !s.inWindowOf (fun p => !p.service) (s.dramBank c) lo (lo + 3) then some k
      else none
    | _, _ => none

/-- The word a holder has for a key. -/
def State.cached (s : State) (holder key : Nat) : Option CacheWord :=
  s.core.cache.find? fun e => e.holder == holder && e.key == key

/-- A holder drops its word for a key. -/
def State.uncache (s : State) (holder key : Nat) : State :=
  s.withCache fun l => l.filter fun e => !(e.holder == holder && e.key == key)

/-- A holder takes a word. -/
def State.takeWord (s : State) (e : CacheWord) : State := (s.uncache e.holder e.key).withCache (· ++ [e])

/-- A held word that memory has not yet is written to it; a word that cannot be reached answers with an error and stays as it is (04
R160). -/
def State.cleanWord (s : State) (c : Master) (e : CacheWord) : State :=
  if e.dirty then
    let s := if s.wordReachable e.key then (s.storeWord c 2 (s.coreOf c).part e.key e.key 2 e.word).1 else s
    s.withCache fun l => l.map fun x => if x == e then { x with dirty := false } else x
  else s

/-- A held word leaves its level: one not yet written goes to the second level or to memory. -/
def State.leaveCache (s : State) (c : Master) (e : CacheWord) (down : Bool) : State :=
  if e.dirty && down && e.holder != secondLevel then (s.uncache e.holder e.key).takeWord { e with holder := secondLevel }
  else (s.cleanWord c e).uncache e.holder e.key

/-- Replacement before an access: a free value names the word that leaves, if one does. -/
def State.replaceCache (s : State) (c : Master) : State :=
  let (v, s) := s.drawFree
  match s.core.cache[v.toNat / 2 % (s.core.cache.length + 1)]? with
  | some e => s.leaveCache c e (v.getLsbD 0)
  | none => s

/-! ### The fetch and the frame of an instruction -/

/-- What the fetch of the instruction at PC gives. -/
inductive FetchResult where
  | ok
  | exception (sub : Nat)
  | held
  | noResponse
deriving DecidableEq, Repr

/-- A range that is not executable: MRAM, the block registers, the PE memories, the network buffers, the backplane window
(03 R116). -/
def notExecutable (a : Nat) : Bool :=
  (decide (0x10000000 ≤ a) && decide (a < 0x10100000)) || (decide (0x40000000 ≤ a) && decide (a < 0x41000000))
    || (decide (0x50000000 ≤ a) && decide (a < 0x500E0000)) || (decide (0x60000000 ≤ a) && decide (a < 0x60400000))
    || (decide (0xC0000000 ≤ a) && decide (a < 0xE0000000))

/-- A fetch from a word of memory. -/
def State.fetchWord (s : State) (c : Master) (k : Nat) : State × FetchResult :=
  let x := s.coreOf c
  match s.readWord k (.fetch c x.priv x.part) with
  | (s, .data _) => (s, .ok)
  | (s, .strict) => (s, .ok)
  | (s, .failed) => (s, .exception 4)
  | (s, .held) => (s, .held)
  | (s, .noResponse) => (s, .noResponse)

/-- A fetch through the caches of a service core: an instruction they hold is not read from memory; one read is held. -/
def State.cacheFetch (s : State) (c : Master) (k : Nat) : State × FetchResult :=
  let x := s.coreOf c
  let s := s.replaceCache c
  if (s.cached (instructionLevel c) k).isSome || (s.cached secondLevel k).isSome then (s, .ok)
  else match s.readWord k (.fetch c x.priv x.part) with
    | (t, .data w) => (t.takeWord ⟨instructionLevel c, k, w, false⟩, .ok)
    | _ => s.fetchWord c k

/-- The fetch at PC (03 R87, R115, R116, R138): the core's checks, the executable ranges, the firewall, the target. -/
def State.fetch (s : State) (c : Master) : State × FetchResult :=
  let x := s.coreOf c
  let a := x.pc.toNat
  match s.coreCheck c .ex a (a + 3) with
  | (s, some sub) => (s, .exception sub)
  | (s, none) =>
    if notExecutable a then (s, .exception 3)
    else if 0xF0000000 ≤ a ∧ a < 0xF0010000 ∧ x.priv ≠ 2 then (s, .exception 5)
    else match s.firewallCheck c .ex a (a + 3) with
    | (s, some sub) => (s, .exception sub)
    | (s, none) =>
      match s.target c a with
      | .word k => if (s.cacheKey c a).isSome then s.cacheFetch c k else s.fetchWord c k
      | .flash off => if s.flashBad.contains (off - off % 4) then (s, .exception 2) else (s, .ok)
      | .rom _ => (s, .ok)
      | _ => (s, .exception 2)

/-! ### When a core runs -/

/-- The mode by which halting debug is judged: in RESYNC the one left at the transfer's start (02 R66, R67). DEDUCED, log entry 35. -/
def State.debugMode (s : State) : Mode :=
  if s.mode = .resync then
    match s.core.resync with
    | .transfer _ m _ => Mode.ofCode m
    | .released _ m _ _ => Mode.ofCode m
    | .idle => .resync
  else s.mode

/-- Why halting debug is not available now: result 1 mode, 2 life-cycle state (02 R66). -/
def State.debugRefused (s : State) : Option Nat :=
  if s.lifeCycle = 5 then some 2
  else if s.debugMode = .service ∨ (s.debugMode = .stop ∧ s.lifeCycle ≠ 3) then none
  else some 1

/-- A resync transfer holds the agreeing cores (02 R58). -/
def State.inTransfer (s : State) : Bool :=
  match s.core.resync with
  | .transfer _ _ _ => true
  | _ => false

/-- Halting debug is available, no resync is under way and no tick edge has step 7 still running (02 R66, R67). -/
def State.haltOpen (s : State) : Bool :=
  s.debugRefused.isNone && s.mode != .resync && s.core.resync == .idle && s.cyc.switching.isNone

/-- A pending halt is to be taken at this boundary: it precedes the instruction and its exception (02 R67; 03 R123); for a step, once
its instruction has retired (02 R72). -/
def State.haltDue (s : State) : Bool :=
  s.get CORE_DBGSTAT_STATE == 1 && s.haltOpen && match s.core.step with
    | some r => s.cx.ric != r
    | none => true

/-- A core is not stopped; the complex is out of the reset of POWERUP (02 R54), not halted, not held for a transfer. -/
def State.coreFree (s : State) (c : Master) : Bool :=
  !(s.coreOf c).stopped && (c != .cx || (s.mode != .powerup && !s.bit CORE_STAT_HALTED && !s.inTransfer))

/-- Whether a core executes instructions now: free, not held on an access, and no halt due. -/
def State.executes (s : State) (c : Master) : Bool :=
  s.coreFree c && (s.coreOf c).wait == .none && (c != .cx || !s.haltDue)

/-- The complex is at an instruction boundary, where a halt can be taken (02 R67): no instruction is under way. One whose fetch waits
has not begun; BAR.W and CYW wait at a boundary (03 R109). -/
def State.atBoundary (s : State) : Bool :=
  match s.cx.wait with
  | .none | .fetch _ | .cyw _ | .barW _ | .exception _ _ _ => true
  | _ => false

/-- The complex is to halt before what happens at this boundary, or is halted (03 R123). -/
def State.haltFirst (s : State) (c : Master) : Bool := c == .cx && (s.haltDue || s.bit CORE_STAT_HALTED)

/-- An access of core `c` ends in an exception: a debug halt precedes it (03 R123). -/
def State.raiseHeld (s : State) (c : Master) (cause sub : Nat) (eaddr : Word) : State :=
  if s.haltFirst c then s.onCore c fun x => { x with wait := .exception cause sub eaddr } else s.raiseHere c cause sub eaddr

/-- The exception that a halt preceded is taken (03 R123). -/
def State.takeDeferred (s : State) (c : Master) : State :=
  match (s.coreOf c).wait with
  | .exception cause sub eaddr => if s.haltFirst c then s else s.raiseHere c cause sub eaddr
  | _ => s

/-- An instruction on core `c`: fetched at PC, then `body`. On a core that does not execute, nothing happens but that an exception
which a halt preceded is taken; an instruction whose fetch waits for a refetch is presented again once the word has come. -/
def State.instruction (s : State) (c : Master) (body : State → State) : State :=
  if !s.executes c then s.takeDeferred c
  else match s.fetch c with
    | (s, .ok) => body s
    | (s, .exception sub) => s.raiseHere c 3 sub (s.coreOf c).pc
    | (s, .held) => s.onCore c fun x => { x with wait := .fetch x.pc.toNat }
    | (s, .noResponse) => s.onCore c fun x => { x with wait := .noResponse }

/-- The instruction writes `v` to GP `rd` and retires. -/
def State.finishGp (s : State) (c : Master) (rd : RegNo) (v : Word) : State :=
  s.onCore c fun x => (x.setGpr rd v).retire

/-- The instruction retires. -/
def State.finish (s : State) (c : Master) : State := s.onCore c CoreState.retire

end Sys2Proof.Machine
end

