-- ==== Sys2Proof/Machine/MramRecord.lean ====
section
/-!
DEFINITION. Records that the module keeps in its MRAM in two copies with a generation count (04 R155, R157, R162): what the field
repair log and the boot record (15 R515) have in common; the boot record.
-/

namespace Sys2Proof.Machine

open Reg

/-- One copy of a record (04 R155): its generation, its words or entries, whether its CRC-32C is correct. -/
structure RepairRecord where
  gen : BitVec 16 := 0#16
  entries : List Word := []
  ok : Bool := true
deriving DecidableEq, Repr

/-- A copy of a record of `n` words, as its words in MRAM stand: generation, the words, the CRC-32C of all these. One never written
is an empty record of generation 0. The order of the words is the model's: DESIGN CHOICE, log entry 79. -/
def State.copyAt (s : State) (at_ n : Nat) : RepairRecord :=
  let stored := (List.range (n + 2)).map fun i => s.stored (at_ + 4 * i)
  if stored.all (· == unwrittenMarker) then {}
  else
    let word := fun i => s.moduleWord (at_ + 4 * i)
    let body := (List.range (n + 1)).map fun i => (word i).getD 0
    { gen := (body.getD 0 0).setWidth 16, entries := body.drop 1
      ok := (List.range (n + 2)).all (fun i => (word i).isSome) && (word (n + 1)).getD 0 == BitVec.ofNat 32 (crcWords body) }

/-- Whether the first copy is current: correct, and not older than a correct second one (04 R157; 00 R8). -/
def firstCurrent (a b : RepairRecord) : Bool := a.ok && (!b.ok || decide ((a.gen - b.gen).toNat < 0x8000))

/-- Write a record of a generation over the copy at an address (04 R155). -/
def State.writeCopy (s : State) (at_ : Nat) (gen : BitVec 16) (words : List Word) : State :=
  let body := gen.setWidth 32 :: words
  ((body ++ [BitVec.ofNat 32 (crcWords body)]).foldl (fun (x : State × Nat) w => (x.1.moduleWrite x.2 w, x.2 + 4)) (s, at_)).1

/-! ### The boot record (15 R515) -/

/-- The first word of copy `c` of the boot record, in the part of MRAM reserved for the module (04 R162): DESIGN CHOICE, log entry
79. -/
def bootAt (c : Nat) : Nat := 0x100F2000 + 32 * c

/-- The words of both copies. -/
def bootWords : List Nat := (List.range 6).map fun i => bootAt (i / 3) + 4 * (i % 3)

/-- A copy of the boot record: one word, as SYS_BOOT shows it. -/
def State.bootCopy (s : State) (c : Nat) : RepairRecord := s.copyAt (bootAt c) 1

/-- The current copy: 0 or 1. -/
def State.bootCurrent (s : State) : Nat := if firstCurrent (s.bootCopy 0) (s.bootCopy 1) then 0 else 1

/-- SYS_BOOT is loaded from the current copy (15 R519). Where neither is correct the active slot is A, without a trial. -/
def State.loadBoot (s : State) : State :=
  let r := s.bootCopy s.bootCurrent
  s.wr SYS_BOOT (if r.ok then r.entries.getD 0 0 &&& fieldBits SYS_BOOT else 0)

/-- The boot record, as SYS_BOOT shows it, is written into the copy that is not current, with the next generation (15 R515). -/
def State.saveBoot (s : State) : State :=
  let c := s.bootCurrent
  s.writeCopy (bootAt (1 - c)) ((s.bootCopy c).gen + 1) [s.rd SYS_BOOT]

/-- The fields of the boot record take new values. -/
def State.putBoot (s : State) (trial : Bool) (count : Nat) (failed : Bool) : State :=
  (((s.setBit SYS_BOOT_TRIALV trial).set SYS_BOOT_COUNT count).setBit SYS_BOOT_TFAIL failed).saveBoot

end Sys2Proof.Machine
end

