-- ==== Sys2Proof/Machine/Mem.lean ====
section
/-!
DEFINITION. The commands of MEM: merge-buffer timeouts, write-backs and hard errors, the scrubber, the repair
log, initialisation, the poison queue, the flip mask, range clears (04).
-/

namespace Sys2Proof.Machine

open Reg

/-- An entry 64 MX clocks (160 ns) old is written (04 R145). -/
def mergeTimeout (s : State) : State := s.flushWhere fun e => decide (e.time + 160 ≤ s.mono)

def execMergeEntryTimeout (t : Nat) (s : State) : Host.Outcome State Fault Refusal := .next (mergeTimeout (s.advance t))

/-! ### Hard errors and the repair log -/

/-- Macro, row and word slot of an SRAM word (04 R133). -/
def macroOf (k : Nat) : Nat := k / 0x80000 % 16
def rowOf (k : Nat) : Nat := k / 512 % 1024
def slotOf (k : Nat) : Nat := k / 4 % 128

/-- Fields of a repair entry (04 R155). -/
def entryInUse (e : Word) : Bool := fieldGet e 31 1 == 1
def entryColumn (e : Word) : Bool := fieldGet e 30 1 == 1
def entrySpare (e : Word) : Nat := fieldGet e 26 2

/-- A repair entry (04 R155). -/
def repairEntry (column : Bool) (spare row slot bit : Nat) : Word :=
  BitVec.ofNat 32 (0x80000000 + (if column then 0x40000000 else 0) + spare * 0x4000000
    + (if column then slot * 64 + bit else row * 0x10000))

/-- Whether an entry in force covers a cell. -/
def entryCovers (e : Word) (row slot bit : Nat) : Bool :=
  entryInUse e && fieldGet e 29 1 == 0 &&
    (if entryColumn e then fieldGet e 6 7 == slot && fieldGet e 0 6 == bit else fieldGet e 16 10 == row)

/-- The first word of copy `c` of macro `m`'s record in the log range of MRAM (04 R162). The order within the range, generation,
eight entries, CRC-32C of these nine words, is the model's: DESIGN CHOICE, log entry 79. -/
def repairAt (m c : Nat) : Nat := 0x100F0000 + m * 256 + c * 128

/-- A copy of a macro's record. -/
def State.repairCopy (s : State) (m c : Nat) : RepairRecord :=
  let r := s.copyAt (repairAt m c) 8
  { r with entries := r.entries.filter entryInUse }

/-- The current copy of a macro's record: 0 or 1. -/
def State.repairCurrent (s : State) (m : Nat) : Nat := if firstCurrent (s.repairCopy m 0) (s.repairCopy m 1) then 0 else 1

/-- The current record of a macro: empty where neither copy is correct (04 R157). -/
def State.repairRecord (s : State) (m : Nat) : RepairRecord :=
  let r := s.repairCopy m (s.repairCurrent m)
  if r.ok then r else { r with entries := [] }

/-- Write a new record, of the next generation, into the copy that is not current (04 R155). -/
def State.writeRepair (s : State) (m : Nat) (entries : List Word) : State :=
  s.writeCopy (repairAt m (1 - s.repairCurrent m)) ((s.repairRecord m).gen + 1) (entries ++ List.replicate (8 - entries.length) 0#32)

/-- Entries of a macro in force since BOOT. -/
def State.repairsApplied (s : State) (m : Nat) : Nat := CMap.lookup (fun _ => 0) s.memb.applied m

/-- Repair entries in use over all macros (04 R165 MEM_RPSTAT.USED). -/
def State.repairsUsed (s : State) : Nat :=
  ((List.range 16).map fun m => ((s.repairRecord m).entries.filter entryInUse).length).foldl (· + ·) 0

/-- The first spare of a kind that no entry uses. -/
def freeSpare (es : List Word) (column : Bool) : Option Nat :=
  (List.range (if column then 2 else 4)).find? fun n => !es.any fun e => entryInUse e && entryColumn e == column && entrySpare e == n

/-- Log a repair for a hard SRAM cell (04 R156). -/
def State.logRepair (s : State) (k bit : Nat) : State :=
  let m := macroOf k
  let row := rowOf k
  let slot := slotOf k
  let r := s.repairRecord m
  let column := s.memb.hard.any fun (m', row', slot', bit') => m' == m && slot' == slot && bit' == bit && row' != row
  if (r.entries.drop (s.repairsApplied m)).any fun e => entryCovers e row slot bit then s
  else
    let marked := r.entries.map fun e => if entryCovers e row slot bit then e ||| 0x20000000#32 else e
    match freeSpare marked column, decide (marked.length < 8) with
    | some n, true =>
      let e := repairEntry column n row slot bit
      let s := (s.writeRepair m (marked ++ [e])).withMem fun x => { x with hard := x.hard ++ [(m, row, slot, bit)] }
      let s := ((s.setBit MEM_STAT_RPPEND true).set MEM_RPSTAT_USED s.repairsUsed).inc MEM_RPSTAT_PEND
      ((s.set MEM_RPSTAT_LASTMAC m).set MEM_RPLAST_ENTRY e.toNat).emit 0x200C [m, e.toNat]
    | _, _ => (s.setBit MEM_STAT_RPEXH true).emit 0x200D [m, row, bit]

/-- Repairs take effect at BOOT (04 R157). -/
def State.applyRepairs (s : State) : State :=
  (List.range 16).foldl (fun s m =>
    let a := s.repairCopy m 0
    let b := s.repairCopy m 1
    let s := s.withMem fun x => { x with applied := CMap.put (fun _ => 0) x.applied m (s.repairRecord m).entries.length }
    if a.ok || b.ok then s else (s.setBit MEM_STAT_LOGBAD true).emit 0x200E [m, a.gen.toNat, b.gen.toNat]) s
  |>.set MEM_RPSTAT_USED s.repairsUsed

/-- The bit that the syndrome of a reread names, if the word holds a single error in D or C (04 R140; R135, R136). -/
def hardBit (w : MWord) : Option Nat :=
  match classify w with
  | .unwritten true => some (Nat.log2 (w ^^^ unwrittenMarker).toNat)
  | .written _ _ _ =>
    if syndrome w = 0 then none else some ((syndromeBit (syndrome w)).getD (32 + Nat.log2 (syndrome w)))
  | _ => none

/-- An uncorrectable word found without a waiting reader: refetch of code, or poison (04 R150, R152, R153). -/
def State.handleUncorrectable (s : State) (k : Nat) : State :=
  match s.codeRegion k with
  | some n => s.withMem fun m => if m.refetch.any (·.key == k) then m else { m with refetch := m.refetch ++ [⟨k, n⟩] }
  | none => s.poison k 0 0x2004 (s.poisonVals k)

/-- The reread after a correction (04 R140): `reread` is what the cells hold after the corrected word was written. A hard error is shown
in MEM_LASTCS with its own syndrome and space, since event 0x2002 carries that register; the rule names HARD only: DEDUCED, log entry
79. -/
def State.reread (s : State) (k : Nat) (reread : MWord) : State :=
  let s := s.store k reread
  match hardBit reread with
    | some bit =>
      let s := ((s.set MEM_LASTCS_SYN (syndrome reread)).set MEM_LASTCS_SPACE (spaceOf k).code).set MEM_LASTCS_HARD 1
      let s := s.emit 0x2002 [reported k, (s.rd MEM_LASTCS).toNat, if spaceOf k = .sram then macroOf k else 0]
      if spaceOf k = .sram then s.logRepair k bit else s
    | none => if classify reread = .uncorrectable then s.handleUncorrectable k else s

/-- The oldest queued write-back (04 R139, R140). -/
def writeBack (reread : MWord) (s : State) : State :=
  match s.memb.wback with
  | [] => s
  | (k, fixed) :: r => ((s.withMem fun m => { m with wback := r }).store k fixed).reread k reread

def execCorrectionWriteback (t : Nat) (reread : MWord) (s : State) : Host.Outcome State Fault Refusal :=
  .next (writeBack reread (s.advance t))

/-! ### The scrubber -/

/-- Words of each walker's space: four SRAM banks, DRAM, MRAM (04 R149). -/
def walkerWords (w : Nat) : Nat := if w < 4 then 0x80000 else if w = 4 then 0x30000000 else 0x40000

/-- Key of word `i` of a walker. -/
def walkerKey (w i : Nat) : Nat :=
  if w < 4 then w * 0x200000 + 4 * i else if w = 4 then dramBase + 4 * i else 0x10000000 + 4 * i

/-- The scrubber's action on one word (04 R150). -/
def State.scrubWord (s : State) (k : Nat) (reread : MWord) : State :=
  if s.memb.flip = some k ∨ !s.wordReachable k then s
  else
    let w := s.stored k
    let corrected := fun (s : State) (fixed : MWord) (vbit : Bool) =>
      ((s.noteCorrection k w fixed vbit true).withMem fun m => { m with lapCorr := m.lapCorr + 1 }).reread k reread
    match classify w with
    | .unwritten false => s
    | .unwritten true => corrected s unwrittenMarker false
    | .written _ false _ => s
    | .written d true vbit => corrected s (encodeWord d) vbit
    | .poisoned => s
    | .uncorrectable => (s.withMem fun m => { m with lapUnc := m.lapUnc + 1 }).handleUncorrectable k

/-- The last walker has finished: the lap ends and the next starts (04 R149; 01 R38). -/
def State.endLap (s : State) : State :=
  if (List.range 6).all fun w => decide (s.memb.walker.getD w 0 ≥ walkerWords w) then
    let ms := (s.mono - s.memb.lapStart) / 1000000
    let corr := s.memb.lapCorr
    let unc := s.memb.lapUnc
    let s := ((s.set MEM_SCRLAST_VALUE (min ms (2 ^ 32 - 1))).set MEM_SCRWORST_VALUE
      (min (max ms (s.get MEM_SCRWORST_VALUE)) (2 ^ 32 - 1))).inc MEM_SCRLAPS_VALUE
    let s := s.emit 0x200B [ms, corr, unc]
    let s := s.when (s.bit MEM_STAT_PROMO && decide (s.mono - s.memb.lapStart ≤ s.get MEM_SCRCTL_LAPMAX * 1000000000)) fun s =>
      (s.setBit MEM_STAT_PROMO false).emit 0x200A [ms]
    s.withMem fun m => { m with walker := [0, 0, 0, 0, 0, 0], lapStart := s.mono, lapCorr := 0, lapUnc := 0 }
  else s

/-- One step of a walker (04 R149, R150). -/
def scrubStep (w : Fin 6) (reread : MWord) (s : State) : State :=
  let i := s.memb.walker.getD w.val 0
  if !s.bit MEM_SCRCTL_EN || decide (i ≥ walkerWords w.val) then s
  else
    let s := s.scrubWord (walkerKey w.val i) reread
    (s.withMem fun m => { m with walker := m.walker.set w.val (i + 1) }).endLap

def execScrubWord (t : Nat) (walker : Fin 6) (reread : MWord) (s : State) : Host.Outcome State Fault Refusal :=
  .next (scrubStep walker reread (s.advance t))

/-- A running lap longer than LAPMAX promotes the scrubber (04 R151; 01 R38). -/
def lapOvertime (s : State) : State :=
  let elapsed := s.mono - s.memb.lapStart
  if s.bit MEM_SCRCTL_EN && !s.bit MEM_STAT_PROMO && decide (s.get MEM_SCRCTL_LAPMAX * 1000000000 < elapsed) then
    (s.setBit MEM_STAT_PROMO true).emit 0x2009 [elapsed / 1000000, s.get MEM_SCRCTL_LAPMAX]
  else s

def execScrubLapOvertime (t : Nat) (s : State) : Host.Outcome State Fault Refusal := .next (lapOvertime (s.advance t))

/-! ### Initialisation -/

/-- Every word of a key range takes the unwritten marker. -/
def State.clearWords (s : State) (lo hi : Nat) : State :=
  { s with mem := s.mem.filter fun e => decide (e.1 < lo) || decide (hi < e.1) }

/-- SRAM initialised (04 R137). -/
def sramInit (s : State) : State :=
  if s.bit MEM_STAT_SINIT || s.mode == .powerup then s else (s.clearWords 0 0x7FFFFF).setBit MEM_STAT_SINIT true

def execSramInitDone (t : Nat) (s : State) : Host.Outcome State Fault Refusal := .next (sramInit (s.advance t))

/-- DRAM initialised (04 R137). Frames delivered before are not recorded (the text before 09 R329). -/
def dramInit (s : State) : State :=
  if s.bit MEM_STAT_DINIT || s.mode == .powerup then s
  else
    let first := if s.afe.started && s.pe.closed then s.pe.frame + 1 else s.pe.frame
    let s := { s with recb := { s.recb with fromFrame := first } }
    (s.clearWords dramBase (dramBase + 0xBFFFFFFF)).setBit MEM_STAT_DINIT true

def execDramInitDone (t : Nat) (s : State) : Host.Outcome State Fault Refusal := .next (dramInit (s.advance t))

/-! ### Poison queue, flip mask, range clear -/

/-- A read of MEM_PQINFO returns and removes the head entry and clears OVF (04 R153). -/
def State.readPqinfo (s : State) : State × Word :=
  let v := s.rd MEM_PQINFO
  (((s.withMem fun m => { m with pq := m.pq.drop 1 }).showPoison.setBit MEM_PQINFO_OVF false), v)

/-- A register read answers its requester with a value. -/
def State.answerRead (r : State × Word) : State := { r.1 with busData := r.2 }

def execPqinfoRead (s : State) : Host.Outcome State Fault Refusal := .next (State.answerRead s.readPqinfo)

/-- Arm the flip mask (04 R158). A refused arming leaves none armed. -/
def State.armFlip (s : State) : State :=
  match addressKey (s.get MEM_DBANK_CX) (s.get MEM_FLIPA_VALUE) with
  | some k => (s.setBit MEM_FLIPCTL_ARM true).withMem fun m => { m with flip := some k }
  | none => ((s.setBit MEM_FLIPCTL_ARM false).setBit MEM_FLIPCTL_BAD true).withMem fun m => { m with flip := none }

def execFlipArm (s : State) : Host.Outcome State Fault Refusal := .next s.armFlip

/-- Disarm the flip mask (04 R158). -/
def State.disarmFlip (s : State) : State := (s.setBit MEM_FLIPCTL_ARM false).withMem fun m => { m with flip := none }

def execFlipDisarm (s : State) : Host.Outcome State Fault Refusal := .next s.disarmFlip

/-- The key range a clear names, if it lies in one space (04 R160). DESIGN CHOICE, log entry 79: an address in the DRAM window means the
bank MEM_DBANK.CX selects at the command, whoever commands; the rule names no bank. -/
def State.clearRange (s : State) : Option (Nat × Nat) :=
  let base := s.get MEM_CLRBASE_VALUE
  let len := s.get MEM_CLRLEN_VALUE
  if base % 4 ≠ 0 ∨ len = 0 ∨ len % 4 ≠ 0 then none
  else match addressKey (s.get MEM_DBANK_CX) base, addressKey (s.get MEM_DBANK_CX) (base + len - 4) with
    | some lo, some hi => if spaceOf lo = spaceOf hi ∧ hi = lo + len - 4 then some (lo, hi + 3) else none
    | _, _ => none

/-- The clear command's action and result (04 R160). A bad command is answered 6 also while a clear runs: the manual gives no order of
the two checks, DESIGN CHOICE, log entry 79. -/
def clearCommand (go : Bool) (s : State) : State × Nat :=
  match go, s.clearRange with
  | true, some r =>
    if s.bit MEM_STAT_CLRBUSY then (s, 8)
    else
      let s := s.flushWhere fun e => decide (r.1 ≤ e.key) && decide (e.key ≤ r.2)
      ((s.setBit MEM_STAT_CLRBUSY true).withMem fun m => { m with clear := some r }, 0)
  | _, _ => (s, 6)

def State.rangeClear (s : State) (cseq : Nat) (go : Bool) : State :=
  s.mailbox MEM_CLRSEQ_LASTCMD MEM_CLRRES_RESULT cseq (clearCommand go)

def execRangeClear (cseq : Nat) (go : Bool) (s : State) : Host.Outcome State Fault Refusal := .next (s.rangeClear cseq go)

/-- The core address of the first word of a cleared range. -/
def coreAddress (k : Nat) : Nat := if k < dramBase then k else 0x80000000 + (k - dramBase) % 0x40000000

/-- The clear completes (04 R160). -/
def clearDone (s : State) : State :=
  match s.memb.clear with
  | some (lo, hi) =>
    let s := (s.clearWords lo hi).withMem fun m =>
      { m with clear := none, wback := m.wback.filter fun e => decide (e.1 < lo) || decide (hi < e.1) }
    (s.setBit MEM_STAT_CLRBUSY false).emit 0x2010 [coreAddress lo, hi + 1 - lo]
  | none => s

def execRangeClearDone (t : Nat) (s : State) : Host.Outcome State Fault Refusal := .next (clearDone (s.advance t))

end Sys2Proof.Machine
end

