-- ==== Sys2Proof/Machine/Operands.lean ====
section
/-!
DEFINITION. The instruction formats of 03 R89 written as words: needed where an exception saves the instruction
word (03 R114), and for the decoder (CoreDecode).
-/

namespace Sys2Proof.Machine

/-- Format R. -/
def wordR (major rd ra rb func : Nat) : Word :=
  BitVec.ofNat 32 (major * 0x4000000 + rd * 0x200000 + ra * 0x10000 + rb * 0x800 + func)

/-- Format I. -/
def wordI (major rd ra imm : Nat) : Word := BitVec.ofNat 32 (major * 0x4000000 + rd * 0x200000 + ra * 0x10000 + imm)

/-- Format B. -/
def wordB (major ra rb : Nat) (off : BitVec 16) : Word :=
  BitVec.ofNat 32 (major * 0x4000000 + ra * 0x200000 + rb * 0x10000 + off.toNat)

/-- Format J. -/
def wordJ (major : Nat) (off : BitVec 26) : Word := BitVec.ofNat 32 (major * 0x4000000 + off.toNat)

/-- Format F. -/
def wordF (fd fa fb fc p fop : Nat) : Word :=
  BitVec.ofNat 32 (0x30 * 0x4000000 + fd * 0x200000 + fa * 0x10000 + fb * 0x800 + fc * 0x40 + p * 0x20 + fop)

/-- Format Y. -/
def wordY (rd ra code sub : Nat) : Word :=
  BitVec.ofNat 32 (0x3E * 0x4000000 + rd * 0x200000 + ra * 0x10000 + code * 0x20 + sub)

/-- The func values of major 0x01 (03 R93). -/
def intFunc : IntOp → Nat
  | .add => 0x000 | .sub => 0x001 | .and => 0x002 | .or => 0x003 | .xor => 0x004 | .nor => 0x005
  | .sll => 0x008 | .srl => 0x009 | .sra => 0x00A | .slli => 0x00C | .srli => 0x00D | .srai => 0x00E
  | .slt => 0x010 | .sltu => 0x011 | .mul => 0x020 | .mulh => 0x021 | .mulhu => 0x022
  | .div => 0x024 | .divu => 0x025 | .rem => 0x026 | .remu => 0x027
  | .clz => 0x030 | .exb => 0x031 | .exh => 0x032 | .exhu => 0x033

/-- Whether an operation of major 0x01 has rb = 0 (03 R93). -/
def intUnary : IntOp → Bool
  | .clz | .exb | .exh | .exhu => true
  | _ => false

/-- The fop values of major 0x30 (03 R96). -/
def fpCode : FpOp → Nat
  | .fadd => 0 | .fsub => 1 | .fmul => 2 | .fdiv => 3 | .fsqrt => 4 | .fmadd => 5 | .fmsub => 6 | .fnmadd => 7
  | .fmin => 8 | .fmax => 9 | .fabs => 10 | .fneg => 11 | .fmov => 12 | .fcvt => 13 | .ftoi => 14 | .ftoiu => 15
  | .itof => 16 | .iutof => 17 | .fceq => 18 | .fclt => 19 | .fcle => 20 | .fcls => 21 | .ftog => 22 | .gtof => 23
  | .ftogh => 24 | .gtofh => 25

/-- How many source fields an operation uses: fa; fa and fb; fa, fb and fc. -/
def fpSources : FpOp → Nat
  | .fadd | .fsub | .fmul | .fdiv | .fmin | .fmax | .fceq | .fclt | .fcle => 2
  | .fmadd | .fmsub | .fnmadd => 3
  | _ => 1

/-- The value P must have, where the table fixes it (03 R96). -/
def fpPrecision : FpOp → Option Bool
  | .ftog | .gtof => some false
  | .ftogh | .gtofh => some true
  | _ => none

/-- Whether the encoding of a floating-point operation is defined: unused fields 0, P as the table fixes it. -/
def fpDefined (op : FpOp) (p : Bool) (fb fc : Nat) : Bool :=
  (fpPrecision op == none || fpPrecision op == some p)
    && (fpSources op != 1 || fb == 0) && (fpSources op == 3 || fc == 0)

/-- Numbers of the special registers that exist (03 R84). -/
def sprListed (n : Nat) : Bool :=
  decide (n ≤ 0x006) || (decide (0x011 ≤ n) && decide (n ≤ 0x016)) || n == 0x020 || n == 0x021 || n == 0x030
    || n == 0x040 || n == 0x060 || n == 0x061 || (decide (0x070 ≤ n) && decide (n ≤ 0x072))
    || (decide (0x100 ≤ n) && decide (n ≤ 0x10F)) || (decide (0x200 ≤ n) && decide (n ≤ 0x205))

/-- The bits of a special register that software writes (03 R84, R85); STATUS.PRIV, EXLE, EXLM and PART change only at entry and return
(03 R86). -/
def sprMask (n : Nat) : Word :=
  if n = sprSTATUS then 0x4#32
  else if n = 0x002 ∨ n = 0x012 then 0x1F07#32
  else if n = 0x003 ∨ n = 0x013 then 0xFF1F#32
  else if n = sprIMASK then 0xFFFF0000#32
  else if n = sprFPSR then 0xFFF#32
  else if n = sprTASK then 0x8000000F#32
  else if 0x100 ≤ n ∧ n ≤ 0x10F then (if n % 2 = 0 then 0xFFFFFFEF#32 else 0xFFFFFFE0#32)
  else 0xFFFFFFFF#32

/-- Write a special register; a write of TCMP_LO arms the compare and clears line 19 (03 R84, R121). -/
def CoreState.writeSpecial (x : CoreState) (n : Nat) (v : Word) : CoreState :=
  let m := sprMask n
  let x := x.setSpecial n ((x.special n &&& ~~~m) ||| (v &&& m))
  if n = sprTCMP_LO then { x with tarmed := true, tline := false } else x

end Sys2Proof.Machine
end

