-- ==== Sys2Proof/Machine/LoadOps.lean ====
section
/-!
DEFINITION. How a load ends once its word has come (03 R94, R95, R112), and how a held access of a core ends.
-/

namespace Sys2Proof.Machine

/-- Size of an integer load: 0 byte, 1 halfword, 2 word. -/
def loadSize : LoadKind → Nat
  | .lw => 2
  | .lh | .lhu => 1
  | .lb | .lbu => 0

def LoadOp.size : LoadOp → Nat
  | .gp k _ => loadSize k
  | _ => 2

/-- What a load of a kind makes of the word that holds its address (03 R94). -/
def loadValue (k : LoadKind) (addr : Nat) (w : Word) : Word :=
  let v := w >>> (8 * (addr % 4))
  match k with
  | .lw => w
  | .lh => (v.setWidth 16).signExtend 32
  | .lhu => (v.setWidth 16).setWidth 32
  | .lb => (v.setWidth 8).signExtend 32
  | .lbu => (v.setWidth 8).setWidth 32

/-- Set the master's reservation (03 R112). -/
def State.reserve (s : State) (c : Master) (addr : Nat) : State :=
  let s := s.clearReservation c
  match memoryKey (s.dramBank c) addr with
  | some k => s.withMem fun m => { m with resv := m.resv ++ [(c, k)] }
  | none => s

/-- The word of a load has come: its register is written and it retires. The low word of an FLD is not enough. -/
def State.finishLoad (s : State) (c : Master) (op : LoadOp) (addr : Nat) (w : Word) : State :=
  let s := s.onCore c fun x => { x with wait := .none }
  match op with
  | .gp k rd => s.finishGp c rd (loadValue k addr w)
  | .ldl rd => (s.reserve c addr).finishGp c rd w
  | .flw fd => s.onCore c fun x => (x.setFpr fd (w.setWidth 64)).retire
  | .fld fd (some low) => s.onCore c fun x => (x.setFpr fd (w ++ low)).retire
  | .fld _ none => s

/-- A load or store ends in a data-access exception (03 R115). -/
def State.dataAccess (s : State) (c : Master) (sub addr : Nat) : State :=
  s.raiseHeld c 6 sub (BitVec.ofNat 32 addr)

/-- The word of a load has come to its core. A check error that the complex finds in it is cause 7 (02 R48; 03 R114); which answers
carry one is not stated: an operand, log entry 77. -/
def State.receiveWord (s : State) (c : Master) (op : LoadOp) (addr : Nat) (check : Bool) (w : Word) : State :=
  if check && c == .cx then s.raiseHeld c 7 0 (BitVec.ofNat 32 addr) else s.finishLoad c op addr w

end Sys2Proof.Machine
end

