-- ==== Sys2Proof/Machine/CycOps.lean ====
section
/-!
DEFINITION. Operations over CYC's state: stations and their blocks (05 R174, R177 to R181), charging (05 R170),
timers (05 R182), the edge FIFO (05 R185), forces (05 R186 to R189), starts and stops (05 R190 to R192).
-/

namespace Sys2Proof.Machine

open Reg

def State.withCyc (s : State) (f : CycBlock → CycBlock) : State := { s with cyc := f s.cyc }

/-! ### Tasks -/

def State.task (s : State) (n : Nat) : TaskState := CMap.lookup (fun _ => {}) s.cyc.tasks n

def State.setTask (s : State) (n : Nat) (t : TaskState) : State :=
  s.withCyc fun c => { c with tasks := CMap.put (fun _ => {}) c.tasks n t }

def State.onTask (s : State) (n : Nat) (f : TaskState → TaskState) : State := s.setTask n (f (s.task n))

/-- Change a task's cycle, if it has one. -/
def State.onCycle (s : State) (n : Nat) (f : Cycle → Cycle) : State :=
  s.onTask n fun t => { t with cycle := t.cycle.map f }

/-- A bit of a 16-bit task mask register. -/
def State.setTaskBit (s : State) (f : Fld) (n : Nat) : State := s.set f (Nat.lor (s.get f) (2 ^ n))

/-! ### Charging -/

/-- A task's charge reaches BUD: CYC_BUDEXP and event 0x3002, once a cycle (05 R170). -/
def State.checkBudget (s : State) (n : Nat) : State :=
  match (s.task n).cycle with
  | some c =>
    if !c.expired && decide (s.taskBudget n ≤ c.charge) then
      let s := (s.onCycle n fun c => { c with expired := true }).onTask n fun t => { t with expiredAt := some s.mono }
      (s.setTaskBit CYC_BUDEXP_TASK n).emit 0x3002
        [n, s.get (CYC_TnBUD_BUD n), c.charge / 100]
    else s
  | none => s

/-- Add `ns` to task `k`'s time in a list of times. -/
def addTime (k ns : Nat) : List (Nat × Nat) → List (Nat × Nat)
  | [] => [(k, ns)]
  | (j, v) :: r => if j = k then (j, v + ns) :: r else (j, v) :: addTime k ns r

/-- Charge the time since the last settlement to the task CYC_RUN names (05 R170; 01 R545). -/
def State.charge (s : State) : State :=
  let ns := s.mono - s.cyc.chargedTo
  let s := s.withCyc fun c => { c with chargedTo := s.mono }
  if s.bit CYC_RUN_VALID && ns != 0 then
    let n := s.get CYC_RUN_TASK
    let s := (List.range 16).foldl (fun s k =>
      if k = n then s.onCycle k fun c => { c with charge := c.charge + ns }
      else s.onCycle k fun c => if c.open_ then { c with others := addTime n ns c.others } else c) s
    s.checkBudget n
  else s

/-- A write of CYC_RUN (05 R170). -/
def State.writeRun (s : State) (task : Nat) (valid : Bool) : State :=
  (s.charge.set CYC_RUN_TASK task).setBit CYC_RUN_VALID valid

/-! ### Stations -/

def State.station (s : State) (kind index : Nat) : Station :=
  (s.cyc.stations.find? fun x => x.kind == kind && x.index == index).getD { kind, index }

def State.putStation (s : State) (x : Station) : State :=
  let same := fun (y : Station) => y.kind == x.kind && y.index == x.index
  let l := s.cyc.stations
  s.withCyc fun c => { c with stations := if l.any same then l.map fun y => if same y then x else y else l ++ [x] }

def State.onStation (s : State) (kind index : Nat) (f : Station → Station) : State :=
  s.putStation (f (s.station kind index))

/-- The bank index of CYC_STINFO. -/
def stationSelect (kind index : Nat) : Nat := kind + index * 16

def stLost (kind index : Nat) : Fld := ⟨bank CYC_STINFO (stationSelect kind index), 0, 1⟩
def stRespend (kind index : Nat) : Fld := ⟨bank CYC_STINFO (stationSelect kind index), 1, 1⟩
def stNever (kind index : Nat) : Fld := ⟨bank CYC_STINFO (stationSelect kind index), 2, 1⟩
def stAge (kind index : Nat) : Fld := ⟨bank CYC_STINFO (stationSelect kind index), 16, 16⟩

/-- CYC_STAT.RESPEND: at least one station has RESPEND = 1. -/
def State.showRespend (s : State) : State :=
  s.setBit CYC_STAT_RESPEND (s.cyc.stations.any fun x => s.bit (stRespend x.kind x.index))

/-- A tick whose number is `shift` more than the own one is a point of a schedule with period `per` and phase `offs`. -/
def isPoint (tick per offs : Nat) (shift : Int) : Bool := per != 0 && ((tick + shift) % per).toNat == offs % per

/-- Word 0 bits [15:0] of route `k` (13 R458). -/
def State.routeKey (s : State) (k : Nat) : Nat := s.get ⟨bank BRG_RD0 k, 0, 16⟩

/-- The routes of a source, in index order (13 R458, R460); none of a configuration that is not accepted (01 R30). -/
def State.routesOf (s : State) (kind id : Nat) : List Nat :=
  (List.range (s.get BRG_RCOUNT_COUNT)).filter fun k => s.configured && s.routeKey k == kind + id * 16 && s.bit ⟨bank BRG_RD2 k, 31, 1⟩

/-- A block of a routed source enters Bridle's queue of 64 arrivals; one that finds it full has its routes skipped (13 R460). -/
def State.queueArrival (s : State) (kind index : Nat) (b : InBlock) : State :=
  if (s.routesOf kind index).isEmpty then s
  else if s.brg.arrivals.length < 64 then { s with brg := { s.brg with arrivals := s.brg.arrivals ++ [⟨kind, index, b⟩] } }
  else s.emit 0xA00E [kind + index * 16]

/-- A port has a complete block of a station (05 R174): complete at `done`, aged from `arrival`. -/
def State.deliver (s : State) (kind index : Nat) (words : List Word) (done arrival : Nat) (safe : Bool) : State :=
  ((((s.onStation kind index fun x => { x with prev := x.cur, cur := some ⟨words, done, arrival, safe⟩ }).setBit
    (stLost kind index) false).setBit (stNever kind index) false)).queueArrival kind index ⟨words, done, arrival, safe⟩

/-- A port declares a station lost (05 R179). -/
def State.stationLost (s : State) (kind index : Nat) : State :=
  if s.bit (stLost kind index) then s
  else
    let s := (s.setBit (stLost kind index) true).setBit (stRespend kind index) true
    ((s.onStation kind index fun x => { x with lostAt := some s.mono, ackAt := none }).emit 0x3004 [kind, index]).showRespend

/-- A station without input block sends a fresh status or acknowledge frame (05 R181). -/
def State.stationAck (s : State) (kind index : Nat) : State :=
  (s.onStation kind index fun x => { x with ackAt := some s.mono }).setBit (stLost kind index) false

/-- RESPEND is cleared and the release to the station resumes; the time of the loss is kept, for the cycles latched before it (05
R181). -/
def State.stationResumed (s : State) (kind index : Nat) : State :=
  let x := s.station kind index
  let ms := match x.lostAt with
    | some t => (s.mono - t) / 1000000
    | none => 0
  (((s.setBit (stRespend kind index) false).onStation kind index fun x => { x with ackAt := none }).emit
    0x3005 [kind, index, ms]).showRespend

/-- The block of the snapshot of a tick edge: the last one complete strictly before it (05 R174). -/
def Station.snapshot (x : Station) (edge : Nat) : Option InBlock :=
  match x.cur with
  | some b => if b.done < edge then some b else
    match x.prev with
    | some p => if p.done < edge then some p else none
    | none => none
  | none => none

/-- Words of a station's output block. -/
def Station.outWord (x : Station) (off : Nat) : Word := CMap.lookup (fun _ => 0#32) x.out off

/-- The first `n` words of a station's output block. -/
def Station.outWords (x : Station) (n : Nat) : List Word := (List.range n).map x.outWord

/-- Write words into a station's output block from an offset (05 R177). -/
def State.writeOut (s : State) (kind index off : Nat) (words : List Word) : State :=
  s.onStation kind index fun x => { x with out :=
    (words.foldl (fun (acc : List (Nat × Word) × Nat) w => (CMap.put (fun _ => 0#32) acc.1 acc.2 w, acc.2 + 1)) (x.out, off)).1 }

/-! ### Timers -/

/-- CYC_TMnCTL fields of a timer. -/
def State.showTimer (s : State) (n : Nat) (running : Bool) (count : Nat) : State :=
  ((s.setBit (CYC_TMnCTL_RUNNING n) running).setBit (CYC_TMnCTL_EXP n) (count != 0)).set (CYC_TMnCTL_EXPCNT n) (min count 0xFFFF)

/-- Start or restart a timer at MONO `at_` (05 R182). -/
def State.startTimer (s : State) (n at_ : Nat) : State :=
  let dur := s.get (CYC_TMnDUR_DUR n)
  let mode := s.get (CYC_TMnCTL_MODE n)
  if dur = 0 ∨ (mode ≠ 1 ∧ mode ≠ 2) then s
  else (s.withCyc fun c => { c with timers := c.timers.filter (fun x => x.index != n) ++ [⟨n, at_, dur, mode == 2, 0⟩] }).showTimer n true 0

/-- Stop a timer; its expiry count stays (05 R182). -/
def State.stopTimer (s : State) (n : Nat) : State :=
  (s.withCyc fun c => { c with timers := c.timers.filter fun x => x.index != n }).setBit (CYC_TMnCTL_RUNNING n) false

/-- Expiries a timer has had up to MONO `t`. -/
def TimerRun.expiries (x : TimerRun) (t : Nat) : Nat :=
  let k := (t - x.start) / (x.durationUs * 1000)
  if x.periodic then k else min k 1

/-- Count the expiries of a running timer up to now (05 R182). -/
def State.expireTimer (s : State) (n : Nat) : State :=
  match s.cyc.timers.find? fun x => x.index == n with
  | some x =>
    let k := x.expiries s.mono
    if k ≤ x.seen then s
    else if x.periodic then
      (s.withCyc fun c => { c with timers := c.timers.map fun y => if y.index == n then { y with seen := k } else y }).showTimer n true k
    else (s.withCyc fun c => { c with timers := c.timers.filter fun y => y.index != n }).showTimer n false k
  | none => s

/-- Count the expiries of every timer up to now. -/
def State.expireTimers (s : State) : State := (List.range 32).foldl State.expireTimer s

/-- Remaining time to the next expiry in µs, rounded up; 0 if none (05 R183). -/
def State.timerRemaining (s : State) (n : Nat) : Nat :=
  match s.cyc.timers.find? fun x => x.index == n with
  | some x => (x.start + (x.seen + 1) * x.durationUs * 1000 - s.mono + 999) / 1000
  | none => 0

/-! ### Edge FIFO -/

/-- A filtered state of an input changes (05 R185): its compensated time enters the FIFO. -/
def State.stampEdge (s : State) (input : Nat) (rise : Bool) (stamp : Nat) : State :=
  if s.get CYC_EDGEEN_INPUT / 2 ^ (input - 1) % 2 = 0 then s
  else if s.cyc.edges.length ≥ 256 then
    let s := s.inc CYC_EDGESTAT_LOSTCNT
    if s.cyc.edgeLostTick = some s.tick then s
    else (s.withCyc fun c => { c with edgeLostTick := some s.tick }).emit 0x3008 [input, s.get CYC_EDGESTAT_LOSTCNT]
  else
    let s := s.withCyc fun c => { c with edges := c.edges ++ [⟨input, rise, stamp⟩] }
    s.set CYC_EDGESTAT_DEPTH s.cyc.edges.length

/-- A read of CYC_EDGEINF removes the head and latches its timestamp (05 R185). -/
def State.readEdge (s : State) : State × Word :=
  match s.cyc.edges with
  | [] => (s, 0)
  | e :: r =>
    let s := (s.withCyc fun c => { c with edges := r }).set CYC_EDGESTAT_DEPTH r.length
    let s := (s.set CYC_EDGE_LO_MONO e.stamp).set CYC_EDGE_HI_MONO (e.stamp / 2 ^ 32)
    (s, BitVec.ofNat 32 (e.input + (if e.rise then 256 else 0) + 2 ^ 31))

/-! ### Forces -/

/-- Bits of a type code (05 R186). -/
def typeBits : Nat → Nat
  | 1 => 1
  | 2 => 8
  | 3 => 16
  | 4 => 32
  | 5 => 64
  | 6 => 32
  | 7 => 64
  | _ => 0

/-- The variable table's entry of a VID. -/
def State.variable (s : State) (vid : Nat) : Option VarEntry := s.sys.program.vars.find? fun v => v.vid == vid

/-- A change of the forces: CYC_STAT.NFORCE; the active forwards them to its standby (05 R186; 14 R472). -/
def State.showForces (s : State) : State :=
  (s.set CYC_STAT_NFORCE s.cyc.forces.length).when (s.get PAIR_STAT_ROLE == 1) fun s =>
    s.tellPartner (.forces (s.cyc.forces.map fun f => ⟨f.vid, f.type, f.value⟩))

/-- Whether a force on a safety variable is refused by mode (05 R188). -/
def State.forceRefused (s : State) (v : VarEntry) : Bool :=
  let safe := s.taskSafety (s.imTask v.entry)
  safe && !(s.mode == .stop || s.mode == .service ||
    ((s.mode == .run || s.mode == .runDegraded) && s.bit CYC_CFG_SFRUN))

/-- The force set command (05 R186, R188). -/
def setForce (type : Nat) (tool : Bool) (s : State) : State × Nat :=
  let vid := s.get CYC_FVID_VALUE
  match s.variable vid with
  | none => (s, 2)
  | some v =>
    if v.type ≠ type then (s, 3)
    else if s.forceRefused v then (s, 1)
    else
      let value := BitVec.ofNat 64 ((s.get CYC_FVAL_LO_VALUE + s.get CYC_FVAL_HI_VALUE * 2 ^ 32) % 2 ^ typeBits type)
      let f : Force := ⟨vid, type, v.entry, v.bit, value⟩
      if s.cyc.forces.any (fun x => x.vid == vid) then
        ((s.withCyc fun c => { c with forces := c.forces.map fun x => if x.vid == vid then f else x }).showForces.emit 0x3009
          [vid, type, tool.toNat], 0)
      else if s.cyc.forces.length ≥ 256 then (s, 4)
      else ((s.withCyc fun c => { c with forces := c.forces ++ [f] }).showForces.emit 0x3009 [vid, type, tool.toNat], 0)

/-- The force remove command (05 R186). -/
def removeForce (tool : Bool) (s : State) : State × Nat :=
  let vid := s.get CYC_FVID_VALUE
  match s.variable vid with
  | none => (s, 2)
  | some _ =>
    if s.cyc.forces.any (fun x => x.vid == vid) then
      ((s.withCyc fun c => { c with forces := c.forces.filter fun x => x.vid != vid }).showForces.emit 0x300A [vid, tool.toNat], 0)
    else (s, 0)

/-- The force remove-all command (05 R186). -/
def removeForces (tool : Bool) (s : State) : State × Nat :=
  let l := s.cyc.forces
  (l.foldl (fun s f => s.emit 0x300A [f.vid, tool.toNat]) (s.withCyc fun c => { c with forces := [] }).showForces, 0)

/-- The force read command (05 R186). -/
def readForce (s : State) : State × Nat :=
  let vid := s.get CYC_FVID_VALUE
  match s.cyc.forces.find? fun x => x.vid == vid with
  | some f =>
    if (s.variable vid).isNone then (s, 2)
    else (((s.set CYC_FVAL_LO_VALUE f.value.toNat).set CYC_FVAL_HI_VALUE (f.value.toNat / 2 ^ 32)).set CYC_FRES_TYPE f.type, 0)
  | none => (s, 2)

/-- A command at the force mailbox. -/
def State.forceMailbox (s : State) (cseq : Nat) (act : State → State × Nat) : State :=
  s.mailbox CYC_FSEQ_LASTCMD CYC_FRES_RESULT cseq act

/-- Lay a force over words: bits [bit + n - 1 : bit] of the data. -/
def forceWords (f : Force) (words : List Word) : List Word :=
  words.mapIdx fun i w =>
    let n := typeBits f.type
    (List.range 32).foldl (fun (w : Word) b =>
      let pos := i * 32 + b
      if f.bit ≤ pos ∧ pos < f.bit + n then
        if f.value.getLsbD (pos - f.bit) then w ||| BitVec.ofNat 32 (2 ^ b) else w &&& ~~~BitVec.ofNat 32 (2 ^ b)
      else w) w

/-- Apply the forces of image entry `i` to its data (05 R187). -/
def State.applyForces (s : State) (i : Nat) (words : List Word) : List Word :=
  (s.cyc.forces.filter fun f => f.entry == i).foldl (fun w f => forceWords f w) words

/-- Whether a variable in entry `i`'s data is forced (05 R175). -/
def State.entryForced (s : State) (i : Nat) : Bool := s.cyc.forces.any fun f => f.entry == i

/-! ### Start and stop -/

/-- The first word of the retained area of a partition: the base of the lowest MRAM region it owns in the retained
data range (05 R191; 04 R162). -/
def State.retainedHeader (s : State) (p : Nat) : Option Nat :=
  let bases := (List.range 32).filterMap fun n =>
    let base := s.get (MEM_REGnB_BASE n) * 4096
    if s.bit (MEM_REGnL_EN n) && s.get (MEM_REGnB_SPACE n) == 2 && s.get (MEM_REGnA_OWNER n) == p
      && decide (0x10000000 ≤ base) && decide (base ≤ 0x100DFFFF) then some base else none
  bases.foldl (fun m b => match m with
    | none => some b
    | some a => some (min a b)) none

/-- What a header word reads as: its data, 0 where it is unwritten or cannot be read (04 R138). -/
def State.headerWord (s : State) (k : Nat) : Word :=
  match classify (s.stored k) with
  | .written d _ _ => d
  | _ => 0

/-- The lowest partition whose retained layout differs from the loaded program's, and the stored one (05 R191). -/
def State.layoutMismatch (s : State) : Option (Nat × Word) :=
  (List.range 32).findSome? fun p =>
    match s.retainedHeader p, s.partition p with
    | some k, some _ =>
      let w := s.headerWord k
      let want := (s.sys.program.layouts.find? fun e => e.1 == p).map (·.2)
      if some w = want ∧ w ≠ 0 ∧ w ≠ 0xFFFFFFFF#32 then none else some (p, w)
    | _, _ => none

/-- A start command's checks and action (05 R190, R191; 15 R501). While the complex is halted the module does not leave STOP (02
R73). -/
def startCommand (warm : Bool) (s : State) : State × Nat :=
  if s.mode ≠ .stop ∨ s.bit CORE_STAT_HALTED then (s, 1)
  else if !s.bit SYS_STAT_CFGOK then (s, 3)
  else if warm then
    match s.layoutMismatch with
    | some (p, w) => (s.emit 0x3014 [p, w.toNat], 2)
    | none => (s.withCyc fun c => { c with pendingStart := some true }, 0)
  else (s.withCyc fun c => { c with pendingStart := some false }, 0)

/-- The stop command (05 R192). -/
def stopTasks (s : State) : State × Nat :=
  if s.mode = .run ∨ s.mode = .runDegraded then (s.withCyc fun c => { c with pendingStop := true }, 0) else (s, 1)

/-- A command at the restart mailbox: the result of a start may still become 1 while it is pending (05 R190). -/
def State.restartMailbox (s : State) (cseq : Nat) (act : State → State × Nat) : State :=
  s.mailbox CYC_CMDSEQ_LASTCMD CYC_CMDRES_RESULT cseq fun s =>
    match act s with
    | (s, r) => (s.when (r == 0 && s.cyc.pendingStart.isSome) fun s => s.markLate CYC_CMDSEQ_LASTCMD, r)

/-- Entry to SAFE cancels a pending start: its result is 1, for a repeat too (00 R9; 05 R190). -/
def State.cancelStart (s : State) : State :=
  if s.cyc.pendingStart.isSome then
    (s.withCyc fun c => { c with pendingStart := none }).answerLate CYC_CMDSEQ_LASTCMD CYC_CMDRES_RESULT 1
  else s

end Sys2Proof.Machine
end

