-- ==== Sys2Proof/Machine/NetOps.lean ====
section
/-!
DEFINITION. Operations of NET (11): flows and their frames (R382 to R385, R398, R399), the ports' queues, order and
credits (R387, R388, R390), telegram faults, deliveries and recovery (R402 to R405), rings (R386).
-/

namespace Sys2Proof.Machine

open Reg

def State.withNet (s : State) (f : NetBlock → NetBlock) : State := { s with net := f s.net }

/-- A field behind a select register, at an index. -/
def Fld.at (f : Fld) (i : Nat) : Fld := { f with reg := bank f.reg i }

/-- `a` is after `b` modulo 2^32 (00 R8). -/
def after32 (a b : Nat) : Bool :=
  let d := (a + 2 ^ 32 - b % 2 ^ 32) % 2 ^ 32
  decide (1 ≤ d) && decide (d < 2 ^ 31)

/-! ### Bytes and words -/

/-- Words from bytes, low byte first; a last part word is filled with zeros. -/
def packBytes : List Byte → List Word
  | [] => []
  | [a] => [BitVec.ofNat 32 a.toNat]
  | [a, b] => [BitVec.ofNat 32 (a.toNat + b.toNat * 0x100)]
  | [a, b, c] => [BitVec.ofNat 32 (a.toNat + b.toNat * 0x100 + c.toNat * 0x10000)]
  | a :: b :: c :: d :: r => BitVec.ofNat 32 (a.toNat + b.toNat * 0x100 + c.toNat * 0x10000 + d.toNat * 0x1000000) :: packBytes r

/-- The bytes of words, low byte first. -/
def unpackWords (ws : List Word) : List Byte := ws.flatMap fun w => (wordBytes w).map (BitVec.ofNat 8)

/-- `n` bytes of a number, low byte first. -/
def leBytes (n v : Nat) : List Byte := (natBytes n v).map (BitVec.ofNat 8)

/-- The number that 4 bytes from offset `i` make, low byte first; bytes beyond the end read as 0. -/
def word32At (l : List Byte) (i : Nat) : Nat :=
  (List.range 4).foldl (fun n k => n + ((l[i + k]?).getD 0#8).toNat * 256 ^ k) 0

/-- CRC-32C of bytes (09 R321). -/
def crcBytes (l : List Byte) : Nat := crc32c (l.map (·.toNat))

/-! ### PD headers (11 R383)

PRESUMED: the layout of IEC 61375-2-3, to which the manual refers; log entry 20. -/

/-- `n` bytes of a number, high byte first. -/
def beBytes (n v : Nat) : List Byte := (leBytes n v).reverse

/-- The number that 4 bytes from offset `i` make, high byte first. -/
def beWord (l : List Byte) (i : Nat) : Nat := (List.range 4).foldl (fun n k => n * 256 + ((l[i + k]?).getD 0#8).toNat) 0

/-- The PD header of a message of type Pd: counter, version, type, ComId, topography counters, length of the dataset, no reply, header
check sequence. -/
def pdHeader (counter comId etb opt len : Nat) : List Byte :=
  let head := beBytes 4 counter ++ [0x01#8, 0x00#8, 0x50#8, 0x64#8] ++ beBytes 4 comId ++ beBytes 4 etb ++ beBytes 4 opt ++ beBytes 4 len
    ++ List.replicate 12 0#8
  head ++ leBytes 4 (crc32 (head.map (·.toNat)))

end Sys2Proof.Machine

namespace Sys2Proof

open Machine

/-- The fields of a received PD header. -/
def PdHeader.counter (h : PdHeader) : Nat := beWord h.bytes 0
def PdHeader.comId (h : PdHeader) : Nat := beWord h.bytes 8
def PdHeader.etb (h : PdHeader) : Nat := beWord h.bytes 12
def PdHeader.opt (h : PdHeader) : Nat := beWord h.bytes 16

/-- The checks of a PD header with its dataset (11 R383): version 1, type Pd, the dataset's length, the header check sequence. -/
def PdHeader.ok (h : PdHeader) (data : List Byte) : Bool :=
  h.bytes.length == 40 && h.bytes[4]? == some 0x01#8 && h.bytes[6]? == some 0x50#8 && h.bytes[7]? == some 0x64#8
    && beWord h.bytes 20 == data.length && word32At h.bytes 36 == crc32 ((h.bytes.take 36).map (·.toNat))

end Sys2Proof

namespace Sys2Proof.Machine

open Reg

/-! ### Flows -/

def State.flow (s : State) (f : Nat) : FlowState := CMap.lookup (fun _ => {}) s.net.flows f

def State.setFlow (s : State) (f : Nat) (x : FlowState) : State :=
  s.withNet fun b => { b with flows := CMap.put (fun _ => {}) b.flows f x }

def State.flowOn (s : State) (f : Nat) : Bool := s.bit (NET_FD0_EN.at f)
def State.flowTransmits (s : State) (f : Nat) : Bool := s.bit (NET_FD0_DIR.at f)
def State.flowSafe (s : State) (f : Nat) : Bool := s.get (NET_FD0_KIND.at f) == 1
/-- The flow uses port `p`. -/
def State.flowPort (s : State) (f p : Nat) : Bool := s.get (NET_FD0_PORTS.at f) / 2 ^ p % 2 == 1
def State.flowLen (s : State) (f : Nat) : Nat := s.get (NET_FD3_LEN.at f)
/-- Safe data length D of a safe telegram flow (11 R398). -/
def State.safeLen (s : State) (f : Nat) : Nat := s.flowLen f - 12

/-- The enabled receive flow of a kind whose port, ComId and peer filter match a PD message (11 R382); none of a configuration that is
not accepted (01 R30). -/
def State.receiveFlow (s : State) (safe : Bool) (port src comId : Nat) : Option Nat :=
  (List.range 256).find? fun f =>
    s.configured && s.flowOn f && !s.flowTransmits f && s.flowSafe f == safe && s.flowPort f port && s.get (NET_FD1_VALUE.at f) == comId
      && (s.get (NET_FD2_VALUE.at f) == 0 || s.get (NET_FD2_VALUE.at f) == src)

/-- Enabled transmit flows, ascending. -/
def State.transmitFlows (s : State) : List Nat := (List.range 256).filter fun f => s.flowOn f && s.flowTransmits f

/-- The check bytes of a safe telegram (11 R399): SID, low byte first, then bytes 0 to D + 7. -/
def State.scrc (s : State) (f : Nat) (head : List Byte) : Nat :=
  crcBytes (leBytes 4 (s.rd (bank NET_FD6 f)).toNat ++ leBytes 4 (s.rd (bank NET_FD7 f)).toNat ++ head)

/-- Bytes D to D + 11 of a safe telegram after its data (11 R398). -/
def State.safeTelegram (s : State) (f sseq : Nat) (data : List Byte) : List Byte :=
  let head := data ++ leBytes 4 sseq ++ leBytes 4 (data.length + 0x10000)
  head ++ leBytes 4 (s.scrc f head)

/-- Whether a telegram received has its length, its format word and its SCRC right (11 R398, R399). DEDUCED: a wrong
length or format word counts as a wrong SCRC, log entry 20. -/
def State.telegramOk (s : State) (f : Nat) (data : List Byte) : Bool :=
  let d := s.safeLen f
  data.length == s.flowLen f && word32At data (d + 4) == d + 0x10000
    && word32At data (d + 8) == s.scrc f (data.take (d + 8))

/-! ### The ports' queues -/

/-- Length on the link of a frame with `n` bytes of dataset (11 R380, R383): Ethernet 18 and VLAN tag 4 where tagged,
IPv4 20, UDP 8, PD header 40; at least 64 bytes. -/
def frameLength (tagged : Bool) (n : Nat) : Nat := max 64 (18 + (if tagged then 4 else 0) + 28 + 40 + n)

/-- The VLAN of a flow's frames at port `p`: its own or the port's default; 0: untagged (11 R409). -/
def State.flowVlan (s : State) (f p : Nat) : Nat :=
  if s.get (NET_FD3_VID.at f) != 0 then s.get (NET_FD3_VID.at f) else s.get (NET_PnCFG_VID p)

/-- A frame of a flow at port `p` is tagged. -/
def State.flowTagged (s : State) (f p : Nat) : Bool := s.flowVlan f p != 0

def State.portQueue (s : State) (p : Nat) : List TxFrame := CMap.lookup (fun _ => []) s.net.queues p

def State.setQueue (s : State) (p : Nat) (q : List TxFrame) : State :=
  s.withNet fun b => { b with queues := CMap.put (fun _ => []) b.queues p q }

/-- The MAC address of a port: the fused base address of the unit plus the port index (11 R381). -/
def State.portMac (s : State) (p : Nat) : Nat := s.sys.fused.mac + p

/-- Queue a frame at a port that is not off. -/
def State.queueFrame (s : State) (p : Nat) (x : TxFrame) : State :=
  if s.get (NET_PnCFG_SPEED p) = 0 then s else s.setQueue p (s.portQueue p ++ [{ x with mac := s.portMac p }])

/-- A peer is on the link of port `p` (11 R381): the prefix of the port's address covers it. DEDUCED: a multicast group is on it too, log
entry 20. -/
def State.onLink (s : State) (p ip : Nat) : Bool :=
  let k := 32 - s.get (NET_PnCFG_PREFIX p)
  ip / 2 ^ k == s.get (NET_PnIP_ADDR p) / 2 ^ k || ip / 2 ^ 28 == 14

/-- Queue a PD message: the module sends only to peers on the link (11 R381). -/
def State.queuePd (s : State) (p : Nat) (x : TxFrame) : State := if s.onLink p x.dest then s.queueFrame p x else s

/-- The largest frame, from destination address to check sequence (11 R380). -/
def largestFrame (tagged : Bool) : Nat := if tagged then 1522 else 1518

/-- The latencies of a port's PHY in and out (11 R396). -/
def State.phyIn (s : State) (p : Nat) : Nat := (s.sys.fused.phyIn[p]?).getD 0
def State.phyOut (s : State) (p : Nat) : Nat := (s.sys.fused.phyOut[p]?).getD 0

/-- SYNC in ns. -/
def State.syncTime (s : State) : Nat := s.sync / 2 ^ 32

/-- The timestamp on MONO of a frame that arrives now (11 R396). -/
def State.arrival (s : State) (p : Nat) : Nat := s.mono - s.phyIn p

/-- Time in ns of a frame of `len` bytes with preamble and gap at the speed a port's link runs at (11 R387). -/
def State.sendTime (s : State) (p len : Nat) : Nat := (len + 20) * (if s.get NET_STAT_SPD / 4 ^ p % 4 = 2 then 8 else 80)

/-- The frame a port is sending has left it; it is never interrupted (11 R387). -/
def State.frameGone (s : State) (p : Nat) : Bool :=
  match s.net.sending.find? fun e => e.1 == p with
  | some e => decide (e.2.sentAt + s.sendTime p e.2.len ≤ s.mono)
  | none => true

/-- Reserved bandwidth of a claimant's flow, in 0.1 Mbit/s, which is 10^-4 bit per ns (11 R388). -/
def State.resv (s : State) (f : Nat) : Nat := s.get (NET_FD5_RESV.at f)

/-- The credit bucket of a flow at a port in 10^-4 bits (11 R388). -/
def State.bucketOf (s : State) (f p : Nat) : Nat :=
  max (2 * 8 * frameLength (s.flowTagged f p) (s.flowLen f) * 10000) (s.resv f * 125000)

/-- The credit a flow has at a port now (11 R388). -/
def State.creditNow (s : State) (f p : Nat) : Nat :=
  let (c, at_) := (((s.flow f).credit.find? fun e => e.1 == p).map (·.2)).getD (0, 0)
  min (s.bucketOf f p) (c + s.resv f * (s.mono - at_))

def State.setCredit (s : State) (f p c : Nat) : State :=
  let x := s.flow f
  s.setFlow f { x with credit := CMap.place x.credit p (c, s.mono) }

/-- The flow of a frame's claimant, 0x3000 + index (01 R28). -/
def TxFrame.flowIndex (x : TxFrame) : Nat := x.claimant % 0x1000

/-- A frame of a flow with reserved bandwidth. -/
def State.isReserved (s : State) (x : TxFrame) : Bool := x.kind == .flow && s.resv x.flowIndex != 0

/-- A reserved frame holds enough credit at a port. -/
def State.hasCredit (s : State) (p : Nat) (x : TxFrame) : Bool := decide (x.len * 80000 ≤ s.creditNow x.flowIndex p)

/-- The rank of a waiting frame at port `p` (11 R387): order, then flow index or descending PCP. -/
def State.rank (s : State) (p : Nat) (x : TxFrame) : Nat × Nat :=
  match x.kind with
  | .heartbeat => (1, 0)
  | .ptp => (2, 0)
  | .safe => (3, x.flowIndex)
  | .flow => if s.isReserved x && s.hasCredit p x then (4, x.flowIndex) else (5, 7 - x.pcp)
  | _ => (5, 7 - x.pcp)

/-- One rank goes before another. -/
def rankBefore (a b : Nat × Nat) : Bool := decide (a.1 < b.1) || (a.1 == b.1 && decide (a.2 < b.2))

/-- The position of the first eligible frame: the least rank, the earliest among equals (11 R387). -/
def State.firstEligible (s : State) (p : Nat) : Option Nat :=
  ((s.portQueue p).zipIdx.foldl (fun (best : Option (Nat × (Nat × Nat))) e =>
    let r := s.rank p e.1
    match best with
    | none => some (e.2, r)
    | some (i, b) => if rankBefore r b then some (e.2, r) else some (i, b)) none).map (·.1)

/-- Bits sent in the current 1 ms window. -/
def addSent (p claimant bits : Nat) : List (Nat × Nat × Nat) → List (Nat × Nat × Nat)
  | [] => [(p, claimant, bits)]
  | (q, c, b) :: r => if q = p ∧ c = claimant then (q, c, b + bits) :: r else (q, c, b) :: addSent p claimant bits r

/-- A reserved flow that waits without credit exceeds its share: event 0x800B once per flow, port and 1 ms window (01
R37; 11 R388). DEDUCED: once per window, log entry 21. -/
def State.reportThrottled (s : State) (p : Nat) : State :=
  (s.portQueue p).foldl (fun (s : State) x =>
    if s.isReserved x && !s.hasCredit p x && !s.net.throttled.contains (p, x.flowIndex) then
      (s.withNet fun b => { b with throttled := (p, x.flowIndex) :: b.throttled }).emit 0x800B [x.flowIndex, p]
    else s) s

/-- Begin to send the frame at position `i` of the queue. -/
def State.sendFrame (s : State) (p i : Nat) : State :=
  match (s.portQueue p)[i]? with
  | none => s
  | some x =>
    let s := if s.isReserved x then s.setCredit x.flowIndex p (s.creditNow x.flowIndex p - min (s.creditNow x.flowIndex p) (x.len * 80000)) else s
    let s := s.setQueue p ((s.portQueue p).eraseIdx i)
    let sent := { x with sentAt := s.mono, stamp := (s.mono + s.phyOut p, s.syncTime + s.phyOut p) }
    s.withNet fun b => { b with sending := CMap.place b.sending p sent, sent := addSent p x.claimant (x.len * 8) b.sent }

/-! ### Receiving -/

/-- Discard a PD frame for its header (11 R383). -/
def State.badHeader (s : State) (port comId : Nat) : State :=
  let s := s.inc (NET_PnSTAT_BADHDR port)
  s.emit 0x800D [port, comId, s.get (NET_PnSTAT_BADHDR port)]

/-- A topography counter of a received PD frame is refused (11 R383): own not 0, received not 0, and different. -/
def topoRefused (own got : Nat) : Bool := own != 0 && got != 0 && own != got

/-- A block of a flow is complete, arrived at MONO `arrival` (11 R384, R403). -/
def State.flowBlock (s : State) (f arrival : Nat) (data : List Byte) : State :=
  let s := s.setFlow f { s.flow f with first := false, lastAt := arrival }
  (s.setBit (NET_FSTAT_LOST.at f) false).deliver 5 f (packBytes data) s.mono arrival (s.flowSafe f)

/-! ### Safe telegrams -/

/-- A telegram fault (11 R402 to R405). -/
def State.telegramFault (s : State) (f cause : Nat) : State :=
  let s := (s.setBit (NET_FSTAT_FAULT.at f) true).set (NET_FSTAT_CAUSE.at f) cause
  (s.set (NET_FSTAT_GOOD.at f) 0).setBit (NET_FSTAT_ACKWAIT.at f) false

/-- A flow recovers (11 R405). -/
def State.recoverFlow (s : State) (f : Nat) : State :=
  let s := (s.setBit (NET_FSTAT_FAULT.at f) false).setBit (NET_FSTAT_ACKWAIT.at f) false
  s.emit 0x8007 [f, s.get (NET_FSTAT_CAUSE.at f)]

/-- A telegram is delivered: it counts towards recovery (11 R403 to R405). -/
def State.deliverTelegram (s : State) (f : Nat) (x : SafeCopy) : State :=
  let s := s.setFlow f { s.flow f with window := none, delivered := some x }
  let s := s.flowBlock f (x.at_ - s.phyIn x.port) (x.data.take (s.safeLen f))
  let s := s.inc (NET_FSTAT_GOOD.at f)
  if s.bit (NET_FSTAT_FAULT.at f) ∧ s.get (NET_FD8_RECOV.at f) ≤ s.get (NET_FSTAT_GOOD.at f) then
    if s.bit (NET_FD0_RESTART.at f) then s.setBit (NET_FSTAT_ACKWAIT.at f) true else s.recoverFlow f
  else s

/-- The window of a telegram ends with one copy (11 R403). -/
def State.singleCopy (s : State) (f : Nat) (x : SafeCopy) : State :=
  let s := s.inc (NET_FCNT_SINGLE.at f)
  let s := s.emit 0x8008 [f, 1 - x.port, s.get (NET_FCNT_SINGLE.at f)]
  if s.bit (NET_FD0_DUAL.at f) then s.setFlow f { s.flow f with window := none } else s.deliverTelegram f x

/-- Two copies of a telegram differ (11 R403). -/
def State.copiesDiffer (s : State) (f sseq : Nat) : State :=
  let s := s.inc (NET_FCNT_DIFF.at f)
  let s := s.setFlow f { s.flow f with window := none }
  (s.telegramFault f 2).emit 0x8006 [f, sseq]

/-! ### Rings -/

/-- Write words into the network buffers from a byte offset. -/
def State.putBuffer (s : State) (off : Nat) (ws : List Word) : State :=
  { s with netbuf := (ws.foldl (fun (acc : List (Nat × Word) × Nat) w =>
      (CMap.put (fun _ => 0#32) acc.1 (acc.2 % 0x400000) w, acc.2 + 4)) (s.netbuf, off)).1 }

/-- A word of the network buffers at a byte offset. -/
def State.bufferWord (s : State) (off : Nat) : Word := CMap.lookup (fun _ => 0#32) s.netbuf (off / 4 * 4 % 0x400000)

/-- `n` words of the network buffers from a byte offset. -/
def State.bufferWords (s : State) (off n : Nat) : List Word := (List.range n).map fun i => s.bufferWord (off + 4 * i)

/-- Byte offset of a slot of a ring in the network buffers (11 R386). -/
def slotOffset (base slot : Nat) : Nat := base * 4096 + slot * 2048

/-- Place a frame in the receive ring, or drop it when the ring is full (11 R386). The ring is full when its next slot
written would be the next slot read: log entry 22. -/
def State.ringFrame (s : State) (port : Nat) (tagged : Bool) (frame : List Byte) : State :=
  if !s.bit NET_RXCFG_EN then s
  else
    let n := s.get NET_RXCFG_SLOTS + 1
    let h := s.get NET_RXPTR_HEAD
    if (h + 1) % n = s.get NET_RXPTR_TAIL % n then
      let s := s.inc (NET_PnSTAT_DROP port)
      s.emit 0x800C [port, s.get (NET_PnSTAT_DROP port)]
    else
      let kept := frame.take 2032
      let cut := decide (2032 < frame.length)
      let d := leBytes 2 kept.length ++ leBytes 1 port ++ leBytes 1 (tagged.toNat + cut.toNat * 2)
        ++ leBytes 8 (s.arrival port) ++ leBytes 4 0
      (s.putBuffer (slotOffset (s.get NET_RXCFG_BASE) h) (packBytes (d ++ kept))).set NET_RXPTR_HEAD ((h + 1) % n)

/-! ### Sending -/

/-- The outputs of this unit are released in a pair (14 R471): a standby in bounded-gap mode always, in gapless mode
while it is not READY; a joining unit. -/
def State.outputsReleased (s : State) : Bool :=
  let role := s.get PAIR_STAT_ROLE
  role == 3 || (role == 2 && !(s.get PAIR_CFG_MODE == 2 && s.bit PAIR_STAT_READY))

/-- NET withholds process data and safe telegrams (11 R390; 14 R471), the content of NET_STAT.SENDOFF. -/
def State.sendOff (s : State) : Bool := s.mode == .safe || s.outputsReleased

/-- The tick is a send edge of flow `f` (11 R390), by numbers `shift` more than the own ones; in a gapless pair the standby's follow
the active's (14 R478). -/
def State.sendsAt (s : State) (f tick : Nat) (shift : Int) : Bool :=
  isPoint tick (s.get (NET_FD4_PERD.at f)) (s.get (NET_FD4_OFFS.at f)) shift

def State.isSendEdge (s : State) (f tick : Nat) : Bool := s.sendsAt f tick s.pair.shift

/-- NET withholds a frame in the present mode (11 R390): process data and safe telegrams in SAFE or with released outputs, safe telegrams
in STOP. DEDUCED: in no mode to which STOP leads while no task runs, SERVICE for one, any more than in STOP itself; log entry 21. -/
def State.mayLeave (s : State) : FrameKind → Bool
  | .flow => !s.sendOff
  | .safe => !s.sendOff && s.mode != .stop && s.mode != .service
  | _ => true

/-- The frame of a flow at port `p` with a dataset (11 R383, R390). -/
def State.flowFrame (s : State) (f p counter : Nat) (kind : FrameKind) (data : List Byte) : TxFrame :=
  { kind, claimant := (if kind == .safe then 0x5000 else 0x3000) + f, pcp := s.get (NET_FD0_PCP.at f)
    len := frameLength (s.flowTagged f p) data.length, counter, comId := s.get (NET_FD1_VALUE.at f)
    etb := s.get NET_ETBTOPO_COUNT, opt := s.get NET_OPTOPO_COUNT, dest := s.get (NET_FD2_VALUE.at f), vlan := s.flowVlan f p
    header := pdHeader counter (s.get (NET_FD1_VALUE.at f)) (s.get NET_ETBTOPO_COUNT) (s.get NET_OPTOPO_COUNT) data.length
    data, at_ := s.mono }

/-- A send edge of flow `f` (11 R390, R398 to R401): `disagree` when the check units disagree on the telegram. -/
def State.sendFlow (s : State) (disagree : List Nat) (f : Nat) : State :=
  let x := s.flow f
  let safe := s.flowSafe f
  if !x.released || !s.mayLeave (if safe then .safe else .flow) then
    -- A gapless standby that sends nothing keeps the SSEQ of the active (14 R478).
    if safe && s.get PAIR_STAT_ROLE == 2 && s.get PAIR_CFG_MODE == 2 && x.sseq != 0 then s.setFlow f { x with sseq := (x.sseq + 1) % 2 ^ 32 }
    else s
  else
    let data := (unpackWords ((s.station 5 f).outWords ((s.flowLen f + 3) / 4))).take (if safe then s.safeLen f else s.flowLen f)
    let n := (x.counter + 1) % 2 ^ 32
    if safe then
      let q := (x.sseq + 1) % 2 ^ 32
      let s := (s.setFlow f { x with counter := n, sseq := q }).set (NET_FLAST_SEQ.at f) q
      if disagree.contains f then (s.setFlow f { s.flow f with withheld := (s.flow f).withheld ++ [s.mono] }).emit 0x800A [f, 1]
      else
        let t := s.safeTelegram f q data
        [0, 1].foldl (fun (s : State) p => if s.flowPort f p then s.queuePd p (s.flowFrame f p n .safe t) else s) s
    else
      let s := (s.setFlow f { x with counter := n }).set (NET_FLAST_SEQ.at f) n
      [0, 1, 2].foldl (fun (s : State) p => if s.flowPort f p then s.queuePd p (s.flowFrame f p n .flow data) else s) s

/-- Every send edge at this tick edge (11 R390); none of a configuration that is not accepted (01 R30). -/
def State.sendFlows (s : State) (disagree : List Nat) : State :=
  if !s.configured then s else (s.transmitFlows.filter fun f => s.isSendEdge f s.tick).foldl (fun s f => s.sendFlow disagree f) s

/-- A release of the flow's task reaches the flow (11 R390). -/
def State.flowReleased (s : State) (f : Nat) : State := s.setFlow f { s.flow f with released := true }

/-- A start: nothing is sent before the first release, SSEQ begins at 1 (11 R390, R400). -/
def State.resetFlows (s : State) : State :=
  let reset : FlowState → FlowState := fun x => { x with released := false, sseq := 0, withheld := [], missed := [] }
  let other : List TxFrame → List TxFrame := fun q => q.filter fun x => x.kind != .flow && x.kind != .safe
  s.withNet fun b => { b with flows := CMap.mapValues (fun _ => {}) reset b.flows, queues := CMap.mapValues (fun _ => []) other b.queues }

end Sys2Proof.Machine
end

