-- ==== Sys2Proof/Machine/BrgOps.lean ====
section
/-!
DEFINITION. Operations of Bridle (13): windows (R443, R444), requests and tags (R445, R446), posted writes and their
failures (R450 to R453), read-ahead (R454), stations (R455, R456), sideband (R457), routes (R458 to R460). A request that finds no
tag, or another of its window before it, waits and is sent in the order of R449. A write that waits holds its entry of O3; each
station has its own entry of O1 and tag of O2, each tag its own entry of I1, and what enters I2 is taken at once: log entry 25.
-/

namespace Sys2Proof.Machine

open Reg

def State.withBrg (s : State) (f : BrgBlock → BrgBlock) : State := { s with brg := f s.brg }

/-! ### Windows -/

/-- The enabled window that holds a core address (13 R443). -/
def State.brgWindow (s : State) (addr : Nat) : Option Nat :=
  (List.range 16).find? fun n =>
    let base := 0xC0000000 + s.get (BRG_WnBASE_UNIT n) * 0x10000
    s.bit (BRG_WnCTL_EN n) && decide (base ≤ addr) && decide (addr < base + 2 ^ s.get (BRG_WnCTL_SIZE n))

/-- The PCIe address of a core address in window `n`. -/
def State.pcieAddr (s : State) (n addr : Nat) : Nat :=
  s.get (BRG_WnTGT_UNIT n) * 0x10000 + (addr - (0xC0000000 + s.get (BRG_WnBASE_UNIT n) * 0x10000))

def State.brgStopped (s : State) (win : Nat) : Bool := decide (win < 16) && s.bit (BRG_WnSTAT_STOPPED win)
def State.linkUp (s : State) : Bool := s.bit BRG_STAT_LINK

/-- The backplane's reset line PCIE_PERST_N: low until the end of BOOT (16 R522). -/
def State.perstHigh (s : State) : Bool := s.mode != .powerup && s.mode != .boot

/-! ### Tags (13 R447 to R449) -/

/-- The lowest tag number that no request has and no late completion can carry: log entry 25. -/
def State.freeTag (s : State) : Nat :=
  let n := s.brg.tags.length + s.brg.late.length
  ((List.range (n + 1)).find? fun i => !(s.brg.tags.any fun g => g.id == i) && !s.brg.late.contains i).getD n

/-- A request is out, or waits for its tag. -/
def State.asking (s : State) (p : BrgUse → Bool) : Bool := (s.brg.tags.any fun g => p g.use) || s.brg.waiting.any p

/-- The partition whose O4 credits a request takes: a core's access (13 R447, R448). -/
def State.tagPart (s : State) : BrgUse → Option Nat
  | .load c _ _ => some (s.coreOf c).part
  | .nonPosted c _ _ _ => some (s.coreOf c).part
  | .readAhead _ _ part => some part
  | _ => none

/-- The untracked write with this serial number. -/
def State.writeOf (s : State) (serial : Nat) : Option PostedWrite := s.brg.open_.find? fun w => w.serial == serial

/-- The window of a request whose place among the others of its window counts: all but those Bridle makes itself. -/
def State.useWindow (s : State) : BrgUse → Option Nat
  | .load _ _ a => s.brgWindow a
  | .nonPosted _ a _ _ => s.brgWindow a
  | .readAhead _ a _ => s.brgWindow a
  | .posted n => (s.writeOf n).map (·.win)
  | _ => none

/-- No request of the window is among those before it: within one window requests leave in order (13 R449; 03 R128). -/
def State.inOrder (s : State) (before : List BrgUse) (use : BrgUse) : Bool :=
  match s.useWindow use with
  | some n => !before.any fun u => s.useWindow u == some n
  | none => true

/-- A request of class O4; the others, station input reads, take the tags of O2. -/
def BrgUse.coreClass : BrgUse → Bool
  | .station _ => false
  | _ => true

/-- O4 credits a partition has in use, and those it has declared. -/
def State.tagsOf (s : State) (part : Nat) : Nat := (s.brg.tags.filter fun g => s.tagPart g.use == some part).length
def State.declaredTags (s : State) (part : Nat) : Nat := s.get (BRG_CRDAT_O4.at part)

def State.partTier (s : State) (part : Nat) : Nat := s.claimantTier (0x6000 + part)

/-- O4 tags that are declared by partitions of the tier of `part` or a higher one and not in use. -/
def State.heldTags (s : State) (part : Nat) : Nat :=
  (((List.range 32).filter fun q => decide (s.partTier q ≤ s.partTier part)).map fun q => s.declaredTags q - s.tagsOf q).foldl (· + ·) 0

/-- A request may be sent (13 R447, R448): a tag of its class is free, 2 of O4 kept for flush and configuration reads; beyond its own
credits a partition takes only what no partition of its tier or a higher one has declared. -/
def State.mayAsk (s : State) (use : BrgUse) : Bool :=
  let same := (s.brg.tags.filter fun g => g.use.coreClass == use.coreClass).length
  match use, s.tagPart use with
  | .posted _, _ => true
  | _, some p =>
    let free := 14 - (s.brg.tags.filter fun g => (s.tagPart g.use).isSome).length
    decide (same < 16) && decide (0 < free) && (decide (s.tagsOf p < s.declaredTags p) || decide (s.heldTags p < free))
  | _, none => decide (same < 16)

/-- Core writes that wait in O3, all and a partition's, and the entries a partition has declared (13 R447, R448). -/
def State.heldWrites (s : State) : List PostedWrite := s.brg.open_.filter fun w => !w.sent && decide (w.win < 16)
def State.writesOf (s : State) (part : Nat) : Nat := (s.heldWrites.filter fun w => w.part == part).length
def State.declaredWrites (s : State) (part : Nat) : Nat := s.get (BRG_CRDAT_O3.at part)

/-- A posted store finds an entry of O3 (13 R447, R448): beyond its own credits a partition takes only what no partition of its tier
or a higher one has declared. -/
def State.mayPost (s : State) (part : Nat) : Bool :=
  let free := 32 - s.heldWrites.length
  let held := (((List.range 32).filter fun q => decide (s.partTier q ≤ s.partTier part)).map fun q =>
    s.declaredWrites q - s.writesOf q).foldl (· + ·) 0
  decide (0 < free) && (decide (s.writesOf part < s.declaredWrites part) || decide (held < free))

/-- The partition of the task that owns a station's image entries; without one, that of a route to it, log entry 54. -/
def State.stationPart (s : State) (i : Nat) : Nat :=
  let n := s.get (BRG_SD0_STATION.at i)
  match s.imageEntries.find? fun e => s.imKind e == 3 && s.imStation e == n with
  | some e => s.taskPart (s.imTask e)
  | none =>
    let r := (List.range (s.get BRG_RCOUNT_COUNT)).find? fun k =>
      s.get ⟨bank BRG_RD0 k, 16, 4⟩ == 3 && s.get ⟨bank BRG_RD0 k, 20, 12⟩ == n
    (r.map fun k => s.get ⟨bank BRG_RD2 k, 0, 5⟩).getD 0

/-- The tier of a request (13 R449): flush reads first; a station's, that of the task that owns its entries; a configuration request
of the mailbox, that of Bridle's traffic outside the safety partitions (01 R27), log entry 25. -/
def State.askTier (s : State) (use : BrgUse) : Nat :=
  match use, s.tagPart use with
  | .config _, _ => 5
  | .posted n, _ => ((s.writeOf n).map fun w => s.partTier w.part).getD 5
  | .station i, _ =>
    match s.imageEntries.find? fun e => s.imKind e == 3 && s.imStation e == s.get (BRG_SD0_STATION.at i) with
    | some e => s.taskTier (s.imTask e)
    | none => s.partTier (s.stationPart i)
  | _, some p => s.partTier p
  | _, none => 0

/-! ### Read-ahead (13 R454) -/

/-- Words of a block never delivered to a load. -/
def AheadBlock.unused (x : AheadBlock) : Nat :=
  ((List.range 16).filter fun i => x.delivered / 2 ^ i % 2 == 0).length

/-- BRG_PFLADDR and BRG_PFLSTAT show the log's head. -/
def State.showLosses (s : State) : State :=
  (s.set BRG_PFLADDR_ADDR ((s.brg.losses.head?.map (·.addr)).getD 0)).set BRG_PFLSTAT_DEPTH s.brg.losses.length

/-- A discarded block with undelivered words enters the log. -/
def State.logLoss (s : State) (x : AheadBlock) (cause : Nat) : State :=
  if x.unused = 0 then s
  else
    let full := decide (16 ≤ s.brg.losses.length)
    let s := s.withBrg fun b => { b with losses := (if full then b.losses.drop 1 else b.losses) ++ [⟨x.addr, x.unused, x.part, cause⟩] }
    let s := (if full then s.inc BRG_PFLSTAT_LOSTCNT else s).showLosses
    let due := match s.brg.aheadSaid with
      | some m => decide (m + 1000000 ≤ s.mono)
      | none => true
    if due then (s.withBrg fun b => { b with aheadSaid := some s.mono }).emit 0xA008 [x.addr, x.unused, cause] else s

/-- Discard the blocks that satisfy `p`, with a cause. -/
def State.discardAhead (s : State) (p : AheadBlock → Bool) (cause : Nat) : State :=
  let gone := s.brg.ahead.filter p
  gone.foldl (fun s x => s.logLoss x cause) (s.withBrg fun b => { b with ahead := b.ahead.filter fun x => !p x })

/-- A 64-byte block at a core address overlaps `bytes` at a PCIe address. -/
def State.blockMeets (s : State) (block pcie bytes : Nat) : Bool :=
  match s.brgWindow block with
  | some n => decide (s.pcieAddr n block < pcie + bytes) && decide (pcie < s.pcieAddr n block + 64)
  | none => false

/-- A write is about to be sent: the blocks it overlaps are discarded (cause 1), and one still on its way will not be kept (13 R454;
log entry 25). -/
def State.discardWritten (s : State) (pcie bytes : Nat) : State :=
  (s.withBrg fun b => { b with tags := b.tags.map fun g =>
    match g.use with
    | .readAhead _ block _ => if s.blockMeets block pcie bytes then { g with stale := true } else g
    | _ => g }).discardAhead (fun x => s.blockMeets x.addr pcie bytes) 1

/-- Blocks older than RAHOLD (13 R454, cause 2). -/
def State.expireAhead (s : State) : State :=
  s.discardAhead (fun x => decide (x.at_ + s.get BRG_CFG_RAHOLD * 1000 < s.mono)) 2

/-- Keep a block that has come; the least recently used of 4 makes room (cause 3). -/
def State.keepAhead (s : State) (x : AheadBlock) : State :=
  let s := s.discardAhead (fun y => y.addr == x.addr) 3
  let oldest := s.brg.ahead.foldl (fun m y => min m y.used) s.mono
  let s := if s.brg.ahead.length < 4 then s
    else match s.brg.ahead.find? fun y => y.used == oldest with
      | some y => s.discardAhead (fun z => z.addr == y.addr) 3
      | none => s
  s.withBrg fun b => { b with ahead := b.ahead ++ [x] }

/-- The word of an address in a kept block, delivered to a load. -/
def State.takeAhead (s : State) (addr : Nat) : Option (State × Word) :=
  match s.brg.ahead.find? fun x => x.addr == addr / 64 * 64 with
  | some x =>
    let i := addr % 64 / 4
    let upd := fun (y : AheadBlock) => if y.addr = x.addr then { y with delivered := Nat.lor y.delivered (2 ^ i), used := s.mono } else y
    some (s.withBrg fun b => { b with ahead := b.ahead.map upd }, (x.words[i]?).getD 0#32)
  | none => none

/-! ### Posted writes (13 R450 to R453) -/

/-- Untracked writes of a window and of a partition, oldest first. -/
def State.openIn (s : State) (win : Nat) : List PostedWrite := s.brg.open_.filter fun w => w.win == win
def State.openOf (s : State) (part : Nat) : List PostedWrite := s.brg.open_.filter fun w => w.part == part

/-- BRG_PWTRK of a partition and BRG_WnSTAT.OPEN of a window. -/
def State.showOpen (s : State) (part win : Nat) : State :=
  let l := s.openOf part
  let done := match l with
    | w :: _ => (w.seq + 0xFFFFFF) % 0x1000000
    | [] => s.get (BRG_PWSTAT_LAST.at part)
  let s := (s.set (BRG_PWTRK_DONE.at part) done).set (BRG_PWTRK_OPEN.at part) (min l.length 255)
  if win < 16 then s.set (BRG_WnSTAT_OPEN win) (min (s.openIn win).length 255) else s

/-- The next write sequence number of a partition. -/
def State.nextSeq (s : State) (part : Nat) : State × Nat :=
  let q := (s.get (BRG_PWSTAT_LAST.at part) + 1) % 0x1000000
  (s.set (BRG_PWSTAT_LAST.at part) q, q)

/-- BRG_WEFADDR and BRG_WEFSTAT show the FIFO. -/
def State.showErrors (s : State) : State :=
  let h := s.brg.wef.head?
  ((s.set BRG_WEFADDR_ADDR ((h.map (·.addr)).getD 0)).set BRG_WEFSTAT_PART ((h.map (·.part)).getD 0)).set BRG_WEFSTAT_DEPTH s.brg.wef.length

/-- A failure enters the write-error FIFO (13 R452). -/
def State.enterError (s : State) (e : WriteError) : State :=
  if s.brg.wef.length < 32 then
    ((s.withBrg fun b => { b with wef := b.wef ++ [e] }).showErrors).emit 0xA001 [e.addr, e.seq, e.kind, e.part]
  else
    let s := (s.setBit BRG_WEFSTAT_OVF true).inc BRG_WEFSTAT_LOST
    s.emit 0xA005 [s.get BRG_WEFSTAT_LOST]

/-- The window stops at its first failure (13 R451). -/
def State.stopWindow (s : State) (win seq : Nat) : State :=
  if win < 16 ∧ s.bit (BRG_WnCTL_STOPERR win) ∧ !s.bit (BRG_WnSTAT_STOPPED win) then
    let s := (s.setBit (BRG_WnSTAT_STOPPED win) true).set (BRG_WnSTAT_REFUSED win) 0
    let s := s.withBrg fun b => { b with firstRefusal := win :: b.firstRefusal.filter (· != win) }
    let s := s.emit 0xA006 [win, seq]
    s.discardAhead (fun x => s.brgWindow x.addr == some win) 5
  else s

/-- A posted write fails (13 R450 to R453, R456). -/
def State.failWrite (s : State) (w : PostedWrite) (kind : Nat) : State :=
  let station := decide (16 ≤ w.win)
  let s := (s.withBrg fun b => { b with
    open_ := b.open_.filter fun x => x.serial != w.serial
    waiting := b.waiting.filter (· != .posted w.serial) }).showOpen w.part w.win
  let s := if station then s.inc (BRG_SSTAT_WRERR.at (w.win - 16)) else s.inc (BRG_PWFAIL_COUNT.at w.part)
  let e : WriteError := ⟨w.addr, w.size, w.seq, kind, w.part, station⟩
  if kind = 6 then
    let s := s.inc (BRG_WnSTAT_REFUSED w.win)
    if s.brg.firstRefusal.contains w.win then
      (s.withBrg fun b => { b with firstRefusal := b.firstRefusal.filter (· != w.win) }).enterError e
    else s
  else (s.enterError e).stopWindow w.win w.seq

def State.failWrites (s : State) (l : List PostedWrite) (kind : Nat) : State := l.foldl (fun s w => s.failWrite w kind) s

/-- Writes are complete (13 R450). -/
def State.completeWrites (s : State) (l : List PostedWrite) : State :=
  l.foldl (fun s w => (s.withBrg fun b => { b with open_ := b.open_.filter fun x => x.serial != w.serial }).showOpen w.part w.win) s

/-- A flush read is out that settles the write of a window with this serial number. -/
def State.flushing (s : State) (win serial : Nat) : Bool :=
  s.asking fun u => match u with
    | .flush w n => w == win && decide (serial < n)
    | _ => false

/-- A BAR.W of the partition is waiting (03 R108). -/
def State.barWaits (s : State) (part : Nat) : Bool :=
  [Master.cx, .sc0, .sc1].any fun c => (s.coreOf c).part == part && match (s.coreOf c).wait with
    | .barW _ => true
    | _ => false

/-! ### Sending (13 R445, R449 to R451) -/

/-- A posted write leaves: its window stopped (kind 6), the link down (kind 1), else it overtakes the blocks it meets. -/
def State.sendWrite (s : State) (w : PostedWrite) : State :=
  let s := s.withBrg fun b => { b with open_ := b.open_.map fun x => if x.serial = w.serial then { x with sent := true, at_ := s.mono } else x }
  if s.brgStopped w.win then s.failWrite w 6
  else if !s.linkUp then s.failWrite w 1
  else s.discardWritten w.pcie (2 ^ w.size * w.data.length)

/-- The writes of a window that have left and are untracked, oldest first. -/
def State.sentIn (s : State) (win : Nat) : List PostedWrite := (s.openIn win).filter (·.sent)

/-- The serial number from which on the writes of a window have not left. -/
def State.unsentFrom (s : State) (win : Nat) : Nat :=
  (((s.openIn win).find? fun w => !w.sent).map (·.serial)).getD s.brg.serial

/-- A flush read is due after a write: the 64th untracked, or one for which a BAR.W waits (13 R450). -/
def State.flushDue (s : State) (w : PostedWrite) : Bool := decide ((s.openIn w.win).length = 64) || s.barWaits w.part

/-- The latest write of a window that has left, unless a flush read is out or waits that covers it (13 R450). -/
def State.flushNeed (s : State) (win : Nat) : Bool :=
  match (s.sentIn win).getLast? with
  | some w => !s.flushing win w.serial && !s.brg.waiting.contains (.flush win 0)
  | none => false

/-- A request leaves with its tag. A flush read covers what has left before it; a non-posted write overtakes the blocks it meets. -/
def State.sendTagged (s : State) (use : BrgUse) : State :=
  let (s, use) := match use with
    | .flush win _ => (s, BrgUse.flush win (s.unsentFrom win))
    | .nonPosted c a size v => (s.discardWritten (((s.brgWindow a).map fun n => s.pcieAddr n a).getD a) (2 ^ size), .nonPosted c a size v)
    | u => (s, u)
  s.withBrg fun b => { b with tags := b.tags ++ [{ id := s.freeTag, use, at_ := s.mono }] }

/-- A request that has waited leaves; a flush read that a write makes due joins those that wait. -/
def State.sendAsk (s : State) (use : BrgUse) : State :=
  match use with
  | .posted n =>
    match s.writeOf n with
    | some w =>
      let s := s.sendWrite w
      if s.flushDue w && s.flushNeed w.win then s.withBrg fun b => { b with waiting := b.waiting ++ [.flush w.win 0] } else s
    | none => s
  | use => s.sendTagged use

/-- The request sent at the next opportunity (13 R449): of those that may go the highest tier, and of equal tiers the oldest. -/
def State.nextAsk (s : State) : Option (Nat × BrgUse) :=
  (((List.range s.brg.waiting.length).zip s.brg.waiting).filter fun x => s.mayAsk x.2 && s.inOrder (s.brg.waiting.take x.1) x.2).foldl
    (fun best x =>
      match best with
      | some b => if s.askTier x.2 < s.askTier b.2 then some x else some b
      | none => some x) none

/-- Send the waiting requests that may go, each in its turn. -/
def State.serve : Nat → State → State
  | 0, s => s
  | k + 1, s =>
    match s.nextAsk with
    | some (i, use) => ((s.withBrg fun b => { b with waiting := b.waiting.eraseIdx i }).sendAsk use).serve k
    | none => s

/-- A request that asks for a completion: sent, or it waits. -/
def State.request (s : State) (use : BrgUse) : State :=
  if s.mayAsk use && s.inOrder s.brg.waiting use then s.sendTagged use else s.withBrg fun b => { b with waiting := b.waiting ++ [use] }

/-- A flush read of the window's latest untracked write that has left, unless one is out that covers it (13 R450). -/
def State.flushWindow (s : State) (win : Nat) : State := if s.flushNeed win then s.request (.flush win 0) else s

/-- A partition that has used its credits is reported (01 R37; 13 R448); the class as its number, log entry 25. -/
def State.creditEvent (s : State) (part cls used declared : Nat) : State :=
  if used < declared then s else s.emit 0xA010 [part, cls]

/-- Send a request of a core's partition. -/
def State.coreRequest (s : State) (use : BrgUse) (part : Nat) : State :=
  (s.creditEvent part 4 (s.tagsOf part) (s.declaredTags part)).request use

/-- Requests that wait and may go now leave; each write among them may bring one flush read with it. -/
def State.serveAsks (s : State) : State := s.serve (2 * s.brg.waiting.length)

/-- A tag is free again; requests that wait may go. -/
def State.dropTag (s : State) (id : Nat) : State :=
  (s.withBrg fun b => { b with tags := b.tags.filter fun g => g.id != id }).serveAsks

/-- Take one posted write (13 R445, R450): it is tracked with its sequence number, and leaves at once unless a request of its window
waits. -/
def State.sendPosted (s : State) (addr pcie size part win : Nat) (data : List Word) : State :=
  let (s, seq) := s.nextSeq part
  let w : PostedWrite := ⟨s.brg.serial, addr, pcie, size, seq, part, win, s.mono, data, false⟩
  let s := (s.withBrg fun b => { b with serial := b.serial + 1, open_ := b.open_ ++ [w] }).showOpen part win
  if s.inOrder s.brg.waiting (.posted w.serial) then
    let s := s.sendWrite w
    if s.flushDue w then s.flushWindow win else s
  else s.withBrg fun b => { b with waiting := b.waiting ++ [.posted w.serial] }

/-! ### Accesses of the cores -/

/-- How an access to the backplane window is answered. -/
inductive BrgAnswer where
  | error
  | data (w : Word)
  | done
  | held
deriving DecidableEq, Repr

/-- The access is refused by its size (13 R444). -/
def State.sizeRefused (s : State) (win size : Nat) : Bool := s.bit (BRG_WnCTL_WORD win) && size != 2

/-- A load of a core (13 R443, R444, R446, R454). -/
def State.brgLoad (s : State) (c : Master) (op : LoadOp) (addr : Nat) : State × BrgAnswer :=
  let part := (s.coreOf c).part
  match s.brgWindow addr with
  | none => (s, .error)
  | some n =>
    if s.sizeRefused n op.size then (s.emit 0xA00B [addr, 2 ^ op.size, part], .error)
    else if s.brgStopped n then (s, .error)
    else if s.bit (BRG_WnCTL_PREF n) then
      let s := s.expireAhead
      match s.takeAhead addr with
      | some (s, w) => (s, .data w)
      | none => (s.coreRequest (.readAhead (some (c, op, addr)) (addr / 64 * 64) part) part, .held)
    else (s.coreRequest (.load c op addr) part, .held)

/-- A store of a core (13 R444, R445, R448). -/
def State.brgStore (s : State) (c : Master) (addr size : Nat) (v : Word) : State × BrgAnswer :=
  let x := s.coreOf c
  match s.brgWindow addr with
  | none => (s, .error)
  | some n =>
    if s.sizeRefused n size then (s.emit 0xA00B [addr, 2 ^ size, x.part], .error)
    else
      let v := v.setWidth (2 ^ size * 8) |>.setWidth 32
      if s.bit (BRG_WnCTL_POSTED n) ∧ x.priv ≠ 2 then
        let s := s.creditEvent x.part 3 (s.writesOf x.part) (s.declaredWrites x.part)
        if s.mayPost x.part then (s.sendPosted addr (s.pcieAddr n addr) size x.part n [v], .done)
        else (s.withBrg fun b => { b with stores := b.stores ++ [⟨c, addr, size, v, n⟩] }, .held)
      else if s.brgStopped n then (s, .error)
      else (s.coreRequest (.nonPosted c addr size v) x.part, .held)

/-- A fetch-ahead of PLD (03 R110; 13 R454). -/
def State.brgPrefetch (s : State) (c : Master) (addr : Nat) : State :=
  match s.brgWindow addr with
  | none => s
  | some n =>
    if s.brgStopped n ∨ !s.bit (BRG_WnCTL_PREF n) then s
    else
      let s := s.expireAhead
      if s.brg.ahead.any (fun b => b.addr == addr / 64 * 64) then s
      else s.coreRequest (.readAhead none (addr / 64 * 64) (s.coreOf c).part) (s.coreOf c).part

/-- BAR.M or BAR.W of any master discards every read-ahead block (13 R454). -/
def State.barrierAhead (s : State) : State := s.discardAhead (fun _ => true) 4

/-! ### Stations -/

/-- Enabled station descriptors, ascending. -/
def State.brgStations (s : State) : List Nat :=
  (s.regs.filterMap fun e => if e.1 % 0x100000000 = BRG_SD0 then some (e.1 / 0x100000000) else none).filter fun i =>
    s.bit (BRG_SD0_EN.at i)

def State.sdStation (s : State) (i : Nat) : Nat := s.get (BRG_SD0_STATION.at i)

/-- The tick is an exchange edge of station descriptor `i` (13 R455). -/
def State.isExchange (s : State) (i tick : Nat) : Bool :=
  let per := s.get (BRG_SD3_PERD.at i)
  per != 0 && tick % per == s.get (BRG_SD3_OFFS.at i) % per

/-- The output writes of the stations at an exchange edge (13 R456; 14 R471); none of a configuration that is not accepted (01 R30). -/
def State.exchange (s : State) : State :=
  if s.mode = .safe ∨ s.outputsReleased ∨ !s.configured then s
  else (s.brgStations.filter fun i => s.isExchange i s.tick && s.get (BRG_SD0_OUTLEN.at i) != 0
      && !s.bit (stRespend 3 (s.sdStation i))).foldl (fun (s : State) i =>
    let a := s.get (BRG_SD2_ADDR.at i) * 4
    s.sendPosted a a 2 (s.stationPart i) (16 + i) ((s.station 3 (s.sdStation i)).outWords (s.get (BRG_SD0_OUTLEN.at i)))) s

/-! ### Sideband -/

/-- The level this module drives on output line `i`, in SAFE its SAFEVAL where enabled (13 R457). -/
def State.sidebandLevel (s : State) (i : Nat) : Bool :=
  if s.mode == .safe && s.get BRG_SBCFG_SAFEEN / 2 ^ i % 2 == 1 then s.get BRG_SBCFG_SAFEVAL / 2 ^ i % 2 == 1
  else s.get BRG_SBOUT_LVL / 2 ^ i % 2 == 1

/-- Line 24 of the interrupts (13 R442, R457). -/
def State.brgLine (s : State) : Bool :=
  Nat.land (s.get BRG_MSIPEND_VEC) (s.get BRG_MSIEN_VEC) != 0 || Nat.land (s.get BRG_SBIN_CHG) (s.get BRG_SBCFG_IRQEN) != 0

/-! ### Routes -/

/-- Words 0 to 2 of route `k`, beside its key (13 R458). -/
def State.routeDkind (s : State) (k : Nat) : Nat := s.get ⟨bank BRG_RD0 k, 16, 4⟩
def State.routeDid (s : State) (k : Nat) : Nat := s.get ⟨bank BRG_RD0 k, 20, 12⟩
def State.routeSoff (s : State) (k : Nat) : Nat := s.get ⟨bank BRG_RD1 k, 0, 10⟩
def State.routeDoff (s : State) (k : Nat) : Nat := s.get ⟨bank BRG_RD1 k, 10, 10⟩
def State.routeLen (s : State) (k : Nat) : Nat := s.get ⟨bank BRG_RD1 k, 20, 11⟩
def State.routeZlost (s : State) (k : Nat) : Bool := s.bit ⟨bank BRG_RD2 k, 8, 1⟩

/-- `words` with `slice` laid over from `off`, grown with zeros as needed. -/
def overlay (words : List Word) (off : Nat) (slice : List Word) : List Word :=
  let n := max words.length (off + slice.length)
  (List.range n).map fun i => if off ≤ i ∧ i < off + slice.length then (slice[i - off]?).getD 0#32 else (words[i]?).getD 0#32

/-- Write a route's words into its destination (13 R458, R460). A flow that no task feeds sends once routed to: log entry
26. -/
def State.routeWrite (s : State) (k : Nat) (slice : List Word) (arrival : Nat) : State :=
  let did := s.routeDid k
  match s.routeDkind k with
  | 3 =>
    if did < 3840 then s.writeOut 3 did (s.routeDoff k) slice
    else
      let st := s.station 3 did
      let old := ((st.cur).map (·.words)).getD []
      let s := s.deliver 3 did (overlay old (s.routeDoff k) slice) s.mono arrival false
      if (st.cur.map (·.done)) = some s.mono then s.onStation 3 did fun x => { x with prev := st.prev } else s
  | 4 => s.writeOut 4 did (s.routeDoff k) slice
  | 5 =>
    let s := s.writeOut 5 did (s.routeDoff k) slice
    if s.imageEntries.any fun e => s.imOut e && s.imKind e == 5 && s.imStation e == did then s else s.flowReleased did
  | _ => s

/-- A route is performed in SAFE only to backplane and gateway stations (13 R460). -/
def State.routeAllowed (s : State) (k : Nat) : Bool := s.mode != .safe || s.routeDkind k == 3

end Sys2Proof.Machine
end

