-- ==== Sys2Proof/Machine/GirthOps.lean ====
section
/-!
DEFINITION. Operations of Girth (08): the parameter set (R278, R315), safety pairs (R288 to R292), permits (R293 to
R297), trip outputs (R298 to R303), instantaneous elements (R304 to R306), SAFE (R283, R284) and with it the module's
entry to SAFE (15 R495). Outputs, pairs and trip outputs are counted from 0 here and from 1 in events.
-/

namespace Sys2Proof.Machine

open Reg

def State.withGirth (s : State) (f : GirthBlock → GirthBlock) : State := { s with girth := f s.girth }

/-! ### The parameter set -/

/-- Word `i` of the parameter set as it is held. -/
def State.girthWord (s : State) (i : Nat) : Word := s.rd (bank GIRTH_PDATA i)

/-- A field of word `i` of the accepted parameter set; 0 without one (08 R278, R315). -/
def State.gp (s : State) (i lo n : Nat) : Nat := if s.girth.accepted then fieldGet (s.girthWord i) lo n else 0

/-- A field lies in its range, the rest of its word is 0 (08 R315). -/
def inRange (v lo hi : Nat) : Bool := decide (lo ≤ v) && decide (v ≤ hi)

/-- Whether word `i` of a candidate set is in range (08 R315). The words of a disabled item are 0. -/
def State.girthWordOk (s : State) (i : Nat) : Bool :=
  let w := s.girthWord i
  let f := fun lo n => fieldGet w lo n
  let item := fun (en ok : Bool) => if en then ok else w == 0#32
  let on := fun (j : Nat) => fieldGet (s.girthWord j) 0 1 == 1
  if i = 0 then f 0 16 == 1 && f 16 8 == 35 && f 24 8 == 0
  else if i ≤ 16 then
    if i % 2 = 1 then item (on i) (f 14 18 == 0 && decide (f 1 5 ≤ 23) && f 8 4 != 0)
    else item (on (i - 1)) (f 23 9 == 0 && decide (1 ≤ f 0 23))
  else if i ≤ 20 then item (on (i + 4)) true
  else if i ≤ 24 then item (on i) (f 14 18 == 0 && inRange (f 1 9) 20 500)
  else if i ≤ 28 then item (on i) (f 16 16 == 0 && inRange (f 2 13) 50 5000)
  else if i ≤ 32 then
    let pairsOk := (List.range 4).all fun p => !bitOf (f 1 4) p || on (25 + p)
    item (on i) (f 27 5 == 0 && pairsOk && inRange (f 5 10) 5 1000 && inRange (f 15 12) 1 3600)
  else if i = 33 then
    f 28 4 == 0 && inRange (f 0 14) 25 10000 && decide (f 14 14 + 5 ≤ f 0 14)
  else true

/-- The CRC-32C of words 0 to 33 of the set held. -/
def State.girthCrc (s : State) : Nat := crcWords ((List.range 34).map s.girthWord)

/-! ### Safety pairs -/

/-- Pair `p` is enabled, antivalent. -/
def State.pairOn (s : State) (p : Nat) : Bool := s.gp (25 + p) 0 1 == 1
def State.pairAnti (s : State) (p : Nat) : Bool := s.gp (25 + p) 1 1 == 1
/-- T of a pair in ns. -/
def State.pairT (s : State) (p : Nat) : Nat := s.gp (25 + p) 2 13 * 100000

/-- Filtered state of a digital input, 1 to 24. -/
def State.input (s : State) (n : Nat) : Bool := bitOf (s.get FIO_IN_INPUT) (n - 1)

/-- Channels A and B, and what they mean by the pair's type (08 R288). -/
def State.pairA (s : State) (p : Nat) : Bool := s.input (2 * p + 1)
def State.pairB (s : State) (p : Nat) : Bool := s.input (2 * p + 2)
def State.pairBAct (s : State) (p : Nat) : Bool := s.pairB p != s.pairAnti p
def State.pairActive (s : State) (p : Nat) : Bool := s.pairA p && s.pairBAct p
def State.pairDemand (s : State) (p : Nat) : Bool := !s.pairA p && !s.pairBAct p
def State.pairDisagrees (s : State) (p : Nat) : Bool := s.pairA p != s.pairBAct p

/-- Latch a discrepancy fault (08 R289). -/
def State.discrepancy (s : State) (p : Nat) : State :=
  let s := (s.setBit (GIRTH_SIN_FAULT p) true).set GIRTH_FAULT_DISC (Nat.lor (s.get GIRTH_FAULT_DISC) (2 ^ p))
  (s.emit 0x6005 [p + 1, (s.bit (GIRTH_SIN_A p)).toNat, (s.bit (GIRTH_SIN_B p)).toNat]).setBit (GIRTH_SIN_PV p) false

def State.pairTimes (s : State) (p : Nat) : PairTimes := CMap.lookup (fun _ => {}) s.girth.pairs p

def State.setPairTimes (s : State) (p : Nat) (x : PairTimes) : State :=
  s.withGirth fun g => { g with pairs := CMap.put (fun _ => {}) g.pairs p x }

/-- The times of a pair after a sample: a disagreement that follows an agreement of less than 100 µs may find the count as it was, the
100 µs instants' places not being given (08 R289). -/
def PairTimes.sample (x : PairTimes) (was now : Bool) (t : Nat) : PairTimes :=
  let x := { x with unsampled := none }
  if now && !was then { x with since := if t < x.agreedAt + 100000 then x.since else t, unbroken := t }
  else if was && !now then { x with agreedAt := t }
  else x

/-- A 10 µs sample of a pair (08 R288 to R291). A disagreement unbroken for T or more has latched its fault. -/
def State.samplePair (s : State) (p : Nat) : State :=
  let x := s.pairTimes p
  let s := if s.bit (GIRTH_SIN_DISC p) && !s.bit (GIRTH_SIN_FAULT p) && decide (x.unbroken + s.pairT p ≤ s.gx)
    then s.discrepancy p else s
  let s := (s.setBit (GIRTH_SIN_A p) (s.pairA p)).setBit (GIRTH_SIN_B p) (s.pairB p)
  if !s.pairOn p then s.setPairTimes p { x with unsampled := none }
  else
    let dis := s.pairDisagrees p
    let s := s.setPairTimes p (x.sample (s.bit (GIRTH_SIN_DISC p)) dis s.gx)
    let s := s.setBit (GIRTH_SIN_DISC p) dis
    let s := if s.pairDemand p && s.bit (GIRTH_SIN_FAULT p) then (s.setBit (GIRTH_SIN_FAULT p) false).emit 0x6006 [p + 1] else s
    let s := if s.pairDemand p && !s.bit (GIRTH_SIN_STD p) then (s.setBit (GIRTH_SIN_STD p) true).emit 0x6007 [p + 1] else s
    s.setBit (GIRTH_SIN_PV p) (s.pairActive p && !s.bit (GIRTH_SIN_FAULT p) && s.bit (GIRTH_SIN_STD p))

/-- An input of a pair has changed. `sampled`: a 10 µs sample of Girth shows the change before the next one (08 R288); where in time the
samples lie is not given. -/
def State.pairChanged (s : State) (p : Nat) (sampled : Bool) : State :=
  if sampled then s.samplePair p
  else
    let x := s.pairTimes p
    s.setPairTimes p { x with unsampled := some (x.unsampled.getD s.gx) }

/-! ### Safety outputs -/

def State.safetyOut (s : State) (i : Nat) : SafetyOut := CMap.lookup (fun _ => {}) s.girth.outs i

def State.setSafetyOut (s : State) (i : Nat) (x : SafetyOut) : State :=
  s.withGirth fun g => { g with outs := CMap.put (fun _ => {}) g.outs i x }

/-- The permit of safety output `i` (08 R293). DEDUCED: none before the first release, log entry 14. -/
def State.permitHolds (s : State) (i : Nat) : Bool :=
  s.get GIRTH_STAT_STATE == 1 && s.bit GIRTH_STAT_WDRUN && !s.bit GIRTH_STAT_HALT && s.gp (29 + i) 0 1 == 1
    && (s.safetyOut i).refreshAt.isSome && !s.bit (GIRTH_SOUT_REFTO i) && !s.bit (GIRTH_SOUT_FAULT i)
    && (List.range 4).all fun p => !bitOf (s.gp (29 + i) 1 4) p || s.bit (GIRTH_SIN_PV p)

/-- Permit and conduction of safety output `i` (08 R279, R282, R293; 10 R353, R359). -/
def State.driveSafety (s : State) (i : Nat) : State :=
  let permit := s.permitHolds i
  let s := s.setBit (GIRTH_SOUT_PERMIT i) permit
  let want := permit && s.bit (GIRTH_SOUT_REQ i) && s.highSide (i + 1) && !s.girth.enableLost.contains i
    && !((s.girth.test.map (·.out)) == some i)
  if bitOf (s.get GIRTH_STAT_SOUTON) i == want then s
  else
    let s := s.set GIRTH_STAT_SOUTON (putBit (s.get GIRTH_STAT_SOUTON) i want)
    let s := if want then s.setSafetyOut i { s.safetyOut i with testBase := s.gx, lowNext := false } else s
    (s.setReadback (i + 1) want).when (!want) fun s => s.set (FIO_OnSTAT_MA (i + 1)) 0

def State.driveSafetyOutputs (s : State) : State := (List.range 4).foldl State.driveSafety s

/-- A change that no sample had shown: 10 µs on, one has, and the linked outputs follow it (08 R292). -/
def State.lateSample (s : State) (p : Nat) : State :=
  match (s.pairTimes p).unsampled with
  | some t => if t + 10000 ≤ s.gx then (s.samplePair p).driveSafetyOutputs else s
  | none => s

/-- Latch an output fault (08 R295). -/
def State.outputFault (s : State) (i : Nat) (f : Fld) (code : Nat) (vals : List Nat) : State :=
  let s := (s.setBit (GIRTH_SOUT_FAULT i) true).set f (Nat.lor (s.get f) (2 ^ i))
  (s.emit code vals).driveSafety i

/-! ### Trip outputs -/

def State.tripOut (s : State) (t : Nat) : TripOut := CMap.lookup (fun _ => {}) s.girth.trips t

def State.setTripOut (s : State) (t : Nat) (x : TripOut) : State :=
  s.withGirth fun g => { g with trips := CMap.put (fun _ => {}) g.trips t x }

/-- Trip output `t` (0 to 3) is enabled; its TMIN in ns. -/
def State.tripOn (s : State) (t : Nat) : Bool := s.gp (21 + t) 0 1 == 1
def State.tripMin (s : State) (t : Nat) : Nat := s.gp (21 + t) 1 9 * 1000000

/-- The INST source of trip output `t`: an operated element with its TMASK bit (08 R298, R304). -/
def State.instSource (s : State) (t : Nat) : Bool :=
  (List.range 8).any fun e => bitOf (s.get GIRTH_INST_OP) e && bitOf (s.gp (1 + 2 * e) 8 4) t

/-- The PE source (08 R298). -/
def State.peSource (s : State) (t : Nat) : Bool :=
  if s.bit GIRTH_STAT_PESIL then s.gp (21 + t) 12 1 == 1
  else Nat.land (s.get GIRTH_PEFLAGS_FLAG) (s.gp (17 + t) 0 32) != 0

/-- Show the sources of trip output `t` (08 R298). A disabled one has none (R315). -/
def State.showSources (s : State) (t : Nat) : State :=
  let st := s.get GIRTH_STAT_STATE
  let on := s.tripOn t
  let s := s.setBit (GIRTH_TOUT_CORE t) (on && st == 1 && !s.bit GIRTH_STAT_HALT && bitOf s.girth.tripReq t)
  let s := s.setBit (GIRTH_TOUT_PE t) (on && st != 0 && s.peSource t)
  let s := s.setBit (GIRTH_TOUT_INST t) (on && st != 0 && s.instSource t)
  s.setBit (GIRTH_TOUT_SAFE t)
    (on && st == 2 && s.gp (21 + t) 10 1 == 1 && decide (s.gx < s.girth.safeAt + s.tripMin t))

/-- The sources of trip output `t`, at their bits of GIRTH_TOUT's byte. -/
def State.sources (s : State) (t : Nat) : Nat :=
  s.get (GIRTH_TOUT_CORE t) * 2 + s.get (GIRTH_TOUT_PE t) * 4 + s.get (GIRTH_TOUT_INST t) * 8 + s.get (GIRTH_TOUT_SAFE t) * 16

/-- Energise trip output `t` (08 R299, R302, R303; 09 R340). -/
def State.energise (s : State) (t : Nat) : State :=
  let s := (s.setBit (GIRTH_TOUT_ON t) true).set GIRTH_STAT_TOUTON (putBit (s.get GIRTH_STAT_TOUTON) t true)
  let s := s.setTripOut t { s.tripOut t with onAt := s.gx, confirm := true }
  let s := s.setBit (GIRTH_TOUT_CONF t) false
  let s := if s.gp (21 + t) 13 1 = 1 then s.setBit (GIRTH_TCS_SUSP t) true else s
  let s := s.emit 0x600E [t + 1, s.sources t]
  if s.bit REC_CFG_FRTRIP then s.frost 4 else s

/-- Show the sources of trip output `t`; without one its overload mark ends (08 R298, R300). -/
def State.showTrip (s : State) (t : Nat) : State :=
  let s := s.showSources t
  if s.sources t = 0 then s.setBit (GIRTH_TOUT_OVL t) false else s

/-- Trip output `t` follows its sources (08 R298 to R300). -/
def State.driveTrip (s : State) (t : Nat) : State :=
  let s := s.showTrip t
  if s.sources t != 0 && !s.bit (GIRTH_TOUT_ON t) && !s.bit (GIRTH_TOUT_OVL t) then s.energise t else s

def State.driveTrips (s : State) : State := (List.range 4).foldl State.driveTrip s

/-- Trip output `t` goes off; supervision stays stopped for 1 s (08 R299, R300, R302). -/
def State.tripOff (s : State) (t : Nat) : State :=
  let s := (s.setBit (GIRTH_TOUT_ON t) false).set GIRTH_STAT_TOUTON (putBit (s.get GIRTH_STAT_TOUTON) t false)
  s.setTripOut t { s.tripOut t with releasedAt := s.gx, confirm := false }

/-- The poles of trip output `t` conduct: as Girth says while the driver's enable is kept, and in its GLTRIP pulse
(08 R282). -/
def State.tripConducts (s : State) (t : Nat) : Bool :=
  bitOf s.girth.glPulse t || (!s.girth.enableLost.contains 4 && s.bit (GIRTH_TOUT_ON t))

/-- Everything Girth drives follows its state. -/
def State.girthDrive (s : State) : State := s.driveSafetyOutputs.driveTrips

/-! ### Releases -/

/-- Step 4 releases words of the FIO output block (08 R294; 10 R351, R352, R361): `w0`, `w1` where released. -/
def State.fioRelease (s : State) (w0 w1 : Option Word) : State :=
  if s.mode = .safe then s
  else
    let s := match w0 with
      | none => s
      | some w =>
        let r := w.toNat % 65536
        let s := s.showRequests r
        ((List.range 4).foldl (fun (s : State) i =>
          let s := s.setBit (GIRTH_SOUT_REQ i) (bitOf r i)
          (s.setSafetyOut i { s.safetyOut i with refreshAt := some s.gx }).setBit (GIRTH_SOUT_REFTO i) false) s).driveOutputs
    let s := match w1 with
      | none => s
      | some w => (s.set FIO_STAT_TRQ w.toNat).withGirth fun g => { g with tripReq := w.toNat % 16 }
    s.girthDrive

/-! ### Instantaneous elements -/

def State.element (s : State) (e : Nat) : ElementState := CMap.lookup (fun _ => {}) s.girth.elements e

def State.setElement (s : State) (e : Nat) (x : ElementState) : State :=
  s.withGirth fun g => { g with elements := CMap.put (fun _ => {}) g.elements e x }

def State.rawChannel (s : State) (ch : Nat) : RawChannel := CMap.lookup (fun _ => {}) s.girth.channels ch

def State.setRawChannel (s : State) (ch : Nat) (x : RawChannel) : State :=
  s.withGirth fun g => { g with channels := CMap.put (fun _ => {}) g.channels ch x }

/-- The fields of element `e` (08 R315). -/
def State.elOn (s : State) (e : Nat) : Bool := s.gp (1 + 2 * e) 0 1 == 1
def State.elCh (s : State) (e : Nat) : Nat := s.gp (1 + 2 * e) 1 5
def State.elConsec (s : State) (e : Nat) : Nat := s.gp (1 + 2 * e) 6 2 + 1
def State.elLatch (s : State) (e : Nat) : Bool := s.gp (1 + 2 * e) 12 1 == 1
def State.elLossTrip (s : State) (e : Nat) : Bool := s.gp (1 + 2 * e) 13 1 == 1
def State.elThresh (s : State) (e : Nat) : Nat := s.gp (2 + 2 * e) 0 23

/-- The enabled elements that watch a channel. -/
def State.watchers (s : State) (ch : Nat) : List Nat := (List.range 8).filter fun e => s.elOn e && s.elCh e == ch

def State.setInstBit (s : State) (f : Fld) (e : Nat) (b : Bool) : State := s.set f (putBit (s.get f) e b)

/-- Element `e` operates on a raw word, or drops out (08 R304, R305). -/
def State.setOperated (s : State) (e : Nat) (on : Bool) (w : Nat) : State :=
  if bitOf (s.get GIRTH_INST_OP) e == on then s
  else
    let s := (s.setInstBit GIRTH_INST_OP e on).setInstBit GIRTH_STAT_INSTOP e on
    let s := s.setInstBit GIRTH_INST_LATCHED e (on && s.elLatch e)
    let s := if on then s.emit 0x600C [e, s.elCh e, w] else s
    s.driveTrips

/-- An accepted word at element `e` (08 R304, R305). -/
def State.elementWord (s : State) (e : Nat) (above : Bool) (w : Nat) : State :=
  let x := s.element e
  let x := if above then { above := x.above + 1, below := 0 } else { above := 0, below := x.below + 1 }
  let s := s.setElement e x
  if above && decide (s.elConsec e ≤ x.above) then s.setOperated e true w
  else if !above && !s.elLatch e && decide (s.elConsec e ≤ x.below) then s.setOperated e false w
  else s

/-! ### HALTED -/

/-- The HALTED line from CORE changes (08 R287). -/
def State.haltedLine (s : State) (h : Bool) : State :=
  let s := s.setBit GIRTH_STAT_HALT h
  let s := if h then s.setBit GIRTH_STAT_WDRUN false else s
  (s.emit 0x6016 [h.toNat]).girthDrive

/-- A halt ends where halting debug is available no longer (02 R66; 08 R287). -/
def State.endHalt (s : State) : State :=
  s.when (s.bit CORE_STAT_HALTED) fun s => ((s.setBit CORE_STAT_HALTED false).set CORE_DBGSTAT_STATE 0).haltedLine false

/-! ### SAFE -/

/-- The module's entry to SAFE on Girth's signal (15 R495): the cores stop, a pending start is cancelled (05 R190), a
trial start has failed (R515), FIO and ALP go to their safe states (10 R352, R365), the recorders freeze where set (09 R340). -/
def State.enterSafe (s : State) (cause : Nat) : State :=
  if s.mode = .safe ∨ s.mode = .powerup then s
  else
    let s := (s.toMode .safe cause).cancelStart.endHalt
    let s := { s with cx := { s.cx with stopped := true } }
    let s := if s.bit SYS_STAT_TRIAL then (s.setBit SYS_BOOT_TFAIL true).saveBoot else s
    let s := s.fioSafe.alpSafe
    if s.bit REC_CFG_FRSAFE then s.frost 3 else s

/-- Girth latches SAFE on a cause (08 R283, R284); only the first cause is recorded. -/
def State.latchSafe (s : State) (cause detail : Nat) : State :=
  if s.get GIRTH_STAT_STATE = 2 then s
  else
    let s := ((s.set GIRTH_STAT_STATE 2).set GIRTH_SAFEC_CAUSE cause).set GIRTH_SAFEC_DETAIL detail
    let s := (s.withGirth fun g => { g with safeAt := s.gx }).emit 0x6003 [cause, detail % 256]
    s.girthDrive.enterSafe 7

/-! ### PE -/

/-- The trip flags of PE reach Girth (08 R298). -/
def State.girthFlags (s : State) : State := (s.set GIRTH_PEFLAGS_FLAG (s.get PE_FLAGS_FLAG)).driveTrips

/-- A slot-end strobe of PE (08 R298). DEDUCED: strobes are consecutive while less than two intervals lie between them,
log entry 14. -/
def State.slotStrobe (s : State) : State :=
  let n := if s.gx < s.girth.strobeAt + 62500 then min (s.girth.strobes + 1) 64 else 1
  s.withGirth fun g => { g with strobes := n, strobeAt := s.gx }

end Sys2Proof.Machine
end

