-- ==== Sys2Proof/Machine/OctOps.lean ====
section
/-!
DEFINITION. Operations of OCT (12): frames and headers (R413, R414), the schedule (R418 to R420), ports (R428), nodes,
grants and poll status (R417, R427, R431, R432), roles and cold start (R433 to R438). Times in ns of MONO; frame starts
stand at their nominal instants.
-/

namespace Sys2Proof.Machine

open Reg

def State.withOct (s : State) (f : OctBlock → OctBlock) : State := { s with oct := f s.oct }

def State.octCh (s : State) (c : Nat) : OctChannel := if c = 0 then s.oct.chA else s.oct.chB

def State.setOctCh (s : State) (c : Nat) (x : OctChannel) : State :=
  s.withOct fun b => if c = 0 then { b with chA := x } else { b with chB := x }

/-- Roles of OCT_STAT.ROLE. -/
def State.octRole (s : State) : Nat := s.get OCT_STAT_ROLE
def State.octAddr (s : State) : Nat := s.get OCT_CFG_ADDR
/-- Channel `c` is enabled. -/
def State.octEnabled (s : State) (c : Nat) : Bool := s.get OCT_CFG_CHEN / 2 ^ c % 2 == 1

/-! ### Frames -/

/-- A header (12 R414). -/
def octHeader (type addr port lenw flag : Nat) : Word :=
  BitVec.ofNat 32 (type % 16 + addr % 128 * 2 ^ 4 + port % 4096 * 2 ^ 11 + lenw % 128 * 2 ^ 23 + flag % 2 * 2 ^ 31)

def octType (h : Word) : Nat := fieldGet h 0 4
def octDest (h : Word) : Nat := fieldGet h 4 7
def octPort (h : Word) : Nat := fieldGet h 11 12
def octLenw (h : Word) : Nat := fieldGet h 23 7
def octFlag (h : Word) : Bool := fieldGet h 31 1 == 1

/-- Duration in ns of a frame with `w` payload words (12 R413). -/
def octTf (w : Nat) : Nat := 1920 + 640 * w

/-- The FCS of a frame: CRC-32C over header and payload (12 R413). -/
def OctLine.fcs (l : OctLine) : Word := BitVec.ofNat 32 (crcWords (l.header :: l.payload))

/-- The half-bit cells of data bits (12 R412): 1 is high then low, 0 is low then high. -/
def manchester (bits : List Bool) : List Bool := bits.flatMap fun b => [b, !b]

/-- The bits of a word in the order they are sent, byte 0 first and each byte least significant bit first (12 R412). -/
def wordBits (w : Word) : List Bool := (List.range 32).map w.getLsbD

/-- The half-bit cells of a frame on the line (12 R412, R413), 10 ns each. -/
def OctLine.cells (l : OctLine) : List Bool :=
  manchester ((List.range 16).map fun i => i % 2 == 0)
    ++ [true, true, true, false, false, false, true, false, true, true, true, false, false, false, true, false]
    ++ (l.header :: l.payload ++ [l.fcs]).flatMap (fun w => manchester (wordBits w))
    ++ [false, false, false, true, true, true, false, true, false, false, false, true, true, true, false, true]

/-- Send a frame on channel `c` with its frame start. -/
def State.octSend (s : State) (c start type addr port flag : Nat) (payload : List Word) : State :=
  s.setOctCh c { s.octCh c with line := some ⟨octHeader type addr port payload.length flag, payload, start⟩ }

/-! ### The schedule -/

/-- The entries a configuration has enabled, ascending. -/
def State.octEntries (s : State) : List Nat :=
  (s.regs.filterMap fun e => if e.1 % 0x100000000 = OCT_ED0 then some (e.1 / 0x100000000) else none).filter fun i =>
    s.bit (OCT_ED0_EN.at i)

/-- Offset S of an entry in ns. -/
def State.edS (s : State) (i : Nat) : Nat := s.get (OCT_ED0_OFFS.at i) * 10
def State.edCh (s : State) (i : Nat) : Nat := s.get (OCT_ED0_CH.at i)
def State.edKind (s : State) (i : Nat) : Nat := s.get (OCT_ED0_KIND.at i)
def State.edAddr (s : State) (i : Nat) : Nat := s.get (OCT_ED1_ADDR.at i)
def State.edLenw (s : State) (i : Nat) : Nat := s.get (OCT_ED1_LENW.at i)
def State.edPort (s : State) (i : Nat) : Nat := s.get (OCT_ED2_PORT.at i)
def State.edGranted (s : State) (i : Nat) : Bool := s.bit (OCT_ED2_GRANT.at i)

/-- M of the macrocycle (12 R418). -/
def State.octM (s : State) : Nat := 2 ^ s.get OCT_CFG_MACRO

/-- An entry is active in the present basic period (12 R418). -/
def State.octActive (s : State) (i : Nat) : Bool :=
  s.bit (OCT_ED0_EN.at i) && s.get OCT_MCNT_INDEX % 2 ^ s.get (OCT_ED0_EXP.at i) == s.get (OCT_ED1_PHASE.at i)

/-- RTDMAX in ns. -/
def State.rtdMax (s : State) : Nat := s.get OCT_CFG_RTDMAX * 10

/-! ### Ports -/

/-- The enabled descriptor of a port in a direction (12 R428). -/
def State.octPortIndex (s : State) (port : Nat) (out : Bool) : Option Nat :=
  ((s.regs.filterMap fun e => if e.1 % 0x100000000 = OCT_PCFG then some (e.1 / 0x100000000) else none).filter fun d =>
    s.bit (OCT_PCFG_EN.at d) && s.get (OCT_PCFG_PORT.at d) == port && s.bit (OCT_PCFG_DIR.at d) == out).head?

/-- Enabled output descriptors, ascending. -/
def State.octOutputs (s : State) : List Nat :=
  (s.regs.filterMap fun e => if e.1 % 0x100000000 = OCT_PCFG then some (e.1 / 0x100000000) else none).filter fun d =>
    s.bit (OCT_PCFG_EN.at d) && s.bit (OCT_PCFG_DIR.at d)

/-- The descriptor's count of frames accepted or sent, wrapping. -/
def State.octCount (s : State) (d : Nat) : State := s.set (OCT_PSTAT_COUNT.at d) (s.get (OCT_PSTAT_COUNT.at d) + 1)

/-- A frame of an input port is accepted (12 R428). -/
def State.octAccept (s : State) (port start : Nat) (payload : List Word) : State :=
  match s.octPortIndex port false with
  | none => s
  | some d =>
    let s := ((s.setBit (OCT_PSTAT_LOST.at d) false).setBit (OCT_PSTAT_NEVER.at d) false).octCount d
    let s := s.withOct fun b => { b with accepted := CMap.put (fun _ => 0) b.accepted d start }
    s.deliver 4 port payload s.mono start false

/-- Basic periods since the last accepted frame of a descriptor, the content of OCT_PSTAT.MISS. -/
def State.octMiss (s : State) (d : Nat) : Nat :=
  min 255 ((s.mono - CMap.lookup (fun _ => 0) s.oct.accepted d) / 500000)

/-- Data of an output port for a frame of `n` words. -/
def State.octData (s : State) (port n : Nat) : List Word := (s.station 4 port).outWords n

/-- OCT sends no data of its own: SAFE, or outputs released in a pair (12 R429; 14 R471). -/
def State.octSilent (s : State) : Bool := s.mode == .safe || s.outputsReleased

/-! ### Nodes and grants -/

def lastKey (c addr : Nat) : Nat := c * 128 + addr

/-- LAST of a node on a channel (12 R417), 15: no previous frame. -/
def State.octLast (s : State) (c addr : Nat) : Nat := CMap.lookup (fun _ => 15) s.oct.lasts (lastKey c addr)

/-- The master judges a node's frame. -/
def State.judge (s : State) (c addr last : Nat) : State :=
  (s.withOct fun b => { b with lasts := CMap.put (fun _ => 15) b.lasts (lastKey c addr) last }).set (OCT_NSTAT_LAST.at addr) last

/-- A frame of a node is discarded by the master. -/
def State.judgeDiscard (s : State) (c addr last : Nat) : State := (s.judge c addr last).inc (OCT_NSTAT_ERR.at addr)

/-- The poll status word for a node (12 R417). -/
def State.pollStatus (s : State) (c addr : Nat) : Word :=
  BitVec.ofNat 32 (s.get (OCT_NSTAT_RTD.at addr) + s.octLast c addr * 2 ^ 12 + s.get (OCT_NSTAT_ERR.at addr) * 2 ^ 16)

/-- Entries granted to an address. -/
def State.grantsOf (s : State) (addr : Nat) : List Nat :=
  s.octEntries.filter fun i => s.edKind i == 4 && s.edGranted i && s.get (OCT_ED2_GADDR.at i) == addr

/-- Return an entry to free (12 R432). -/
def State.freeEntry (s : State) (i : Nat) : State :=
  let addr := s.get (OCT_ED2_GADDR.at i)
  (s.wr (bank OCT_ED2 i) 0#32).emit 0x900A [addr, i]

/-- Revoke the grants of an address; a GRANT not yet sent lists them no more. -/
def State.revokeAll (s : State) (addr : Nat) : State :=
  let unsent : OctChannel → OctChannel := fun x => { x with grant := x.grant.map fun g => if g.1 = addr then (addr, []) else g }
  let s := s.withOct fun b => { b with chA := unsent b.chA, chB := unsent b.chB }
  ((s.grantsOf addr).foldl State.freeEntry s).setBit (OCT_NSTAT_GRANT.at addr) false

/-- Every grant lapses when a new master takes over (12 R432, R437, R438). -/
def State.lapseGrants (s : State) : State :=
  (s.octEntries.filter fun i => s.edKind i == 4 && s.edGranted i).foldl State.freeEntry s

/-- The node table starts anew: what it holds is one mastership's. -/
def State.clearNodes (s : State) : State :=
  let s := (List.range 128).foldl (fun (s : State) a => s.wr (bank OCT_NSTAT a) (resetOf (bank OCT_NSTAT a))) s
  let fresh : OctChannel → OctChannel := fun x => { x with poll := none, grant := none, admitted := 0 }
  s.withOct fun b => { b with lasts := [], grantFrom := [], chA := fresh b.chA, chB := fresh b.chB }

/-- An address is admitted: its first accepted REPLY or CLAIM measures its RTD (12 R422, R431). -/
def State.admitNode (s : State) (addr rtd : Nat) : State :=
  let s := if s.bit (OCT_NSTAT_ADM.at addr) then s else (s.setBit (OCT_NSTAT_ADM.at addr) true).set (OCT_NSTAT_ERR.at addr) 0
  if s.get (OCT_NSTAT_RTD.at addr) = 4095 then s.set (OCT_NSTAT_RTD.at addr) rtd else s

/-- A poll of a node went unanswered (12 R425, R427). -/
def State.pollMissed (s : State) (c addr : Nat) : State :=
  let s := (s.judge c addr 3).inc (OCT_NSTAT_NOREP.at addr)
  if s.get (OCT_NSTAT_NOREP.at addr) = 16 then
    ((s.setBit (OCT_NSTAT_ADM.at addr) false).set (OCT_NSTAT_RTD.at addr) 4095).revokeAll addr
  else s

/-- The hand-over has failed (12 R437). -/
def State.handFailed (s : State) (target : Nat) : State :=
  ((s.withOct fun b => { b with target := none, lastMacro := none }).setBit OCT_STAT_HOPEND false).emit 0x900B [1, target]

/-- The next master frame on a channel shows whether the last one was answered; a hand-over ends without an accepted HANDACK. -/
def State.settlePoll (s : State) (c : Nat) : State :=
  match (s.octCh c).poll with
  | none => s
  | some p =>
    let s := s.setOctCh c { s.octCh c with poll := none }
    match p.ask with
    | .poll => if p.answered then s else s.pollMissed c p.addr
    | .admission => s
    | .handover => if s.oct.lastMacro.isSome then s else s.handFailed p.addr

/-! ### Roles -/

/-- Begin step 1 of the cold start (12 R433) at MONO `t`. -/
def State.listen (s : State) (t : Nat) : State :=
  ((s.set OCT_STAT_ROLE 1).set OCT_STAT_CSSTEP 1).set OCT_STAT_MASTER 0 |>.withOct fun b => { b with stepAt := t }

/-- OCT begins at the end of CONFIGURE (12 R433, R440). -/
def State.octBegin (s : State) : State :=
  if s.octAddr = 0 then s
  else if s.bit OCT_CFG_MCAP then s.listen s.mono
  else (s.set OCT_STAT_ROLE 2).set OCT_STAT_CSSTEP 0

/-- Follow a master (12 R433, R436 to R438); the grants lapse under a new one (R432), also one found after a loss. -/
def State.follow (s : State) (master : Nat) (cold : Bool) : State :=
  let was := s.octRole
  let old := s.get OCT_STAT_MASTER
  let s := ((s.set OCT_STAT_ROLE 2).set OCT_STAT_CSSTEP 0).set OCT_STAT_MASTER master
  let s := if was = 2 ∧ old = master then s
    else if was = 3 then s else s.emit 0x9004 [master, cold.toNat]
  let new := cold || s.oct.followed != master
  let s := s.withOct fun b => { b with followed := master }
  if new then s.lapseGrants else s

/-- The module is master from now on (12 R433, R437). -/
def State.becomeMaster (s : State) (cause : Nat) : State :=
  let s := s.lapseGrants.clearNodes.withOct fun b => { b with followed := s.octAddr }
  let s := ((s.set OCT_STAT_ROLE 3).set OCT_STAT_CSSTEP 0).set OCT_STAT_MASTER s.octAddr
  s.emit 0x9001 [cause, s.get OCT_MCNT_COUNT]

/-- A START is sent or received with its index and count (12 R440). -/
def State.noteStart (s : State) (c start index count : Nat) : State :=
  let s := (s.set OCT_MCNT_INDEX index).set OCT_MCNT_COUNT count
  (s.setOctCh c { s.octCh c with start := some start, served := none }).withOct fun b => { b with startAt := start }

/-- T0 of a channel in the present basic period. -/
def State.octT0 (s : State) (c : Nat) : Nat := ((s.octCh c).start).getD s.oct.startAt

end Sys2Proof.Machine
end

