-- ==== Sys2Proof/Machine/PeIsa.lean ====
section
/-!
DEFINITION. The data path of PE's instructions (07 R242 to R254) and the decoding of its bundles (R244 to R252).
-/

namespace Sys2Proof.Machine

/-- An operation of the S-slot (07 R251). -/
inductive PeSlot where
  | scalar (o : PeScalar)
  | lds (sd : PeReg) (m : PeMem)
  | sts (ss : PeReg) (m : PeMem)
  | acc (o : PeAccumulator)
  | brf (fa : PeFlag) (sense : Bool) (off : BitVec 14)
  | bra (off : BitVec 14)
  | loop (k : BitVec 12) (m : BitVec 14)
  | lidx (sd : PeReg) (level : Fin 4)
  | end_
  | trp (k : Fin 32) (fa : PeFlag)
  | trg (j : Fin 8) (fa : PeFlag)
deriving DecidableEq, Repr

/-! ### Registers -/

def PeRegs.lane (r : PeRegs) (v i : Nat) : Word := CMap.lookup (fun _ => 0#32) r.v (4 * v + i)
def PeRegs.sc (r : PeRegs) (i : Nat) : Word := CMap.lookup (fun _ => 0#32) r.s i
def PeRegs.ac (r : PeRegs) (i : Nat) : DWord := CMap.lookup (fun _ => 0#64) r.a i
def PeRegs.fl (r : PeRegs) (i : Nat) : Bool := CMap.lookup (fun _ => false) r.f i

def PeRegs.setLane (r : PeRegs) (v i : Nat) (w : Word) : PeRegs := { r with v := CMap.put (fun _ => 0#32) r.v (4 * v + i) w }
def PeRegs.setSc (r : PeRegs) (i : Nat) (w : Word) : PeRegs := { r with s := CMap.put (fun _ => 0#32) r.s i w }
def PeRegs.setAc (r : PeRegs) (i : Nat) (w : DWord) : PeRegs := { r with a := CMap.put (fun _ => 0#64) r.a i w }
def PeRegs.setFl (r : PeRegs) (i : Nat) (b : Bool) : PeRegs := { r with f := CMap.put (fun _ => false) r.f i b }

/-- Write the four lanes of a vector register. -/
def PeRegs.setVec (r : PeRegs) (v : Nat) (f : Nat → Word) : PeRegs :=
  (((r.setLane v 0 (f 0)).setLane v 1 (f 1)).setLane v 2 (f 2)).setLane v 3 (f 3)

/-! ### Arithmetic (07 R252 to R254) -/

def f32 (w : Word) : FpVal := binary32.unpack w.toNat
def ofPair (r : Nat × Nat) : Word := BitVec.ofNat 32 r.1

def signMask : Word := 0x80000000#32

/-- A binary32 operation of two registers (07 R251). -/
def peFloat (op : SFloat) (x y : Word) : Word :=
  match op with
  | .fadd => ofPair (fpAdd binary32 .nearest (f32 x) (f32 y))
  | .fsub => ofPair (fpAdd binary32 .nearest (f32 x) (f32 y).negate)
  | .fmul => ofPair (fpMul binary32 .nearest (f32 x) (f32 y))
  | .fdiv => ofPair (fpDiv binary32 .nearest (f32 x) (f32 y))
  | .fmin => ofPair (fpMinMax binary32 false x.toNat y.toNat)
  | .fmax => ofPair (fpMinMax binary32 true x.toNat y.toNat)

/-- cond on binary32 (07 R252). -/
def peFloatCond (c : PeCond) (x y : Word) : Bool :=
  let a := f32 x
  let b := f32 y
  let nan := a.isNan || b.isNan
  match c with
  | .eq => fpEqual a b
  | .ne => nan || !fpEqual a b
  | .lt => !nan && fpLess a b
  | .le => !nan && !fpLess b a
  | .gt => !nan && fpLess b a
  | .ge => !nan && !fpLess a b

/-- cond on signed integers. -/
def peIntCond (c : PeCond) (x y : Int) : Bool :=
  match c with
  | .eq => decide (x = y)
  | .ne => decide (x ≠ y)
  | .lt => decide (x < y)
  | .le => decide (x ≤ y)
  | .gt => decide (y < x)
  | .ge => decide (y ≤ x)

def accMax : Int := 2 ^ 63 - 1

/-- Saturate to ±(2^63 - 1) (07 R254). -/
def peSat (v : Int) : Int := if accMax < v then accMax else if v < -accMax then -accMax else v

/-- q(x) of 07 R254. -/
def peQ (x : Word) : Int :=
  match f32 x with
  | .nan _ => 0
  | .inf n => if n then -accMax else accMax
  | .zero _ => 0
  | .fin n m e => peSat (signedSig n (roundAt .nearest n m (e + 32) 0).1)

/-- Bits of log2 of a number in [2^64, 2^65), over 2^64: `n` of them, `acc` the ones before. -/
def log2Bits : Nat → Nat → Nat → Nat
  | 0, _, acc => acc
  | n + 1, y, acc =>
    let y := y * y / 2 ^ 64
    if 2 ^ 65 ≤ y then log2Bits n (y / 2) (2 * acc + 1) else log2Bits n y (2 * acc)

/-- log2 of m x 2^e, m > 0, in units of 2^-60. -/
def log2Fixed (m : Nat) (e : Int) : Int :=
  let k := Nat.log2 m
  (e + k) * 2 ^ 60 + log2Bits 60 (m * 2 ^ 64 / 2 ^ k) 0

/-- 2^(2^-i) for i from 1 to 40, in units of 2^-64. -/
def exp2Roots : List Nat :=
  [0x16A09E667F3BCC909, 0x1306FE0A31B7152DF, 0x1172B83C7D517ADCE, 0x10B5586CF9890F62A,
   0x1059B0D31585743AE, 0x102C9A3E778060EE7, 0x10163DA9FB33356D8, 0x100B1AFA5ABCBED61,
   0x10058C86DA1C09EA2, 0x1002C605E2E8CEC50, 0x100162F3904051FA1, 0x1000B175EFFDC76BA,
   0x100058BA01FB9F96D, 0x10002C5CC37DA9492, 0x1000162E525EE0547, 0x10000B17255775C04,
   0x1000058B91B5BC9AE, 0x100002C5C89D5EC6D, 0x10000162E43F4F831, 0x100000B1721BCFC9A,
   0x10000058B90CF1E6E, 0x1000002C5C863B73F, 0x100000162E430E5A2, 0x1000000B172183551,
   0x100000058B90C0B49, 0x10000002C5C8601CC, 0x1000000162E42FFF0, 0x10000000B17217FBB,
   0x1000000058B90BFCE, 0x100000002C5C85FE3, 0x10000000162E42FF1, 0x100000000B17217F8,
   0x10000000058B90BFC, 0x1000000002C5C85FE, 0x100000000162E42FF, 0x1000000000B17217F,
   0x100000000058B90C0, 0x10000000002C5C860, 0x1000000000162E430, 0x10000000000B17218]

/-- 2^f for a fraction f in units of 2^-64, in units of 2^-64: the product of the roots its leading 40 bits select. -/
def exp2Fraction (f : Nat) : Nat :=
  ((List.range 40).foldl (fun (p : Nat) i => if f / 2 ^ (63 - i) % 2 = 1 then p * exp2Roots.getD i 0 / 2 ^ 64 else p) (2 ^ 64))

/-- The model's free value `cand` for the operation whose exact result is v x 2^e where it lies within 2 ulp of that result, else
the nearest binary32 (07 R253; which of the values within 2 ulp is not stated: log entry 17). -/
def withinTwoUlp (cand : Word) (v e : Int) : Word :=
  let r := ofPair (fpOfInt binary32 .nearest v e)
  match f32 r, f32 cand with
  | .fin _ _ ulp, .fin n m k =>
    let error := signedSig n m * 2 ^ (k + 400).toNat - v * 2 ^ (e + 400).toNat
    if error.natAbs ≤ 2 * 2 ^ (ulp + 400).toNat then cand else r
  | _, _ => r

/-- log2 (07 R251, R253). -/
def peLog2 (x : Word) : Word :=
  match f32 x with
  | .zero _ => 0xFF800000#32
  | .nan _ => 0x7FC00000#32
  | .inf neg => if neg then 0x7FC00000#32 else x
  | .fin neg m e => if neg then 0x7FC00000#32 else withinTwoUlp (Config.log2 x) (log2Fixed m e) (-60)

/-- 2^x (07 R251, R253). -/
def peExp2 (x : Word) : Word :=
  match f32 x with
  | .nan _ => 0x7FC00000#32
  | .inf neg => if neg then 0#32 else x
  | .zero _ => withinTwoUlp (Config.exp2 x) 1 0
  | .fin neg m e =>
    if 2 ^ 10 ≤ m * 2 ^ (e + 149).toNat / 2 ^ 149 then if neg then 0#32 else 0x7F800000#32
    else
      let fixed : Int := if e + 64 < 0 then signedSig neg m / 2 ^ (-(e + 64)).toNat else signedSig neg m * 2 ^ (e + 64).toNat
      withinTwoUlp (Config.exp2 x) (exp2Fraction (fixed % 2 ^ 64).toNat) (fixed / 2 ^ 64 - 64)

/-- Unary operations of the S-slot (07 R251, R253). -/
def peUnary (op : SUnary) (x : Word) : Word :=
  match op with
  | .fabs => x &&& ~~~ signMask
  | .fsqrt => ofPair (fpSqrt binary32 .nearest (f32 x))
  | .fcvti => BitVec.ofInt 32 (fpToRange .zero (f32 x) (-(2 ^ 31)) (2 ^ 31 - 1)).1
  | .fcvtf => ofPair (fpOfInt binary32 .nearest x.toInt)
  | .flg2 => peLog2 x
  | .fex2 => peExp2 x

/-- Integer operations of the S-slot. -/
def peInt (op : SInt) (x y : Word) : Word :=
  match op with
  | .sadd => x + y
  | .ssub => x - y
  | .sand => x &&& y
  | .sor => x ||| y
  | .sxor => x ^^^ y
  | .smul => x * y

def peShift (op : SShift) (x : Word) (n : Nat) : Word :=
  match op with
  | .sshl => x <<< n
  | .sshr => x >>> n
  | .ssra => x.sshiftRight n

/-- FLOP (07 R251). -/
def peFlop (op : Nat) (a b : Bool) : Bool :=
  match op with
  | 0 => a && b
  | 1 => a || b
  | 2 => a != b
  | 3 => a && !b
  | 4 => !a
  | 5 => a
  | 6 => true
  | _ => false

/-! ### Register effects of the operations, on the registers as they stood before the bundle -/

/-- A lane of a VR operation (07 R249), VHADD apart. -/
def vArithLane (op : VArith) (r : PeRegs) (va vb vc : Nat) (i : Nat) : Word :=
  let a := r.lane va i
  let b := r.lane vb i
  match op with
  | .vadd => peFloat .fadd a b
  | .vsub => peFloat .fsub a b
  | .vmul => peFloat .fmul a b
  | .vdiv => peFloat .fdiv a b
  | .vfma => ofPair (fpFused binary32 .nearest (f32 a) (f32 b) (f32 (r.lane vc i)))
  | .vfms => ofPair (fpFused binary32 .nearest (f32 a) (f32 b) (f32 (r.lane vc i)).negate)
  | .vmin => peFloat .fmin a b
  | .vmax => peFloat .fmax a b
  | .vabs => a &&& ~~~ signMask
  | .vneg => a ^^^ signMask
  | .vsqrt => ofPair (fpSqrt binary32 .nearest (f32 a))
  | .vmov => a
  | .vsel => if r.fl (vc % 8) then a else b
  | .vhadd =>
    let v := if i < 2 then va else vb
    peFloat .fadd (r.lane v (2 * (i % 2))) (r.lane v (2 * (i % 2) + 1))

/-- A V-slot operation other than VLD and VST: reads `old`, writes into `r`. -/
def peVector (o : PeVector) (old r : PeRegs) : PeRegs :=
  match o with
  | .vnop => r
  | .arith op vd va vb vc => r.setVec vd.val (vArithLane op old va.val vb.val vc.val)
  | .vperm vd va sel => r.setVec vd.val fun i => old.lane va.val ((sel.toNat / 4 ^ i) % 4)
  | .vspl vd sa => r.setVec vd.val fun _ => old.sc sa.val
  | .vins vd sa lane => r.setLane vd.val lane.val (old.sc sa.val)
  | .vext sd va lane => r.setSc sd.val (old.lane va.val lane.val)
  | .vcmp fd all va vb mask cond =>
    let lanes := (List.range 4).filter fun i => mask.getLsbD i
    let holds := fun i => peFloatCond cond (old.lane va.val i) (old.lane vb.val i)
    r.setFl fd.val (if lanes.isEmpty then false else if all then lanes.all holds else lanes.any holds)

/-- A scalar operation. -/
def peScalar (o : PeScalar) (old r : PeRegs) : PeRegs :=
  match o with
  | .snop => r
  | .int op sd sa sb => r.setSc sd.val (peInt op (old.sc sa.val) (old.sc sb.val))
  | .shift op sd sa n => r.setSc sd.val (peShift op (old.sc sa.val) n.val)
  | .saddi sd sa imm => r.setSc sd.val (old.sc sa.val + imm.signExtend 32)
  | .sori sd sa imm => r.setSc sd.val (old.sc sa.val ||| imm.setWidth 32)
  | .slih sd imm => r.setSc sd.val (imm.setWidth 32 <<< 14)
  | .scmp fd sa sb cond => r.setFl fd.val (peIntCond cond (old.sc sa.val).toInt (old.sc sb.val).toInt)
  | .float op sd sa sb => r.setSc sd.val (peFloat op (old.sc sa.val) (old.sc sb.val))
  | .unary op sd sa => r.setSc sd.val (peUnary op (old.sc sa.val))
  | .fcmp fd sa sb cond => r.setFl fd.val (peFloatCond cond (old.sc sa.val) (old.sc sb.val))
  | .flop fd fa fb op => r.setFl fd.val (peFlop op.val (old.fl fa.val) (old.fl fb.val))
  | .ftos sd => r.setSc sd.val (BitVec.ofNat 32 ((List.range 8).foldl (fun w i => w + (old.fl i).toNat * 2 ^ i) 0))
  | .stof sa => (List.range 8).foldl (fun r i => r.setFl i ((old.sc sa.val).getLsbD i)) r

/-- An accumulator operation other than ALD and AST, which access memory. -/
def peAccumulator (o : PeAccumulator) (old r : PeRegs) : PeRegs :=
  let add := fun (ad : PeAcc) (q : Int) => r.setAc ad.val (BitVec.ofInt 64 (peSat ((old.ac ad.val).toInt + q)))
  match o with
  | .aadd ad va lane => add ad (peQ (old.lane va.val lane.val))
  | .asub ad va lane => add ad (-peQ (old.lane va.val lane.val))
  | .aadds ad sa => add ad (peQ (old.sc sa.val))
  | .asubs ad sa => add ad (-peQ (old.sc sa.val))
  | .ald _ _ => r
  | .ast _ _ => r
  | .aseti ad imm => r.setAc ad.val (imm.signExtend 64 <<< 32)
  | .acmp fd ad ab cond => r.setFl fd.val (peIntCond cond (old.ac ad.val).toInt (old.ac ab.val).toInt)
  | .aflt sd ab => r.setSc sd.val (ofPair (fpOfInt binary32 .nearest (old.ac ab.val).toInt (-32)))
  | .amov ad ab => r.setAc ad.val (old.ac ab.val)
  | .amax0 ad => r.setAc ad.val (if (old.ac ad.val).toInt < 0 then 0#64 else old.ac ad.val)

/-! ### Decoding (07 R244 to R252) -/

def reg4 (w lo : Nat) : PeReg := ⟨w / 2 ^ lo % 16, Nat.mod_lt _ (by decide)⟩
def reg3 (w lo : Nat) : Fin 8 := ⟨w / 2 ^ lo % 8, Nat.mod_lt _ (by decide)⟩
def lane2 (w lo : Nat) : Fin 4 := ⟨w / 2 ^ lo % 4, Nat.mod_lt _ (by decide)⟩

/-- Bits [lo + n - 1 : lo] are 0. -/
def zeroBits (w lo n : Nat) : Bool := w / 2 ^ lo % 2 ^ n == 0

/-- cond of 07 R252; values 6 and 7 are undefined. -/
def condOf : Nat → Option PeCond
  | 0 => some .eq | 1 => some .ne | 2 => some .lt | 3 => some .le | 4 => some .gt | 5 => some .ge | _ => none

/-- The memory operand of a slot. -/
def memOf (w : Nat) : PeMem := ⟨reg4 w 18, lane2 w 16, BitVec.ofNat 16 w⟩

/-- The operand's fields lie in their ranges (07 R246): `vector` for the V-slot, `store` for a store. -/
def memDefined (m : PeMem) (vector store : Bool) : Bool :=
  let off := m.off.toNat
  match m.space.val with
  | 0 => m.xs.val == 0
  | 1 => m.xs.val == 0 && !store && decide (off / 2048 ≤ 23)
  | 2 => m.xs.val == 0 && decide (off < if vector then 16 else 64)
  | _ => true

/-- The V-slot operation a word encodes (07 R248, R249). -/
def decodeVector (w : Nat) : Option PeVectorSlot :=
  let vd := reg4 w 22
  let va := reg4 w 18
  let vb := reg4 w 14
  let vc := reg4 w 10
  let op := w / 2 ^ 26 % 64
  let vr := fun (o : VArith) (zb zc : Bool) =>
    if zeroBits w 0 10 && (!zb || zeroBits w 14 4) && (!zc || zeroBits w 10 4) then
      some (PeVectorSlot.op (.arith o vd va vb vc)) else none
  match op with
  | 0x00 => if zeroBits w 0 26 then some (.op .vnop) else none
  | 0x01 => vr .vadd false true
  | 0x02 => vr .vsub false true
  | 0x03 => vr .vmul false true
  | 0x04 => vr .vdiv false true
  | 0x05 => vr .vfma false false
  | 0x06 => vr .vfms false false
  | 0x07 => vr .vmin false true
  | 0x08 => vr .vmax false true
  | 0x09 => vr .vabs true true
  | 0x0A => vr .vneg true true
  | 0x0B => vr .vsqrt true true
  | 0x0C => vr .vmov true true
  | 0x0D => if zeroBits w 13 1 then vr .vsel false false else none
  | 0x0E => vr .vhadd false true
  | 0x0F => if zeroBits w 10 8 && zeroBits w 0 2 then some (.op (.vperm vd va (BitVec.ofNat 8 (w / 4)))) else none
  | 0x10 => if zeroBits w 0 18 then some (.op (.vspl vd va)) else none
  | 0x11 => if zeroBits w 12 6 && zeroBits w 0 10 then some (.op (.vins vd va (lane2 w 10))) else none
  | 0x12 => if zeroBits w 12 6 && zeroBits w 0 10 then some (.op (.vext vd va (lane2 w 10))) else none
  | 0x18 =>
    match condOf (w / 2 ^ 7 % 8) with
    | some c =>
      if zeroBits w 0 7 then
        some (.op (.vcmp (reg3 w 23) (w / 2 ^ 22 % 2 == 1) va vb (BitVec.ofNat 4 (w / 2 ^ 10)) c))
      else none
    | none => none
  | 0x20 => if memDefined (memOf w) true false then some (.vld vd (memOf w)) else none
  | 0x21 => if memDefined (memOf w) true true then some (.vst vd (memOf w)) else none
  | _ => none

/-- The S-slot operation a word encodes (07 R250, R251, R255). -/
def decodeSlot (w : Nat) : Option PeSlot :=
  let sd := reg4 w 22
  let sa := reg4 w 18
  let sb := reg4 w 14
  let ad := reg3 w 23
  let op := w / 2 ^ 26 % 64
  let sc := fun (ok : Bool) (o : PeScalar) => if ok then some (PeSlot.scalar o) else none
  let ac := fun (ok : Bool) (o : PeAccumulator) => if ok then some (PeSlot.acc o) else none
  let rrr := zeroBits w 0 14
  let rr := zeroBits w 0 18
  let cmp := zeroBits w 22 1 && zeroBits w 0 11
  let m := memOf w
  match op with
  | 0x00 => sc (zeroBits w 0 26) .snop
  | 0x01 => sc rrr (.int .sadd sd sa sb)
  | 0x02 => sc rrr (.int .ssub sd sa sb)
  | 0x03 => sc rrr (.int .sand sd sa sb)
  | 0x04 => sc rrr (.int .sor sd sa sb)
  | 0x05 => sc rrr (.int .sxor sd sa sb)
  | 0x06 => sc (zeroBits w 5 13) (.shift .sshl sd sa ⟨w % 32, Nat.mod_lt _ (by decide)⟩)
  | 0x07 => sc (zeroBits w 5 13) (.shift .sshr sd sa ⟨w % 32, Nat.mod_lt _ (by decide)⟩)
  | 0x08 => sc (zeroBits w 5 13) (.shift .ssra sd sa ⟨w % 32, Nat.mod_lt _ (by decide)⟩)
  | 0x09 => sc (zeroBits w 14 4) (.saddi sd sa (BitVec.ofNat 14 w))
  | 0x0A => sc (zeroBits w 14 4) (.sori sd sa (BitVec.ofNat 14 w))
  | 0x0B => sc (zeroBits w 18 4) (.slih sd (BitVec.ofNat 18 w))
  | 0x0C => sc rrr (.int .smul sd sa sb)
  | 0x0D => (condOf (w / 2 ^ 11 % 8)).bind fun c => sc cmp (.scmp ad sa sb c)
  | 0x10 => sc rrr (.float .fadd sd sa sb)
  | 0x11 => sc rrr (.float .fsub sd sa sb)
  | 0x12 => sc rrr (.float .fmul sd sa sb)
  | 0x13 => sc rrr (.float .fdiv sd sa sb)
  | 0x14 => sc rrr (.float .fmin sd sa sb)
  | 0x15 => sc rrr (.float .fmax sd sa sb)
  | 0x16 => sc rr (.unary .fabs sd sa)
  | 0x17 => sc rr (.unary .fsqrt sd sa)
  | 0x18 => (condOf (w / 2 ^ 11 % 8)).bind fun c => sc cmp (.fcmp ad sa sb c)
  | 0x19 => sc rr (.unary .fcvti sd sa)
  | 0x1A => sc rr (.unary .fcvtf sd sa)
  | 0x1B => sc rr (.unary .flg2 sd sa)
  | 0x1C => sc rr (.unary .fex2 sd sa)
  | 0x20 => if memDefined m false false then some (.lds sd m) else none
  | 0x21 => if memDefined m false true then some (.sts sd m) else none
  | 0x24 => ac (zeroBits w 22 1 && zeroBits w 0 16) (.aadd ad sa (lane2 w 16))
  | 0x25 => ac (zeroBits w 22 1 && zeroBits w 0 16) (.asub ad sa (lane2 w 16))
  | 0x26 => ac (zeroBits w 22 1 && rr) (.aadds ad sa)
  | 0x27 => ac (zeroBits w 22 1 && rr) (.asubs ad sa)
  | 0x28 => ac (zeroBits w 22 1 && (m.space.val == 0 || m.space.val == 3) && memDefined m false false && w % 2 == 0) (.ald ad m)
  | 0x29 => ac (zeroBits w 22 1 && (m.space.val == 0 || m.space.val == 3) && memDefined m false true && w % 2 == 0) (.ast ad m)
  | 0x2A => ac (zeroBits w 14 9) (.aseti ad (BitVec.ofNat 14 w))
  | 0x2B => (condOf (w / 2 ^ 11 % 8)).bind fun c =>
      ac (zeroBits w 14 3 && zeroBits w 0 11) (.acmp ad (reg3 w 20) (reg3 w 17) c)
  | 0x2C => ac (zeroBits w 20 2 && zeroBits w 0 17) (.aflt sd (reg3 w 17))
  | 0x2D => ac (zeroBits w 20 3 && zeroBits w 0 17) (.amov ad (reg3 w 17))
  | 0x2E => ac (zeroBits w 0 23) (.amax0 ad)
  | 0x30 => sc (zeroBits w 0 14) (.flop ad (reg3 w 20) (reg3 w 17) (reg3 w 14))
  | 0x31 => sc (zeroBits w 0 22) (.ftos sd)
  | 0x32 => sc (zeroBits w 22 4 && rr) (.stof sa)
  | 0x38 => if zeroBits w 14 8 && !zeroBits w 0 14 then some (.brf ad (w / 2 ^ 22 % 2 == 1) (BitVec.ofNat 14 w)) else none
  | 0x39 => if zeroBits w 14 12 && !zeroBits w 0 14 then some (.bra (BitVec.ofNat 14 w)) else none
  | 0x3A => some (.loop (BitVec.ofNat 12 (w / 2 ^ 14)) (BitVec.ofNat 14 w))
  | 0x3B => if zeroBits w 0 26 then some .end_ else none
  | 0x3C => if zeroBits w 0 18 then some (.trp ⟨w / 2 ^ 21 % 32, Nat.mod_lt _ (by decide)⟩ (reg3 w 18)) else none
  | 0x3D => if zeroBits w 0 20 then some (.trg ad (reg3 w 20)) else none
  | 0x3E => if zeroBits w 18 4 && zeroBits w 0 16 then some (.lidx sd (lane2 w 16)) else none
  | _ => none

/-! ### The rules of a bundle (07 R245) -/

/-- A register file and a register in it. -/
inductive PeFile where | v | s | a | f
deriving DecidableEq, Repr

/-- Registers a V-slot operation writes. -/
def vectorWrites : PeVectorSlot → List (PeFile × Nat)
  | .op .vnop => []
  | .op (.arith _ vd _ _ _) => [(.v, vd.val)]
  | .op (.vperm vd _ _) => [(.v, vd.val)]
  | .op (.vspl vd _) => [(.v, vd.val)]
  | .op (.vins vd _ _) => [(.v, vd.val)]
  | .op (.vext sd _ _) => [(.s, sd.val)]
  | .op (.vcmp fd _ _ _ _ _) => [(.f, fd.val)]
  | .vld vd _ => [(.v, vd.val)]
  | .vst _ _ => []

/-- Registers an S-slot operation writes. -/
def slotWrites : PeSlot → List (PeFile × Nat)
  | .scalar .snop => []
  | .scalar (.int _ sd _ _) => [(.s, sd.val)]
  | .scalar (.shift _ sd _ _) => [(.s, sd.val)]
  | .scalar (.saddi sd _ _) => [(.s, sd.val)]
  | .scalar (.sori sd _ _) => [(.s, sd.val)]
  | .scalar (.slih sd _) => [(.s, sd.val)]
  | .scalar (.scmp fd _ _ _) => [(.f, fd.val)]
  | .scalar (.float _ sd _ _) => [(.s, sd.val)]
  | .scalar (.unary _ sd _) => [(.s, sd.val)]
  | .scalar (.fcmp fd _ _ _) => [(.f, fd.val)]
  | .scalar (.flop fd _ _ _) => [(.f, fd.val)]
  | .scalar (.ftos sd) => [(.s, sd.val)]
  | .scalar (.stof _) => (List.range 8).map fun i => (.f, i)
  | .lds sd _ => [(.s, sd.val)]
  | .acc (.aadd ad _ _) => [(.a, ad.val)]
  | .acc (.asub ad _ _) => [(.a, ad.val)]
  | .acc (.aadds ad _) => [(.a, ad.val)]
  | .acc (.asubs ad _) => [(.a, ad.val)]
  | .acc (.ald ad _) => [(.a, ad.val)]
  | .acc (.ast _ _) => []
  | .acc (.aseti ad _) => [(.a, ad.val)]
  | .acc (.acmp fd _ _ _) => [(.f, fd.val)]
  | .acc (.aflt sd _) => [(.s, sd.val)]
  | .acc (.amov ad _) => [(.a, ad.val)]
  | .acc (.amax0 ad) => [(.a, ad.val)]
  | .lidx sd _ => [(.s, sd.val)]
  | .sts _ _ => []
  | .brf _ _ _ => []
  | .bra _ => []
  | .loop _ _ => []
  | .end_ => []
  | .trp _ _ => []
  | .trg _ _ => []

/-- The memory operand of a V-slot operation, and whether it stores. -/
def vectorMem : PeVectorSlot → Option (PeMem × Bool)
  | .vld _ m => some (m, false)
  | .vst _ m => some (m, true)
  | _ => none

/-- The memory operand of an S-slot operation, whether it stores, and its words. -/
def slotMem : PeSlot → Option (PeMem × Bool × Nat)
  | .lds _ m => some (m, false, 1)
  | .sts _ m => some (m, true, 1)
  | .acc (.ald _ m) => some (m, false, 2)
  | .acc (.ast _ m) => some (m, true, 2)
  | _ => none

/-- The bundle a pair of words encodes, if it is a defined encoding (07 R245). -/
def decodeBundle (hi lo : Word) : Option (PeVectorSlot × PeSlot) :=
  match decodeVector hi.toNat, decodeSlot lo.toNat with
  | some v, some s =>
    let clash := (vectorWrites v).any fun x => (slotWrites s).contains x
    let same := match vectorMem v, slotMem s with
      | some (a, _), some (b, _, _) => (a.space.val == 1) == (b.space.val == 1)
      | _, _ => false
    if clash || same then none else some (v, s)
  | _, _ => none

end Sys2Proof.Machine
end

