-- ==== Sys2Proof/Machine/Protect.lean ====
section
/-!
DEFINITION. The items of the protection library (07 R257 to R274), which PE evaluates for a context in its slot.

An item's settings and state are words of its context's data area, its block. Rule R257 states what an item does and not the bundles it
is made of: the order of the words in a block, the units of the settings and the order of the binary32 operations are the model's
(DESIGN CHOICE, log entry 73). Magnitudes and settings are binary32 in primary units, times are in µs, sums are two words, low word
first.
-/

namespace Sys2Proof.Machine

/-! ### Numbers -/

def fAdd (x y : Word) : Word := peFloat .fadd x y
def fSub (x y : Word) : Word := peFloat .fsub x y
def fMul (x y : Word) : Word := peFloat .fmul x y
def fDiv (x y : Word) : Word := peFloat .fdiv x y
def fAbs (x : Word) : Word := x &&& ~~~ signMask
def fNeg (x : Word) : Word := x ^^^ signMask
def fMax (x y : Word) : Word := peFloat .fmax x y
def fGe (x y : Word) : Bool := peFloatCond .ge x y
def fLt (x y : Word) : Bool := peFloatCond .lt x y
def fOfNat (n : Nat) : Word := ofPair (fpOfInt binary32 .nearest n)

/-- |re + j im|. -/
def fHypot (re im : Word) : Word := peUnary .fsqrt (fAdd (fMul re re) (fMul im im))

/-- An accumulator as binary32 (07 R251 AFLT). -/
def accFloat (v : Int) : Word := ofPair (fpOfInt binary32 .nearest v (-32))

def f0p95 : Word := 0x3F733333#32
def f1p03 : Word := 0x3F83D70A#32
def f1p05 : Word := 0x3F866666#32
def f1p10 : Word := 0x3F8CCCCD#32
def f0p20 : Word := 0x3E4CCCCD#32
def f0p05 : Word := 0x3D4CCCCD#32
def f0p02 : Word := 0x3CA3D70A#32
def fOne : Word := 0x3F800000#32
def fTwo : Word := 0x40000000#32
def fTwenty : Word := 0x41A00000#32
/-- The square root of 2, half that of 3, a third. -/
def fRoot2 : Word := 0x3FB504F3#32
def fHalfRoot3 : Word := 0x3F5DB3D7#32
def fThird : Word := 0x3EAAAAAB#32
/-- A frame in s, frames in 1 s, the 2 ms of TH3. -/
def fFrame : Word := 0x3803126F#32
def fRate : Word := 0x46FA0000#32
def f2ms : Word := 0x3B03126F#32

/-- cos of 0° to 90° in steps of 1°. -/
def cosines : List Word :=
  [0x3F800000#32, 0x3F7FF605#32, 0x3F7FD814#32, 0x3F7FA62F#32, 0x3F7F605C#32, 0x3F7F069E#32, 0x3F7E98FD#32, 0x3F7E1781#32,
   0x3F7D8235#32, 0x3F7CD925#32, 0x3F7C1C5C#32, 0x3F7B4BEB#32, 0x3F7A67E2#32, 0x3F797051#32, 0x3F78654D#32, 0x3F7746EA#32,
   0x3F76153F#32, 0x3F74D063#32, 0x3F737871#32, 0x3F720D81#32, 0x3F708FB2#32, 0x3F6EFF20#32, 0x3F6D5BEC#32, 0x3F6BA635#32,
   0x3F69DE1D#32, 0x3F6803CA#32, 0x3F66175E#32, 0x3F641901#32, 0x3F6208DA#32, 0x3F5FE714#32, 0x3F5DB3D7#32, 0x3F5B6F51#32,
   0x3F5919AE#32, 0x3F56B31D#32, 0x3F543BCE#32, 0x3F51B3F3#32, 0x3F4F1BBD#32, 0x3F4C7360#32, 0x3F49BB13#32, 0x3F46F30A#32] ++
  [0x3F441B7D#32, 0x3F4134A6#32, 0x3F3E3EBD#32, 0x3F3B39FF#32, 0x3F3826A7#32, 0x3F3504F3#32, 0x3F31D522#32, 0x3F2E9772#32,
   0x3F2B4C25#32, 0x3F27F37C#32, 0x3F248DBB#32, 0x3F211B24#32, 0x3F1D9BFE#32, 0x3F1A108D#32, 0x3F167918#32, 0x3F12D5E8#32,
   0x3F0F2744#32, 0x3F0B6D77#32, 0x3F07A8CA#32, 0x3F03D989#32, 0x3F000000#32, 0x3EF838F7#32, 0x3EF05E94#32, 0x3EE87171#32,
   0x3EE0722F#32, 0x3ED8616C#32, 0x3ED03FC9#32, 0x3EC80DE9#32, 0x3EBFCC6F#32, 0x3EB77C01#32, 0x3EAF1D44#32, 0x3EA6B0DF#32,
   0x3E9E377A#32, 0x3E95B1BE#32, 0x3E8D2057#32, 0x3E8483EE#32, 0x3E77BA60#32, 0x3E665992#32, 0x3E54E6CD#32, 0x3E43636F#32] ++
  [0x3E31D0D4#32, 0x3E20305B#32, 0x3E0E8365#32, 0x3DF996A2#32, 0x3DD61305#32, 0x3DB27EB6#32, 0x3D8EDC7B#32, 0x3D565E3A#32,
   0x3D0EF2C6#32, 0x3C8EF859#32, 0x00000000#32]

/-- cos and sin of an angle from -90° to +90°. -/
def cosDegrees (a : Int) : Word := cosines.getD a.natAbs 0#32
def sinDegrees (a : Int) : Word :=
  let v := cosines.getD (90 - a.natAbs) 0#32
  if a < 0 then fNeg v else v

/-- A phasor. -/
structure Phasor where
  re : Word
  im : Word
deriving DecidableEq, Repr

def Phasor.sub (x y : Phasor) : Phasor := ⟨fSub x.re y.re, fSub x.im y.im⟩
def Phasor.add (x y : Phasor) : Phasor := ⟨fAdd x.re y.re, fAdd x.im y.im⟩
def Phasor.mul (x y : Phasor) : Phasor :=
  ⟨fSub (fMul x.re y.re) (fMul x.im y.im), fAdd (fMul x.re y.im) (fMul x.im y.re)⟩
def Phasor.scale (x : Phasor) (k : Word) : Phasor := ⟨fMul x.re k, fMul x.im k⟩
def Phasor.conj (x : Phasor) : Phasor := ⟨x.re, fNeg x.im⟩
/-- Rms value of a peak phasor (07 R259). -/
def Phasor.rms (x : Phasor) : Word := fDiv (fHypot x.re x.im) fRoot2

/-! ### Blocks -/

/-- Word `i` of a block. -/
def bw (b : List Word) (i : Nat) : Word := b.getD i 0#32
def bn (b : List Word) (i : Nat) : Nat := (bw b i).toNat
/-- A sum in two words. -/
def ba (b : List Word) (i : Nat) : Int := (bw b (i + 1) ++ bw b i).toInt
def bp (b : List Word) (i : Nat) : Phasor := ⟨bw b i, bw b (i + 1)⟩

/-- Words from `i` on replaced. -/
def putWords (b : List Word) : Nat → List Word → List Word
  | _, [] => b
  | i, v :: r => putWords (b.set i v) (i + 1) r

def natWord (n : Nat) : Word := BitVec.ofNat 32 n
def sumWords (v : Int) : List Word := let w := BitVec.ofInt 64 v; [w.extractLsb' 0 32, w.extractLsb' 32 32]
def Phasor.words (x : Phasor) : List Word := [x.re, x.im]

/-- Output bits in a word. -/
def outputs (bits : List Bool) : Word := natWord (bits.foldr (fun b n => b.toNat + 2 * n) 0)
def outputBit (w : Word) (i : Nat) : Bool := w.getLsbD i

/-- Worst case of an item in bundles (07 R257). -/
def libBundles : LibKind → Nat
  | .phm3 => 38 | .rms3 => 26 | .dcm => 10 | .frq => 24 | .seq => 20 | .oc3 => 58 | .hs3 => 14 | .dir3 => 44
  | .uv3 => 22 | .ov3 => 22 | .fs => 12 | .th3 => 30 | .bf => 18 | .doc => 12 | .rise => 22 | .step => 16 | .seal => 6

/-- The entry an item is part of (07 R257). -/
def libInMeas : LibKind → Bool
  | .phm3 | .rms3 | .dcm | .frq | .seq => true
  | _ => false

/-- Words of an item's settings, of its whole block. -/
def libSettingWords : LibKind → Nat
  | .phm3 => 5 | .rms3 => 4 | .dcm => 5 | .frq => 1 | .seq => 0 | .oc3 => 7 | .hs3 => 2 | .dir3 => 4
  | .uv3 => 4 | .ov3 => 4 | .fs => 3 | .th3 => 6 | .bf => 5 | .doc => 3 | .rise => 6 | .step => 3 | .seal => 1

def libBlockWords : LibKind → Nat
  | .phm3 => 28 | .rms3 => 15 | .dcm => 19 | .frq => 22 | .seq => 13 | .oc3 => 11 | .hs3 => 4 | .dir3 => 15
  | .uv3 => 6 | .ov3 => 6 | .fs => 5 | .th3 => 10 | .bf => 8 | .doc => 5 | .rise => 45 | .step => 7 | .seal => 3

/-- The word of an item's outputs: bit 0 valid of a measurement; of an element bit 0 start, pickup, alarm, retrip or the bit of SEAL,
bit 1 operate or backup; of DIR3 bits 0 to 2 its phases. -/
def libOutputWord : LibKind → Nat
  | .phm3 => 18 | .rms3 => 11 | .dcm => 14 | .frq => 20 | .seq => 0 | .oc3 => 7 | .hs3 => 2 | .dir3 => 14
  | .uv3 => 4 | .ov3 => 4 | .fs => 3 | .th3 => 6 | .bf => 5 | .doc => 3 | .rise => 6 | .step => 3 | .seal => 1

/-- What an item sees of its evaluation: the frame, FIXED, word 3 [23:16], RESUME (06 R230). -/
structure LibFrame where
  frame : Nat
  fixed : Nat
  gap : Nat
  resume : Bool
deriving DecidableEq, Repr

/-- The frames whose terms a primitive adds in a frame (07 R258): the interpolated ones, oldest first, and the newest. -/
def LibFrame.newest (f : LibFrame) : List Nat := (List.range (f.fixed + 1)).map fun i => f.frame - f.fixed + i

/-! ### Sliding sums (07 R258) -/

/-- A sum takes the term of a frame and gives back that of the frame that leaves, if the window is full. -/
def slideSum (full : Bool) (sum : Int) (x old : Word) : Int :=
  let sum := peSat (sum + peQ x)
  if full then peSat (sum - peQ old) else sum

/-- The terms of a frame in the sums from word `at_` on, and the fill count in word `fill`; `terms`: newest and leaving. -/
def slideBlock (window fill at_ : Nat) (b : List Word) (terms : List (Word × Word)) : List Word :=
  let full := decide (window ≤ bn b fill)
  let b := (terms.foldl (fun (acc : List Word × Nat) t =>
    (putWords acc.1 acc.2 (sumWords (slideSum full (ba acc.1 acc.2) t.1 t.2)), acc.2 + 2)) (b, at_)).1
  if full then b else b.set fill (natWord (bn b fill + 1))

/-- After a gap of 3 or more frames the sums and the fill count begin again at 0. -/
def clearSums (f : LibFrame) (fill sums : Nat) (b : List Word) : List Word :=
  if 3 ≤ f.gap then putWords b fill (List.replicate (1 + 2 * sums) 0#32) else b

/-- Where a PHM3 has its coefficients, in words of the data area, and how many (07 R259). -/
def phm3Table (x : LibItem) : Option (Nat × Nat) :=
  match x.kind with
  | .phm3 => some (bn x.settings 4, bn x.settings 0)
  | _ => none

/-- PHM3 (07 R259). Block: 0 N, 1 to 3 scales, 4 coefficient table; 5 fill, 6 to 17 sums; 18 valid, 19 to 24 phasors, 25 to 27 rms.
`extra`, per frame: cos and sin of the frame, then of each channel the newest and the leaving sample. -/
def phm3Step (f : LibFrame) (b : List Word) (extra : List (List Word)) : List Word :=
  let n := bn b 0
  let b := extra.foldl (fun (b : List Word) e =>
    let cos := bw e 0
    let nsin := fNeg (bw e 1)
    slideBlock n 5 6 b ([0, 1, 2].flatMap fun c =>
      [(fMul (bw e (2 + 2 * c)) cos, fMul (bw e (3 + 2 * c)) cos), (fMul (bw e (2 + 2 * c)) nsin, fMul (bw e (3 + 2 * c)) nsin)]))
    (clearSums f 5 6 b)
  let x := [0, 1, 2].map fun c =>
    let k := fMul (bw b (1 + c)) (fDiv fTwo (fOfNat n))
    (⟨accFloat (ba b (6 + 4 * c)), accFloat (ba b (8 + 4 * c))⟩ : Phasor).scale k
  putWords b 18 (outputs [decide (n ≤ bn b 5)] :: (x.flatMap Phasor.words ++ x.map Phasor.rms))

/-- RMS3 (07 R260). Block: 0 N, 1 to 3 scales; 4 fill, 5 to 10 sums; 11 valid, 12 to 14 rms. -/
def rms3Step (f : LibFrame) (b : List Word) (extra : List (List Word)) : List Word :=
  let n := bn b 0
  let b := extra.foldl (fun (b : List Word) e =>
    slideBlock n 4 5 b ([0, 1, 2].map fun c =>
      (fMul (bw e (2 * c)) (bw e (2 * c)), fMul (bw e (2 * c + 1)) (bw e (2 * c + 1))))) (clearSums f 4 3 b)
  let rms := [0, 1, 2].map fun c =>
    fMul (peUnary .fsqrt (fDiv (accFloat (ba b (5 + 2 * c))) (fOfNat n))) (fAbs (bw b (1 + c)))
  putWords b 11 (outputs [decide (n ≤ bn b 4)] :: rms)

/-- DCM (07 R260), of `channels` channels. Block: 0 W, 1 to 4 scales; 5 fill, 6 to 13 sums; 14 valid, 15 to 18 means. -/
def dcmStep (channels : Nat) (f : LibFrame) (b : List Word) (extra : List (List Word)) : List Word :=
  let w := bn b 0
  let b := extra.foldl (fun (b : List Word) e =>
    slideBlock w 5 6 b ((List.range channels).map fun c => (bw e (2 * c), bw e (2 * c + 1)))) (clearSums f 5 4 b)
  let means := (List.range 4).map fun c =>
    if c < channels then fMul (fDiv (accFloat (ba b (6 + 2 * c))) (fOfNat w)) (bw b (1 + c)) else 0#32
  putWords b 14 (outputs [decide (w ≤ bn b 5)] :: means)

/-- A positive-going zero crossing between two samples of FRQ: its place after the first, linear between them (07 R260). -/
def crossing (a b : Word) : Option Word :=
  if fLt a 0#32 && fGe b 0#32 then some (fDiv a (fSub a b)) else none

/-- FRQ (07 R260). Block: 0 cycles; 1 crossings held, 2 to 10 the frames before the last 9, newest first, 11 to 19 their places within;
20 valid, 21 frequency. `extra`, per frame: the sample before and the frame's. `phm`: the block of its channel's PHM3. -/
def frqStep (lane : Nat) (ratedU : Word) (f : LibFrame) (b phm : List Word) (extra : List (List Word)) : List Word :=
  let cycles := bn b 0
  let b := if 3 ≤ f.gap then b.set 1 0#32 else b
  let step := fun (b : List Word) (e : Nat × List Word) =>
    match crossing (bw e.2 0) (bw e.2 1) with
    | none => b
    | some part =>
      let frames := natWord (e.1 - 1) :: (b.drop 2).take 8
      let parts := part :: (b.drop 11).take 8
      let held := min 9 (bn b 1 + 1)
      let b := putWords b 1 (natWord held :: (frames ++ parts))
      if held ≤ cycles then b
      else
        let whole := fOfNat (bw b 2 - bw b (2 + cycles)).toNat
        b.set 21 (fDiv (fMul (fOfNat cycles) fRate) (fAdd whole (fSub (bw b 11) (bw b (11 + cycles)))))
  let b := (f.newest.zip extra).foldl step b
  let seen := outputBit (bw phm 18) 0 && fGe (bw phm (25 + lane)) (fMul f0p20 ratedU)
  b.set 20 (outputs [seen && decide (cycles < bn b 1)])

/-- Zero, positive and negative sequence of three phasors; the manual names SEQ in R257 only, the components are those of general use
(PRESUMED, log entry 73). -/
def sequences (x : List Phasor) : List Phasor :=
  let a : Phasor := ⟨fNeg 0x3F000000#32, fHalfRoot3⟩
  let p := fun i => x.getD i ⟨0#32, 0#32⟩
  [((p 0).add (p 1)).add (p 2), ((p 0).add (a.mul (p 1))).add (a.conj.mul (p 2)),
   ((p 0).add (a.conj.mul (p 1))).add (a.mul (p 2))].map fun z => z.scale fThird

/-- The phasors of a PHM3 block. -/
def phasors (b : List Word) : List Phasor := [bp b 19, bp b 21, bp b 23]

/-- SEQ (07 R257). Block: 0 valid, 1 to 12 the components of both inputs. -/
def seqStep (b p q : List Word) : List Word :=
  putWords b 0 (outputs [outputBit (bw p 18) 0 && outputBit (bw q 18) 0] ::
    (sequences (phasors p) ++ sequences (phasors q)).flatMap Phasor.words)

/-! ### Elements (07 R261) -/

/-- Frames of a delay in µs: ⌈t ÷ 31.25 µs⌉. -/
def delayFrames (us : Nat) : Nat := (4 * us + 124) / 125

/-- Pickup, dropout and timer of an element: whether it is picked up, the frames since. The frame of pickup counts 0, so an element
without delay operates in it (R265); DEDUCED for the others, log entry 73. -/
structure Level where
  picked : Bool
  count : Nat
deriving DecidableEq, Repr

/-- A frame of an element (07 R261): not valid drops out. -/
def Level.step (l : Level) (valid up drop : Bool) : Level :=
  if !valid then ⟨false, 0⟩
  else if l.picked then if drop then ⟨false, 0⟩ else ⟨true, l.count + 1⟩
  else ⟨up, 0⟩

/-- A frame of the element whose outputs and count are words `i` and `i + 1` of its block. -/
def levelStep (b : List Word) (i : Nat) (valid up drop : Bool) (delay : Nat) : List Word :=
  let l := (⟨outputBit (bw b i) 0, bn b (i + 1)⟩ : Level).step valid up drop
  putWords b i [outputs [l.picked, l.picked && decide (delay ≤ l.count)], natWord (min l.count 0xFFFFFFFF)]

/-- Overcurrent or overvoltage: at or above the setting, below 0.95 × setting. -/
def overStep (b : List Word) (i : Nat) (valid : Bool) (v setting : Word) (delay : Nat) : List Word :=
  levelStep b i valid (fGe v setting) (fLt v (fMul f0p95 setting)) delay

/-- The largest phase magnitude of a PHM3 block among the phases of a mask; 0 without one. -/
def largest (phm : List Word) (mask : Word) : Word :=
  [0, 1, 2].foldl (fun m i => if outputBit mask i then fMax m (bw phm (25 + i)) else m) 0#32

/-- The phases an overcurrent element sees: all, or those a DIR3 leaves it (07 R266). -/
def seenPhases (inputs : List (List Word)) : Word :=
  match inputs[1]? with
  | some dir => bw dir 14
  | none => 7#32

/-! ### OC3 (07 R262 to R264) -/

/-- A curve of R262: k or A, α or p (1, 2 or 0.02), B, tr. -/
structure Curve where
  ieee : Bool
  k : Word
  alpha : Nat
  b : Word := 0#32
  tr : Word := 0#32
deriving DecidableEq, Repr

/-- The table of R262; α is 0 for 0.02. -/
def curveOf : Nat → Option Curve
  | 1 => some { ieee := false, k := 0x3E0F5C29#32, alpha := 0 }
  | 2 => some { ieee := false, k := 0x41580000#32, alpha := 1 }
  | 3 => some { ieee := false, k := 0x42A00000#32, alpha := 2 }
  | 4 => some { ieee := false, k := 0x42F00000#32, alpha := 1 }
  | 5 => some { ieee := true, k := 0x3D52F1AA#32, alpha := 0, b := 0x3DE978D5#32, tr := 0x409B3333#32 }
  | 6 => some { ieee := true, k := 0x419CE148#32, alpha := 2, b := 0x3EFB645A#32, tr := 0x41ACCCCD#32 }
  | 7 => some { ieee := true, k := 0x41E1999A#32, alpha := 2, b := 0x3DF93DD9#32, tr := 0x41E8CCCD#32 }
  | _ => none

/-- M^α. -/
def curvePower (alpha : Nat) (m : Word) : Word :=
  match alpha with
  | 0 => peExp2 (fMul f0p02 (peLog2 m))
  | 1 => m
  | _ => fMul m m

/-- t(M) of a curve with its time multiplier (07 R262). -/
def Curve.time (c : Curve) (mult m : Word) : Word :=
  let d := fDiv c.k (fSub (curvePower c.alpha m) fOne)
  fMul mult (if c.ieee then fAdd d c.b else d)

/-- What a started OC3 adds in a frame at multiple `m`: q(31.25 µs ÷ t_eff), M clamped to 1.10 to 20 (07 R263). -/
def Curve.increment (c : Curve) (mult m : Word) (tmin : Nat) : Int :=
  let m := if fLt m f1p10 then f1p10 else if fLt fTwenty m then fTwenty else m
  let least := fDiv (fOfNat tmin) (fOfNat 1000000)
  peQ (fDiv fFrame (fMax (c.time mult m) least))

/-- What RST 3 takes away in a frame at a multiple below 1.0 (07 R264). -/
def Curve.decrement (c : Curve) (mult m : Word) : Int :=
  peQ (fDiv fFrame (fDiv (fMul mult c.tr) (fSub fOne (fMul m m))))

/-- The accumulator of a dropped-out OC3 (07 R264); `since`: frames since dropout, 0 at dropout. Without a valid measurement M is
unknown and RST 3 holds (DESIGN CHOICE, log entry 73). -/
def resetSum (c : Curve) (rst tr : Nat) (mult m : Word) (valid : Bool) (since : Nat) (acc : Int) : Int :=
  match rst with
  | 0 => 0
  | 1 => if delayFrames tr ≤ since then 0 else acc
  | 2 => max 0 (acc - peQ (fDiv fFrame (fDiv (fOfNat tr) (fOfNat 1000000))))
  | _ => if valid && c.ieee && fLt m fOne then max 0 (acc - c.decrement mult m) else acc

/-- OC3 (07 R262 to R264). Block: 0 Is, 1 CURVE, 2 TMS or TD, 3 tmin, 4 tDT, 5 RST, 6 tR; 7 outputs, 8 count, 9 and 10 accumulator.
The frame of start adds nothing, as the frame of pickup of the other elements counts 0 (DEDUCED from the example of R265, log entry
73). -/
def oc3Step (b : List Word) (inputs : List (List Word)) : List Word :=
  let phm := inputs.headD []
  let valid := outputBit (bw phm 18) 0
  let m := fDiv (largest phm (seenPhases inputs)) (bw b 0)
  match curveOf (bn b 1) with
  | none => overStep b 7 valid m fOne (delayFrames (bn b 4))
  | some c =>
    let was := outputBit (bw b 7) 0
    let acc := ba b 9
    if was && valid && !fLt m f1p05 then
      let acc := peSat (acc + c.increment (bw b 2) m (bn b 3))
      putWords b 7 (outputs [true, decide (2 ^ 32 ≤ acc)] :: 0#32 :: sumWords acc)
    else if !was && valid && fGe m f1p10 then putWords b 7 (outputs [true, decide (2 ^ 32 ≤ acc)] :: 0#32 :: sumWords acc)
    else
      let since := if was then 0 else min (bn b 8 + 1) 0xFFFFFFFF
      putWords b 7 (0#32 :: natWord since :: sumWords (resetSum c (bn b 5) (bn b 6) (bw b 2) m valid since acc))

/-- HS3 (07 R265). Block: 0 setting, 1 tDT; 2 outputs, 3 count. -/
def hs3Step (b : List Word) (inputs : List (List Word)) : List Word :=
  let phm := inputs.headD []
  overStep b 2 (outputBit (bw phm 18) 0) (largest phm (seenPhases inputs)) (bw b 0) (delayFrames (bn b 1))

/-! ### DIR3 (07 R266) -/

/-- Direction of a current against its polarising voltage, RCA apart: forward within ±88°, reverse within ±88° of the opposite. The
manual states no sector for reverse: DESIGN CHOICE, log entry 73. -/
def direction (i u : Phasor) (rca : Int) : Bool × Bool :=
  let z := (i.mul u.conj).mul ⟨cosDegrees rca, fNeg (sinDegrees rca)⟩
  let edge := fMul (cosDegrees 88) (fHypot z.re z.im)
  (fGe z.re edge, fGe (fNeg z.re) edge)

/-- DIR3 (07 R266). Block: 0 RCA in degrees, 1 NOPOL, 2 DIR, 3 frames of a cycle; 4 to 6 frames left of each memory voltage, 7 to 12
the memory voltages as phasors, 13 unused; 14 phases seen. PHM3's phasors turn with nominal frequency (R259), so a voltage rotated at
nominal frequency is its phasor as it was. -/
def dir3Step (ratedI ratedU : Word) (b cur vol : List Word) : List Word :=
  let rca := (bw b 0).toInt
  let u := phasors vol
  let pol := [1, 2, 0].map fun i => (u.getD i ⟨0#32, 0#32⟩).sub (u.getD ((i + 1) % 3) ⟨0#32, 0#32⟩)
  let valid := outputBit (bw cur 18) 0 && outputBit (bw vol 18) 0
  let step := fun (acc : List Word × List Bool) (k : Nat) =>
    let (b, out) := acc
    let v := pol.getD k ⟨0#32, 0#32⟩
    let good := valid && !fLt v.rms (fMul f0p02 ratedU)
    let left := if good then 2 * bn b 3 else bn b (4 + k) - 1
    let held := good || decide (0 < bn b (4 + k))
    let b := b.set (4 + k) (natWord left)
    let b := if good then putWords b (7 + 2 * k) v.words else b
    let i := bp cur (19 + 2 * k)
    let (fwd, rev) := if held then direction i (bp b (7 + 2 * k)) rca else (bn b 1 == 1, false)
    let enough := valid && fGe (bw cur (25 + k)) (fMul f0p05 ratedI)
    (b, out ++ [enough && (if bn b 2 = 1 then rev else fwd)])
  let (b, out) := [0, 1, 2].foldl step (b, [])
  b.set 14 (outputs out)

/-! ### Voltage, frequency, thermal (07 R267 to R269) -/

/-- The three magnitudes of a voltage element: phase to neutral, or phase to phase. -/
def voltages (phaseToPhase : Bool) (phm : List Word) : List Word :=
  if phaseToPhase then
    let u := phasors phm
    [0, 1, 2].map fun i => ((u.getD i ⟨0#32, 0#32⟩).sub (u.getD ((i + 1) % 3) ⟨0#32, 0#32⟩)).rms
  else [bw phm 25, bw phm 26, bw phm 27]

/-- UV3 (07 R267). Block: 0 setting, 1 delay, 2 phase to phase, 3 DEAD; 4 outputs, 5 count. -/
def uv3Step (ratedU : Word) (b phm : List Word) : List Word :=
  let v := voltages (bn b 2 == 1) phm
  let dead := bn b 3 == 1 && v.all fun x => fLt x (fMul f0p05 ratedU)
  levelStep b 4 (outputBit (bw phm 18) 0) (!dead && v.any fun x => fGe (bw b 0) x)
    (v.all fun x => fLt (fMul f1p03 (bw b 0)) x) (delayFrames (bn b 1))

/-- OV3 (07 R267). Block as UV3's. -/
def ov3Step (b phm : List Word) : List Word :=
  let v := (voltages (bn b 2 == 1) phm).foldl fMax 0#32
  overStep b 4 (outputBit (bw phm 18) 0) v (bw b 0) (delayFrames (bn b 1))

/-- An FS stage (07 R268). Block: 0 setting, 1 over-frequency, 2 delay; 3 outputs, 4 count. -/
def fsStep (b frq : List Word) : List Word :=
  let f := bw frq 21
  let set := bw b 0
  let (up, drop) := if bn b 1 = 1 then (fGe f set, fLt f (fSub set f0p02)) else (fGe set f, fLt (fAdd set f0p02) f)
  levelStep b 3 (outputBit (bw frq 20) 0) up drop (delayFrames (bn b 2))

/-- TH3 (07 R269). Block: 0 τ in s, 1 kθ, 2 Ib, 3 θA, 4 θR, 5 θinit; 6 outputs, 7 frames, 8 and 9 θ. -/
def th3Step (b rms : List Word) : List Word :=
  let valid := outputBit (bw rms 11) 0
  let frames := bn b 7 + 1
  let i := fMax (fMax (bw rms 12) (bw rms 13)) (bw rms 14)
  let r := fDiv i (fMul (bw b 1) (bw b 2))
  let θ := ba b 8
  let update := decide (64 ≤ frames)
  let θ := if update && valid then peSat (θ + peQ (fMul (fDiv f2ms (bw b 0)) (fSub (fMul r r) (accFloat θ)))) else θ
  let operate := valid && (decide (2 ^ 32 ≤ θ) || (outputBit (bw b 6) 1 && !decide (θ < peQ (bw b 4))))
  putWords b 6 (outputs [valid && decide (peQ (bw b 3) ≤ θ), operate] :: natWord (if update then 0 else frames) :: sumWords θ)

/-! ### Breaker failure and DC elements (07 R270 to R273) -/

/-- BF (07 R270). Block: 0 IBF, 1 t1, 2 t2, 3 frames of a cycle, 4 scale; 5 outputs, 6 count, 7 frames left of the current check.
`samples`: of the selected channels; `dcm`: the block of the DCM on DC. While initiation has ended and current flows, it times no
more and its outputs stay (DEDUCED, log entry 73). -/
def bfStep (lane : Nat) (initiated : Bool) (b samples : List Word) (dcm : Option (List Word)) : List Word :=
  let left := match dcm with
    | some _ => 0
    | none =>
      let high := samples.any fun x => fLt (fMul fRoot2 (bw b 0)) (fMul (fAbs x) (fAbs (bw b 4)))
      if high then 6 * bn b 3 / 10 + 1 else bn b 7 - 1
  let present := match dcm with
    | some d => outputBit (bw d 14) 0 && fGe (fAbs (bw d (15 + lane))) (bw b 0)
    | none => decide (0 < left)
  let running := decide (0 < bn b 6)
  let count := if !present then 0 else if initiated then min (bn b 6 + 1) 0xFFFFFFFF else if running then bn b 6 else 0
  let reached := fun (t : Nat) => decide (0 < count) && decide (delayFrames t < count)
  putWords b 5 [outputs [reached (bn b 1), reached (bn b 2)], natWord count, natWord left]

/-- DOC (07 R271). Block: 0 setting, 1 delay, 2 absolute; 3 outputs, 4 count. -/
def docStep (lane : Nat) (b dcm : List Word) : List Word :=
  let v := bw dcm (15 + lane)
  overStep b 3 (outputBit (bw dcm 14) 0) (if bn b 2 = 1 then fAbs v else v) (bw b 0) (delayFrames (bn b 1))

/-- RISE (07 R272). Block: 0 Dstart, 1 Dreset, 2 Trst, 3 ΔItrip, 4 tdel, 5 Tmax; 6 outputs (started, operated), 7 I0, 8 frames for
which ΔI has held, 9 frames of s below Dreset, 10 frames since start, 11 place in the ring, 12 values in it, 13 to 44 the ring. -/
def riseStep (lane : Nat) (b dcm : List Word) : List Word :=
  if !outputBit (bw dcm 14) 0 then putWords b 6 (List.replicate 7 0#32)
  else
    let i := bw dcm (15 + lane)
    let place := bn b 11 % 32
    let past := bw b (13 + place)
    let full := decide (32 ≤ bn b 12)
    let s := fSub i past
    let b := putWords (b.set (13 + place) i) 11 [natWord ((place + 1) % 32), natWord (min 32 (bn b 12 + 1))]
    if outputBit (bw b 6) 0 then
      let low := if full && fLt s (bw b 1) then bn b 9 + 1 else 0
      let elapsed := bn b 10 + 1
      let held := if fGe (fSub i (bw b 7)) (bw b 3) then bn b 8 + 1 else 0
      let operated := outputBit (bw b 6) 1 || (decide (0 < held) && decide (delayFrames (bn b 4) < held))
      if delayFrames (bn b 2) < low ∨ (!operated ∧ delayFrames (bn b 5) ≤ elapsed) then putWords b 6 (List.replicate 5 0#32)
      else putWords b 6 [outputs [true, operated], bw b 7, natWord held, natWord low, natWord elapsed]
    else if full && fGe s (bw b 0) then
      let held := (fGe (fSub i past) (bw b 3)).toNat
      putWords b 6 [outputs [true, decide (0 < held) && bn b 4 == 0], past, natWord held, 0#32, 0#32]
    else b

/-- STEP (07 R273). Block: 0 Sset, 1 tdel, 2 Wst; 3 outputs, 4 count, 5 place in the ring, 6 values in it; its ring of Wst words follows.
`past`: the ring's word at its place, i_f(n - Wst) once the ring is full. -/
def stepStep (lane : Nat) (b dcm : List Word) (past : Word) : List Word :=
  let valid := outputBit (bw dcm 14) 0
  let w := bn b 2
  let full := decide (w ≤ bn b 6)
  let b := overStep b 3 (valid && full) (fSub (bw dcm (15 + lane)) past) (bw b 0) (delayFrames (bn b 1))
  if valid then putWords b 5 [natWord ((bn b 5 + 1) % w), natWord (min w (bn b 6 + 1))] else putWords b 5 [0#32, 0#32]

/-- SEAL (07 R274). Block: 0 tP; 1 the bit, 2 frames since it became 1. -/
def sealStep (b : List Word) (selected : Bool) : List Word :=
  if outputBit (bw b 1) 0 then
    let count := bn b 2 + 1
    if !selected ∧ delayFrames (bn b 0) ≤ count then putWords b 1 [0#32, 0#32] else putWords b 1 [1#32, natWord (min count 0xFFFFFFFF)]
  else putWords b 1 [outputs [selected], 0#32]

/-! ### Settings (07 R262 to R274) -/

/-- A binary32 setting within a range that is given in multiples of `unit`, in 10^-6. -/
def within (v unit : Word) (lo hi : Nat) : Bool :=
  let micro := fun n => fMul unit (fDiv (fOfNat n) (fOfNat 1000000))
  fGe v (micro lo) && fGe (micro hi) v

def timeAtMost (w : Word) (us : Nat) : Bool := decide (w.toNat ≤ us)

/-- The settings of an item lie in the ranges of its rule: Durad links no others (07 R262 to R274). -/
def libSettingsOk (x : LibItem) : Bool :=
  let b := x.settings
  let flag := fun i => decide (bn b i ≤ 1)
  let cycle := fun i => decide (16 ≤ bn b i) && decide (bn b i ≤ 2047)
  decide (b.length = libSettingWords x.kind) && match x.kind with
  | .phm3 | .rms3 => cycle 0
  | .dcm => [8, 16, 32, 64].contains (bn b 0)
  | .frq => decide (1 ≤ bn b 0) && decide (bn b 0 ≤ 8)
  | .seq => true
  | .oc3 =>
    within (bw b 0) x.ratedI 50000 40000000 && decide (bn b 1 ≤ 7)
      && (bn b 1 == 0 || within (bw b 2) fOne (if bn b 1 ≤ 4 then 50000 else 500000) (if bn b 1 ≤ 4 then 1000000 else 15000000))
      && timeAtMost (bw b 3) 10000000 && timeAtMost (bw b 4) 300000000 && decide (bn b 5 ≤ if 5 ≤ bn b 1 then 3 else 2)
      && decide (10000 ≤ bn b 6) && timeAtMost (bw b 6) 60000000
  | .hs3 => within (bw b 0) x.ratedI 100000 40000000 && timeAtMost (bw b 1) 10000000
  | .dir3 => decide ((bw b 0).toInt.natAbs ≤ 90) && flag 1 && flag 2 && cycle 3
  | .uv3 | .ov3 => within (bw b 0) x.ratedU 50000 1500000 && timeAtMost (bw b 1) 60000000 && flag 2 && flag 3
  | .fs => (within (bw b 0) fOne 40000000 65000000 || within (bw b 0) fOne 14000000 20000000) && flag 1 && timeAtMost (bw b 2) 60000000
  | .th3 => within (bw b 0) fOne 60000000 36000000000 && within (bw b 3) fOne 500000 1000000 && within (bw b 4) fOne 500000 990000
  | .bf => within (bw b 0) x.ratedI 50000 2000000 && timeAtMost (bw b 1) 1000000 && timeAtMost (bw b 2) 1000000
  | .doc => within (bw b 0) x.ratedI 50000 20000000 && timeAtMost (bw b 1) 10000000 && flag 2
  | .rise =>
    within (bw b 0) fOne 1000000 500000000 && fGe (bw b 1) 0#32 && fGe (bw b 0) (bw b 1)
      && decide (1000 ≤ bn b 2) && timeAtMost (bw b 2) 50000 && within (bw b 3) fOne 50000000 10000000000
      && timeAtMost (bw b 4) 100000 && decide (5000 ≤ bn b 5) && timeAtMost (bw b 5) 500000
  | .step => within (bw b 0) fOne 50000000 10000000000 && timeAtMost (bw b 1) 100000 && decide (32 ≤ bn b 2) && decide (bn b 2 ≤ 2047)
  | .seal => timeAtMost (bw b 0) 500000

/-- The kinds of items whose outputs an item uses, in order; DIR3 after PHM3 where an overcurrent element is directional (07 R260,
R262, R265 to R273). -/
def libInputs (x : LibItem) (kinds : List LibKind) : Bool :=
  match x.kind with
  | .phm3 | .rms3 | .dcm | .seal => kinds.isEmpty
  | .frq | .uv3 | .ov3 => kinds == [.phm3]
  | .seq | .dir3 => kinds == [.phm3, .phm3]
  | .oc3 | .hs3 => kinds == [.phm3] || kinds == [.phm3, .dir3]
  | .fs => kinds == [.frq]
  | .th3 => kinds == [.rms3]
  | .bf => if x.channels.isEmpty then kinds == [.dcm] else kinds.isEmpty
  | .doc | .rise | .step => kinds == [.dcm]

/-- The channels of an item. -/
def libChannels (x : LibItem) : Bool :=
  match x.kind with
  | .phm3 | .rms3 => decide (x.channels.length = 3)
  | .dcm => decide (1 ≤ x.channels.length) && decide (x.channels.length ≤ 4)
  | .frq => decide (x.channels.length = 1)
  | .bf => true
  | _ => x.channels.isEmpty

/-- The items of a context as Durad links them: settings in range, blocks and coefficient tables of their own behind the frame status (two
PHM3 of one window may share a table), inputs of the kinds an item takes, i_f of RISE, STEP and BF over 8 frames (07 R257, R259, R270,
R272, R273). -/
def schemeOk (l : List LibItem) : Bool :=
  let item := fun (base : Nat) => l.find? fun x => x.base == base
  let words := fun (x : LibItem) => libBlockWords x.kind + (if x.kind = .step then bn x.settings 2 else 0)
  l.all (fun x =>
    let ins := x.inputs.filterMap item
    libSettingsOk x && libChannels x && decide (4 ≤ x.base) && decide (ins.length = x.inputs.length) &&
      libInputs x (ins.map (·.kind)) && x.select.all (fun e => (item e.1).isSome) &&
      (!([.rise, .step, .bf].contains x.kind) || ins.all fun i => bn i.settings 0 == 8)) &&
    decide (l.Pairwise fun x y => x.base + words x ≤ y.base ∨ y.base + words y ≤ x.base) &&
    (let tables := l.filterMap phm3Table
     tables.all (fun t => decide (4 ≤ t.1) && l.all fun x => decide (x.base + words x ≤ t.1 ∨ t.1 + 2 * t.2 ≤ x.base)) &&
     decide (tables.Pairwise fun t u => t = u ∨ t.1 + 2 * t.2 ≤ u.1 ∨ u.1 + 2 * u.2 ≤ t.1))

end Sys2Proof.Machine
end

