-- ==== Sys2Proof/Machine/PeOps.lean ====
section
/-!
DEFINITION. Operations of PE (06 R216 to R238): its memories, the contexts and their states, the trip matrix, the
evaluation of a context bundle by bundle, the slot.
-/

namespace Sys2Proof.Machine

open Reg

/-! ### Memories (06 R216 to R218) -/

/-- PE reads a word: none where it is uncorrectable. A correction costs 2 PX cycles (06 R216). -/
def State.peRead (s : State) (off : Nat) : State × Option Word :=
  match peDecode (s.peMem off) with
  | none => (s, none)
  | some (d, none) => (s, some d)
  | some (d, some syn) => ((s.peCorrect off d syn).withPe fun p => { p with cycles := p.cycles + 2 }, some d)

/-- Byte offsets of the areas (06 R217). -/
def dataAt (unit word : Nat) : Nat := 0x40000 + unit * 256 + word * 4
def publishedAt (cx word : Nat) : Nat := 0x78000 + cx * 0x100 + word * 4
def backAt (cx word : Nat) : Nat := 0x7C000 + cx * 0x100 + word * 4
def bundleAt (b : Nat) : Nat := 8 * b

/-! ### Contexts -/

def State.cxs (s : State) (c : Nat) : ContextState := CMap.lookup (fun _ => {}) s.pe.contexts c
def State.setCxs (s : State) (c : Nat) (x : ContextState) : State :=
  s.withPe fun p => { p with contexts := CMap.put (fun _ => {}) p.contexts c x }

def State.cxState (s : State) (c : Nat) : Nat := s.get (PE_CXnSTAT_STATE c)
def State.cxEnabled (s : State) (c : Nat) : Bool := s.bit (PE_CXnCTL_EN c)

/-- States of 06 R231. -/
def cxOff : Nat := 0
def cxInit : Nat := 1
def cxNormal : Nat := 2
def cxHold : Nat := 3
def cxFallback : Nat := 4
def cxRefill : Nat := 5
def cxStopped : Nat := 6

/-- Words in a context's data area (06 R219). -/
def State.dataWords (s : State) (c : Nat) : Nat := (s.get (PE_CXnDATA_LIMIT c) + 1 - s.get (PE_CXnDATA_BASE c)) * 64

/-- Offset of a word of a context's data area. -/
def State.dataWordAt (s : State) (c i : Nat) : Nat := dataAt (s.get (PE_CXnDATA_BASE c)) i

/-- The groups of the channels in a mask, as bits. -/
def groupsOf (mask : Nat) : Nat :=
  (List.range 24).foldl (fun w ch => if bitOf mask ch then Nat.lor w (2 ^ (ch / 6)) else w) 0

/-- The frame is missing for a context (06 "Missing and late frames"). -/
def State.cxMissing (s : State) (c : Nat) : Bool := Nat.land (groupsOf (s.get (PE_CXnCHM_CHMASK c))) s.pe.slotMissing != 0

/-- The trip matrix follows the contributions (06 R236); a change reaches Girth. -/
def State.showFlags (s : State) : State :=
  let f := (List.range 64).foldl (fun w c => Nat.lor w (Nat.land (s.cxs c).contrib.toNat (s.get (PE_CXnFLM_FLAGS c)))) 0
  if f = s.get PE_FLAGS_FLAG then s else (s.set PE_FLAGS_FLAG f).girthFlags

def State.setContrib (s : State) (c : Nat) (w : Word) : State := (s.setCxs c { s.cxs c with contrib := w }).showFlags

/-- The contribution on entry to FALLBACK, REFILL or STOPPED (06 R233); FREEZE leaves it as it stood at the end of the last frame in which
LOGIC ran: before this frame, where the context is being evaluated. -/
def State.fallbackFlags (s : State) (c : Nat) : State :=
  match s.get (PE_CXnCTL_FB c) with
  | 0 => s.setContrib c 0#32
  | 1 => s.setContrib c (s.rd (PE_CXnFBF c))
  | _ =>
    match s.pe.run with
    | some r => if r.cx = c then s.setContrib c r.contribBefore else s
    | none => s

def State.setCxState (s : State) (c st : Nat) : State := s.set (PE_CXnSTAT_STATE c) st

/-- A frame without evaluation for a context, in state `st` before it (06 R231, R232): missing, cut or skipped. -/
def State.noteMissing (s : State) (c n st : Nat) : State :=
  let x := s.cxs c
  let m := x.missing + 1
  let s := (s.setCxs c { x with missing := m, good := 0 }).set (PE_CXnSTAT_RUN c) (min m 255)
  let fallback (s : State) : State :=
    (((s.setCxState c cxFallback).inc (PE_CXnCNT_FBS c)).fallbackFlags c).emit 0x5003 [c, n, s.get (PE_CXnCTL_FB c)]
  if st = cxNormal then ((s.setCxState c cxHold).inc (PE_CXnCNT_HOLDS c)).emit 0x5002 [c, n]
  else if st = cxHold then
    if 3 ≤ m then fallback s else (s.setCxState c cxHold).inc (PE_CXnCNT_HOLDS c)
  else if st = cxRefill then fallback s
  else s.setCxState c st

/-- The state a good frame leads to before its evaluation (06 R231). -/
def State.goodState (s : State) (c : Nat) : Nat × Nat :=
  let x := s.cxs c
  let st := s.cxState c
  let refill := s.get (PE_CXnCTL_REFILL c)
  if st = cxHold then (cxNormal, 0)
  else if st = cxFallback then (if refill ≤ 1 then cxNormal else cxRefill, 1)
  else if st = cxInit ∨ st = cxRefill then (if refill ≤ x.good + 1 then cxNormal else st, x.good + 1)
  else (st, 0)

/-- The context stops on an uncorrectable word (06 R218). -/
def State.stopContext (s : State) (c off : Nat) : State :=
  let s := ((s.inc PE_UECNT_COUNT).setBit PE_STAT_UE true).setCxState c cxStopped
  (s.fallbackFlags c).emit 0x500B [0x50000000 + off, c]

/-- LOGIC runs with RESUME in the first frame after INIT, FALLBACK or REFILL (06 R230; 07 R243). -/
def resumes (before : Nat) : Bool := before == cxInit || before == cxFallback || before == cxRefill

/-- History slots replaced by interpolation at this frame, of the groups of a context (06 R230, R234). -/
def State.fixedSlots (s : State) (c : Nat) : Nat :=
  let g := groupsOf (s.get (PE_CXnCHM_CHMASK c))
  (List.range 4).foldl (fun m i => if bitOf g i then max m (s.pe.slotGaps.getD i 0) else m) 0

/-- The frame status words (06 R230). -/
def State.writeStatus (s : State) (c n before : Nat) (logic : Bool) (runBefore : Nat) : State :=
  let mask := s.get (PE_CXnCHM_CHMASK c)
  let lostCh := (List.range 24).foldl (fun w ch =>
    if bitOf mask ch && bitOf s.pe.slotMissing (ch / 6) && s.channelOn ch then w + 2 ^ ch else w) 0
  let resume := logic && resumes before
  let w3 := s.fixedSlots c + s.cxState c * 16 + resume.toNat * 256 + min runBefore 255 * 65536
  let put := fun (s : State) (i v : Nat) => s.peStore (s.dataWordAt c i) (BitVec.ofNat 32 v)
  put (put (put (put s 0 n) 1 lostCh) 2 (Nat.land mask s.pe.slotOvr)) 3 w3

/-! ### Publication (06 R238) -/

/-- MONO of the slot's present PX cycle. -/
def State.peNow (s : State) : Nat := max s.mono (s.pe.slotAt + s.pe.cycles * 5 / 2)

/-- The published block of a context. -/
def State.publishedBlock (s : State) (c : Nat) : List Word := (List.range 64).map fun i => s.peData (publishedAt c i)

/-- End of a context's evaluation: `flip` makes its back buffer the published block; word 0 is PE's. -/
def State.publish (s : State) (c n : Nat) (flip logicRan : Bool) : State :=
  let rlen := s.get (PE_CXnDATA_RLEN c)
  let s := if flip then
    let s := s.peMend ((List.range rlen).map fun i => backAt c (i + 1))
    ((List.range 63).map (· + 1)).foldl (fun (s : State) i =>
      s.peStore (publishedAt c i) (if i ≤ rlen then s.peData (backAt c i) else 0#32)) s
    else s
  let w0 := n % 65536 + s.cxState c * 2 ^ 16 + (!logicRan).toNat * 2 ^ 19 + min (s.cxs c).missing 255 * 2 ^ 24
  let s := s.peStore (publishedAt c 0) (BitVec.ofNat 32 w0)
  s.deliver 6 c (s.publishedBlock c) s.peNow s.peNow false

/-! ### The evaluation of a context -/

/-- The slot's contexts not yet evaluated. -/
def State.withRun (s : State) (r : Option PeRun) : State := s.withPe fun p => { p with run := r }

/-- The evaluation of context `r.cx` has come to its end (06 R231, R232, R238). -/
def State.finishContext (s : State) (r : PeRun) (logicRan : Bool) : State :=
  let c := r.cx
  let x := s.cxs c
  let noLogic := if logicRan then 0 else x.noLogic + 1
  let s := if logicRan && !r.missing && resumes r.before then s.emit 0x5004 [c, r.frame, x.noLogic] else s
  let s := s.setCxs c { s.cxs c with noLogic, missing := if r.missing then x.missing else 0 }
  let s := if r.missing then s else s.set (PE_CXnSTAT_RUN c) 0
  (s.publish c r.frame true logicRan).withRun none

/-- A context is cut (06 R225): its contribution stays as before the slot, the frame counts as missing once. -/
def State.cutContext (s : State) (r : PeRun) : State :=
  let c := r.cx
  let s := ((s.inc (PE_CXnCUT_CUTS c)).setContrib c r.contribBefore).emit 0x5005 [c, r.frame, 0x50000000 + bundleAt r.pc]
  let s := if r.missing then s else s.noteMissing c r.frame r.before
  let s := s.setCxs c { s.cxs c with noLogic := (s.cxs c).noLogic + 1 }
  (s.publish c r.frame false false).withRun none

/-- Read `n` consecutive words; none where one is uncorrectable, with its offset. -/
def peReads : Nat → Nat → State → State × (List Word) × Option Nat
  | 0, _, s => (s, [], none)
  | n + 1, off, s =>
    match s.peRead off with
    | (s, none) => (s, [], some off)
    | (s, some w) =>
      let (s, ws, bad) := peReads n (off + 4) s
      (s, w :: ws, bad)

/-- A load of a slot: the words, or why there are none. -/
inductive PeLoad where
  | words (l : List Word)
  | outside
  | bad (off : Nat)
deriving DecidableEq, Repr

/-- Write consecutive words. -/
def State.peStores (s : State) : Nat → List Word → State
  | _, [] => s
  | off, w :: t => (s.peStore off w).peStores (off + 4) t

/-- TRP (06 R236; 07 R256). -/
def State.trp (s : State) (r : PeRun) (k : Nat) (b : Bool) : State :=
  if bitOf (s.get (PE_CXnFLM_FLAGS r.cx)) k then
    let w := (s.cxs r.cx).contrib.toNat
    s.setContrib r.cx (BitVec.ofNat 32 (putBit w k b))
  else s.emit 0x500C [r.cx, 2 ^ k]

/-- TRG (06 R237; 07 R256): a trigger line within the context's mask, and REC's trigger where it is enabled. -/
def State.trg (s : State) (r : PeRun) (j : Nat) (b : Bool) : State :=
  if b && bitOf (s.get (PE_CXnCHM_TRIG r.cx)) j then
    let s := s.withPe fun p => { p with triggers := putBit p.triggers j true }
    if bitOf (s.get REC_TRIGEN_PE) j then s.recTrigger j r.frame else s
  else s

/-- The evaluation ends with the context stopped (06 R218): a frame without evaluation. -/
def State.finishStopped (s : State) (r : PeRun) : State :=
  let s := if r.missing then s else s.noteMissing r.cx r.frame cxStopped
  let s := s.setCxs r.cx { s.cxs r.cx with noLogic := (s.cxs r.cx).noLogic + 1 }
  (s.publish r.cx r.frame false false).withRun none

/-! ### The library items of a context (07 R257 to R274) -/

/-- The items linked into a context. -/
def State.scheme (s : State) (c : Nat) : List LibItem := CMap.lookup (fun _ => []) s.pe.schemes c

/-- The items of one entry. -/
def State.entryItems (s : State) (c : Nat) (meas : Bool) : List LibItem := (s.scheme c).filter fun x => libInMeas x.kind == meas

/-- The bundles the items of a context add to its worst case (07 R257). -/
def State.schemeBundles (s : State) (c : Nat) : Nat := ((s.scheme c).map fun x => libBundles x.kind).foldl (· + ·) 0

/-- Word `i` of the block at `base`, in the context's data area: none outside it and in the frame status (07 R246, R247). -/
def State.blockAt (s : State) (c base n : Nat) : Option (List Nat) :=
  if base < 4 ∨ s.dataWords c < base + n then none else some ((List.range n).map fun i => s.dataWordAt c (base + i))

/-- The history word of a channel of the context's mask for a frame. -/
def State.sampleAt (s : State) (c frame : Nat) (ch : Fin 24) : Option Nat :=
  if bitOf (s.get (PE_CXnCHM_CHMASK c)) ch.val then some (historyAt ch.val (frame + 4096)) else none

/-- All of a list of addresses, or none. -/
def allOf (l : List (Option Nat)) : Option (List Nat) := l.foldr (fun a r => match a, r with
  | some a, some r => some (a :: r)
  | _, _ => none) (some [])

/-- cos and sin of a quarter turn times `r` / `n`, r ≤ n, as multiples of 2^-80: their power series in fixed point, π to 80 bits. -/
def quarterTurn (r n : Nat) : Int × Int :=
  let one : Int := 2 ^ 80
  let x : Int := 1898976236818169290393997 * r / n
  let terms := (List.range 40).foldl (fun (acc : List Int) (i : Nat) => acc ++ [(acc.getLast?.getD one) * x / one / (i + 1)]) [one]
  let even := (List.range 20).foldl (fun (v : Int) (i : Nat) => v + (if i % 2 = 0 then 1 else -1) * (terms.getD (2 * i) 0)) 0
  let odd := (List.range 20).foldl (fun (v : Int) (i : Nat) => v + (if i % 2 = 0 then 1 else -1) * (terms.getD (2 * i + 1) 0)) 0
  if r = 0 then (one, 0) else (even, odd)

/-- cos and sin of 2πk / n as binary32, k < n. -/
def coefficient (n k : Nat) : List Word :=
  let (c, s) := quarterTurn (4 * k % n) n
  let (c, s) := match 4 * k / n with
    | 0 => (c, s)
    | 1 => (-s, c)
    | 2 => (-c, -s)
    | _ => (s, -c)
  [binary32OfRatio c (2 ^ 80), binary32OfRatio s (2 ^ 80)]

/-- The table of a PHM3 of window `n` (07 R259), each coefficient rounded once (DESIGN CHOICE, log entry 73). -/
def coefficients (n : Nat) : List Word := (List.range n).flatMap (coefficient n)

/-- What an item reads beside blocks in one of the frames it takes in: coefficients and samples (07 R258 to R260). -/
def State.frameReads (s : State) (c : Nat) (x : LibItem) (b : List Word) (j : Nat) : Option (List Nat) :=
  let both := fun (window : Nat) => allOf (x.channels.flatMap fun ch => [s.sampleAt c j ch, s.sampleAt c (j + 4096 - window) ch])
  match x.kind with
  | .phm3 =>
    match s.blockAt c (bn b 4 + 2 * (j % bn b 0)) 2, both (bn b 0) with
    | some k, some l => some (k ++ l)
    | _, _ => none
  | .rms3 => both (bn b 0)
  | .dcm => both (bn b 0)
  | .frq => allOf (x.channels.flatMap fun ch => [s.sampleAt c (j + 4095) ch, s.sampleAt c j ch])
  | .bf => allOf (x.channels.map (s.sampleAt c j))
  | .step => s.blockAt c (x.base + 7 + bn b 5) 1
  | _ => some []

/-- The frames an item takes in. -/
def itemFrames (x : LibItem) (f : LibFrame) : List Nat :=
  match x.kind with
  | .phm3 | .rms3 | .dcm | .frq => f.newest
  | .bf | .step => [f.frame]
  | _ => []

/-- The words of an item's block from its outputs on that begin again with RESUME (06 R230): the timers and latches of elements. -/
def resumed (x : LibItem) (f : LibFrame) (b : List Word) : List Word :=
  if f.resume && !libInMeas x.kind && x.kind != .th3 then
    b.take (libSettingWords x.kind) ++ List.replicate (libBlockWords x.kind - libSettingWords x.kind) 0#32
  else b

/-- A frame of an item: its block as it will be. `blocks`: those of its inputs; `extra`: what it read beside; `selected`: whether a
selected operate output is 1. -/
def itemStep (x : LibItem) (f : LibFrame) (b : List Word) (blocks extra : List (List Word)) (selected : Bool) : List Word :=
  let first := blocks.headD []
  let second := blocks.getD 1 []
  let lane := x.lane.val
  match x.kind with
  | .phm3 => phm3Step f b extra
  | .rms3 => rms3Step f b extra
  | .dcm => dcmStep (min 4 x.channels.length) f b extra
  | .frq => frqStep lane x.ratedU f b first extra
  | .seq => seqStep b first second
  | .oc3 => oc3Step b blocks
  | .hs3 => hs3Step b blocks
  | .dir3 => dir3Step x.ratedI x.ratedU b first second
  | .uv3 => uv3Step x.ratedU b first
  | .ov3 => ov3Step b first
  | .fs => fsStep b first
  | .th3 => th3Step b first
  | .bf => bfStep lane selected b (extra.headD []) (if x.channels.isEmpty then some first else none)
  | .doc => docStep lane b first
  | .rise => riseStep lane b first
  | .step => stepStep lane b first (bw (extra.headD []) 0)
  | .seal => sealStep b selected

/-- The kind of the item whose block begins at `base`. -/
def State.kindAt (s : State) (c base : Nat) : Option LibKind := ((s.scheme c).find? fun x => x.base == base).map (·.kind)

/-- The words of the items' blocks an item reads: its inputs' and those of its selected outputs. -/
def State.inputBlocks (s : State) (c : Nat) (bases : List Nat) : Option (List (List Nat)) :=
  bases.foldr (fun b r => match (s.kindAt c b).bind fun k => s.blockAt c b (libBlockWords k), r with
    | some a, some r => some (a :: r)
    | _, _ => none) (some [])

/-- Words at several places. -/
def peReadAll : List Nat → State → State × List Word × Option Nat
  | [], s => (s, [], none)
  | off :: t, s =>
    match s.peRead off with
    | (s, none) => (s, [], some off)
    | (s, some w) =>
      let (s, ws, bad) := peReadAll t s
      (s, w :: ws, bad)

/-- Groups of words at several places. -/
def peReadGroups : List (List Nat) → State → State × List (List Word) × Option Nat
  | [], s => (s, [], none)
  | l :: t, s =>
    match peReadAll l s with
    | (s, _, some bad) => (s, [], some bad)
    | (s, ws, none) =>
      let (s, r, bad) := peReadGroups t s
      (s, ws :: r, bad)

/-- The block of an item is written, a STEP's ring takes its mean, and SEAL drives its flag and an item's line follows the rising edge of
its first output (07 R273, R274; scheme 1). -/
def State.endItem (s : State) (r : PeRun) (x : LibItem) (old b : List Word) (mean : Word) : State :=
  let s := s.peStores (s.dataWordAt r.cx x.base) b
  let s := s.when (x.kind == .step) (·.peStore (s.dataWordAt r.cx (x.base + 7 + bn old 5)) mean)
  let on := fun (w : List Word) => outputBit (bw w (libOutputWord x.kind)) 0
  let s := s.when (x.kind == .seal) (·.trp r x.flag.val (on b))
  match x.line with
  | some j => if libInMeas x.kind then s else s.trg r j.val (on b && !on old)
  | none => s

/-- PE evaluates an item of the running context. What it takes of its entry's bundles is its worst case (07 R257). An access outside the
allowed areas cuts the context (R247), an uncorrectable word stops it (06 R218). -/
def State.runItem (s : State) (r : PeRun) (f : LibFrame) (x : LibItem) : State :=
  let c := r.cx
  let cost := libBundles x.kind
  if s.get (PE_CXnSTAT_VWCET c) < r.count + cost then s.cutContext r
  else
    let s := (s.withPe fun p => { p with cycles := p.cycles + cost }).withRun (some { r with count := r.count + cost })
    let r := { r with count := r.count + cost }
    match s.blockAt c x.base (libBlockWords x.kind), s.inputBlocks c x.inputs, s.inputBlocks c (x.select.map (·.1)) with
    | some own, some ins, some sel =>
      match peReadGroups (own :: (ins ++ sel)) s with
      | (s, _, some bad) => (s.stopContext c bad).finishStopped r
      | (s, words, none) =>
        let b := resumed x f (words.headD [])
        let blocks := (words.drop 1).take ins.length
        let selected := ((words.drop (1 + ins.length)).zip x.select).any fun e =>
          outputBit (bw e.1 (((s.kindAt c e.2.1).map libOutputWord).getD 0)) e.2.2.val
        match (itemFrames x f).foldr (fun j acc => match s.frameReads c x b j, acc with
          | some a, some acc => some (a :: acc)
          | _, _ => none) (some []) with
        | none => s.cutContext r
        | some offs =>
          match peReadGroups offs s with
          | (s, _, some bad) => (s.stopContext c bad).finishStopped r
          | (s, extra, none) => s.endItem r x b (itemStep x f b blocks extra selected) (bw (blocks.headD []) (15 + x.lane.val))
    | _, _, _ => s.cutContext r

/-- The items of an entry, in their order, before the context's own bundles (DESIGN CHOICE, log entry 73). -/
def State.runItems (s : State) (f : LibFrame) (meas : Bool) : State :=
  match s.pe.run with
  | none => s
  | some r => (s.entryItems r.cx meas).foldl (fun (s : State) x => match s.pe.run with
    | some r => s.runItem r f x
    | none => s) s

/-- ENABLE: an item's state begins at 0, TH3's at θinit (07 R269). -/
def State.initItem (s : State) (c : Nat) (x : LibItem) : State :=
  let n := libSettingWords x.kind
  match s.blockAt c x.base (libBlockWords x.kind) with
  | none => s
  | some own =>
    let s := (own.drop n).foldl (fun (s : State) off => s.peStore off 0#32) s
    match x.kind, own with
    | .th3, _ :: _ :: _ :: _ :: _ :: init :: _ :: _ :: θ :: _ =>
      let s := s.peMend [init]
      s.peStores θ (sumWords (peQ (s.peData init)))
    | _, _ => s

/-- Begin LOGIC: registers 0, the contribution 0 with RESUME (07 R242, R243). -/
def State.beginLogic (s : State) (r : PeRun) : State :=
  let s := if resumes r.before then s.setContrib r.cx 0#32 else s
  let s := s.withRun (some
    { r with logic := true, logicNext := false, pc := s.get (PE_CXnPROG_LOGIC r.cx), loops := [], regs := {}, vector := none })
  s.runItems { frame := r.frame, fixed := 0, gap := 0, resume := resumes r.before } false

/-- Begin MEAS: its library items, then its bundles. `gap`: frames without evaluation before this one. -/
def State.beginMeas (s : State) (r : PeRun) (gap : Nat) : State :=
  let s := s.withRun (some { r with pc := s.get (PE_CXnPROG_MEAS r.cx) })
  s.runItems { frame := r.frame, fixed := s.fixedSlots r.cx, gap, resume := false } true

/-- The evaluation of context `c` in frame `n` begins (06 R223, R230, R231). -/
def State.beginContext (s : State) (c n : Nat) : State :=
  let s := s.withPe fun p => { p with cycles := p.cycles + 6 }
  let before := s.cxState c
  let x := s.cxs c
  let missing := s.cxMissing c
  let runBefore := x.missing
  let r : PeRun :=
    { cx := c, frame := n, logic := false, logicNext := false, pc := 0, count := 0, before, contribBefore := x.contrib, missing }
  if before = cxStopped then
    let s := s.noteMissing c n before
    let s := s.setCxs c { s.cxs c with noLogic := x.noLogic + 1 }
    (s.writeStatus c n before false runBefore).publish c n false false
  else if missing then
    let s := s.noteMissing c n before
    let logic := s.cxState c == cxHold
    let s := s.writeStatus c n before false runBefore
    if logic then s.beginLogic { r with contribBefore := (s.cxs c).contrib }
    else if s.cxState c = cxInit then s.beginMeas r (min runBefore 255)
    else (s.setCxs c { s.cxs c with noLogic := (s.cxs c).noLogic + 1 }).publish c n false false
  else
    let (st, good) := s.goodState c
    let s := (s.setCxState c st).setCxs c { x with good }
    let logic := st == cxNormal
    let s := if before = cxFallback ∧ st = cxRefill then s.fallbackFlags c else s
    let s := s.writeStatus c n before logic runBefore
    s.beginMeas { r with logicNext := logic } (min runBefore 255)

/-! ### Bundles -/

/-- What a memory operand names at run time: a byte offset in the PE memories, or none where the access is outside the
allowed areas (07 R246, R247). `words`: words of a scalar access; a vector access has 16-byte units. -/
def State.peAddress (s : State) (r : PeRun) (m : PeMem) (vector store : Bool) (words : Nat) : Option Nat :=
  let c := r.cx
  let off := m.off.toNat
  let scale := if vector then 4 else 1
  let n := if vector then 4 else words
  match m.space.val with
  | 1 => if store || !(vector || bitOf (s.get (PE_CXnCHM_CHMASK c)) (off / 2048)) then none
         else some (historyAt (off / 2048) (r.frame + 4096 - off % 2048))
  | 2 =>
    let w := off * scale
    if 64 < w + n ∨ (store ∧ w = 0) then none else some (backAt c w)
  | sp =>
    let idx := if sp = 3 then (off + (r.regs.sc m.xs.val).toNat) % 2 ^ 32 else off
    let w := idx * scale
    if s.dataWords c < w + n ∨ (store ∧ w < 4) then none else some (s.dataWordAt c w)

/-- Lanes of a vector history load (07 R246). -/
def State.historyLanes (s : State) (r : PeRun) (off : Nat) : Nat → State × List Word × Option Nat
  | 0 => (s, [], none)
  | n + 1 =>
    let (s, ws, bad) := s.historyLanes r off n
    let ch := off / 2048 + n
    if ch < 24 ∧ bitOf (s.get (PE_CXnCHM_CHMASK r.cx)) ch then
      let at_ := historyAt ch (r.frame + 4096 - off % 2048)
      match s.peRead at_ with
      | (s, none) => (s, ws, some (bad.getD at_))
      | (s, some w) => (s, ws ++ [w], bad)
    else (s, ws ++ [0#32], bad)

def State.peLoad (s : State) (r : PeRun) (m : PeMem) (vector : Bool) (words : Nat) : State × PeLoad :=
  match s.peAddress r m vector false words with
  | none => (s, .outside)
  | some off =>
    let (s, ws, bad) := if m.space.val = 1 ∧ vector then s.historyLanes r m.off.toNat 4
      else peReads (if vector then 4 else words) off s
    match bad with
    | some b => (s, .bad b)
    | none => (s, .words ws)

/-- Where control goes after bundle `pc`, loops considered (07 R255). -/
def loopStep (next : Nat) : List PeLoop → Nat × List PeLoop
  | [] => (next, [])
  | l :: t =>
    if next = l.last + 1 then
      if l.pass + 1 < l.count then (l.first, { l with pass := l.pass + 1 } :: t) else loopStep next t
    else (next, l :: t)

/-- The next bundle and the loops after an S-slot operation. -/
def peNext (r : PeRun) (o : PeSlot) : Nat × List PeLoop :=
  match o with
  | .loop k m => (r.pc + 1, { first := r.pc + 1, last := r.pc + m.toNat, count := k.toNat + 1, pass := 0 } :: r.loops)
  | .brf fa sense off => loopStep (if r.regs.fl fa.val == sense then r.pc + off.toNat else r.pc + 1) r.loops
  | .bra off => loopStep (r.pc + off.toNat) r.loops
  | _ => loopStep (r.pc + 1) r.loops

/-- The register effect of an S-slot operation, given what its load read. -/
def peSlotRegs (o : PeSlot) (old : PeRegs) (loops : List PeLoop) (ld : List Word) (r : PeRegs) : PeRegs :=
  match o with
  | .scalar o => peScalar o old r
  | .lds sd _ => r.setSc sd.val ((ld[0]?).getD 0#32)
  | .acc (.ald ad _) => r.setAc ad.val ((ld[1]?).getD 0#32 ++ (ld[0]?).getD 0#32)
  | .acc o => peAccumulator o old r
  | .lidx sd level => r.setSc sd.val (BitVec.ofNat 32 (((loops[level.val]?).map (·.pass)).getD 0))
  | .sts _ _ => r
  | .brf _ _ _ => r
  | .bra _ => r
  | .loop _ _ => r
  | .end_ => r
  | .trp _ _ => r
  | .trg _ _ => r

/-- What an S-slot operation stores. -/
def peSlotData (o : PeSlot) (old : PeRegs) : List Word :=
  match o with
  | .sts ss _ => [old.sc ss.val]
  | .acc (.ast ad _) => [(old.ac ad.val).extractLsb' 0 32, (old.ac ad.val).extractLsb' 32 32]
  | _ => []

/-- The end of an entry (06 R223; 07 R255). -/
def State.endEntry (s : State) (r : PeRun) : State :=
  if r.logic then s.finishContext r true
  else if r.logicNext then s.beginLogic r
  else s.finishContext r false

/-- A load of one slot of the bundle, if it has one. -/
def State.slotLoad (s : State) (r : PeRun) (m : Option (PeMem × Bool × Nat)) (vector : Bool) : State × PeLoad :=
  match m with
  | some (m, false, n) => s.peLoad r m vector n
  | _ => (s, .words [])

/-- The address a slot stores to: none where it stores nothing, some none where the access is outside. -/
def State.slotStore (s : State) (r : PeRun) (m : Option (PeMem × Bool × Nat)) (vector : Bool) : Option (Option Nat) :=
  match m with
  | some (m, true, n) => some (s.peAddress r m vector true n)
  | _ => none

/-- The context has executed its verified worst case without its END (06 R225). -/
def State.exhausted (s : State) (r : PeRun) : Bool := decide (s.get (PE_CXnSTAT_VWCET r.cx) ≤ r.count)

/-- One bundle (07 R244): both operations read what stood before it and write at its end; one PX cycle (06 R216). -/
def State.peBundle (s : State) (r : PeRun) (v : PeVectorSlot) (o : PeSlot) : State :=
  let s := s.withPe fun p => { p with cycles := p.cycles + 1 }
  let vm := (vectorMem v).map fun e => (e.1, e.2, 4)
  let (s, vl) := s.slotLoad r vm true
  let (s, sl) := s.slotLoad r (slotMem o) false
  let vs := s.slotStore r vm true
  let ss := s.slotStore r (slotMem o) false
  match vl, sl, vs, ss with
  | .bad off, _, _, _ => (s.stopContext r.cx off).finishStopped r
  | _, .bad off, _, _ => (s.stopContext r.cx off).finishStopped r
  | .outside, _, _, _ => s.cutContext r
  | _, .outside, _, _ => s.cutContext r
  | _, _, some none, _ => s.cutContext r
  | _, _, _, some none => s.cutContext r
  | .words vw, .words sw, vs, ss =>
    let old := r.regs
    let regs := match v with
      | .op o => peVector o old old
      | .vld vd _ => old.setVec vd.val fun i => (vw[i]?).getD 0#32
      | .vst _ _ => old
    let regs := peSlotRegs o old r.loops sw regs
    let s := match v, vs with
      | .vst w _, some (some off) => s.peStores off ((List.range 4).map (old.lane w.val))
      | _, _ => s
    let s := match ss with
      | some (some off) => s.peStores off (peSlotData o old)
      | _ => s
    let (pc, loops) := peNext r o
    let r' := { r with regs, pc, loops, count := r.count + 1, vector := none }
    let s := s.withRun (some r')
    match o with
    | .end_ => s.endEntry { r' with pc := r.pc }
    | .trp k fa => s.trp r k.val (old.fl fa.val)
    | .trg j fa => s.trg r j.val (old.fl fa.val)
    | _ => s

end Sys2Proof.Machine
end

