-- ==== Sys2Proof/Machine/Time.lean ====
section
/-!
DEFINITION. TIME (11 R391 to R397, R407, R410): the servo of SYNC, the learned term of MONO's compensation, PTP messages.
An offset is SYNC less the master's time, as IEEE 1588-2019 has it; a step takes it away.
-/

namespace Sys2Proof.Machine

open Reg

def State.withTime (s : State) (f : TimeBlock → TimeBlock) : State := { s with time := f s.time }

/-- An integer held within ± `m`. -/
def clampTo (m : Int) (i : Int) : Int := max (-m) (min m i)

/-- The slew limit of TIME_RATE (11 R392). -/
def rateLimit : Int := 858993

/-- The low and high words of a signed 64-bit value. -/
def lowHigh (i : Int) : List Nat := [patternOf 64 i % 2 ^ 32, patternOf 64 i / 2 ^ 32]

/-- SYNC steps by `q` quarter nanoseconds (11 R393); the values TRS returns need not rise over a step (03 R106). -/
def State.stepSync (s : State) (q : Int) : State :=
  let cores := fun (x : CoreState) => { x with trsNs := 0 }
  { s with cx := cores s.cx, sc0 := cores s.sc0, sc1 := cores s.sc1, sync := (((s.sync : Int) + q * 2 ^ 30) % (2 ^ 48 * 1000000000 * 2 ^ 32)).toNat }

/-- Set TIME_RATE; SLEWLIM and event 0x4007 at its limit (11 R393). -/
def State.setRate (s : State) (r : Int) : State :=
  let r := clampTo rateLimit r
  let s := s.sset TIME_RATE_VALUE r
  if r.natAbs = 858993 then
    if s.bit TIME_STAT_SLEWLIM then s else (s.setBit TIME_STAT_SLEWLIM true).emit 0x4007 [s.get TIME_RATE_VALUE]
  else s.setBit TIME_STAT_SLEWLIM false

/-- The servo corrects RATE (11 R393). Beyond 10 ms it slews at the limit; else it is the second-order loop with proportional gain
2 x 0.7 / 64 and integral gain 1 / 64^2 in each sync interval, RATE holding the integral. DESIGN CHOICE: the bandwidth 1/(64 x sync
interval) is taken as the loop's natural frequency; log entry 23. -/
def State.servo (s : State) (off : Int) : State :=
  let step := off - s.time.servoOff
  let s := s.withTime fun b => { b with servoOff := off }
  if 10000000 < off.natAbs then
    let s := if s.bit TIME_STAT_STEPNEED then s
      else (s.setBit TIME_STAT_STEPNEED true).emit 0x4005 [patternOf 32 (off / 1000)]
    s.setRate (if 0 < off then -rateLimit else rateLimit)
  else
    let change := (896 * step + 10 * off) * (2 ^ (32 + s.get TIME_PTPCFG_SYNCI) : Nat)
    s.setRate (s.sget TIME_RATE_VALUE - roundRatio change 40960000000000)

/-- The fourth offset of an acquisition (11 R393): SYNC steps by their mean; the event's whole nanoseconds are rounded down, DESIGN
CHOICE, log entry 23. -/
def State.acquire (s : State) (l : List Int) : State :=
  let sum := l.foldl (· + ·) 0
  let s := (s.stepSync (-sum)).withTime fun b => { b with offsets := [], near := 0, far := 0, servoOff := 0 }
  let s := (s.setBit TIME_STAT_NOACQ false).set TIME_STAT_STATE 1
  s.emit 0x4001 (lowHigh (-sum / 4) ++ [s.get TIME_GM_LO_ID])

/-- A new offset (11 R392 to R394). -/
def State.newOffset (s : State) (off : Int) : State :=
  let s := s.sset TIME_OFFS_VALUE (max (-2147483648) (min 2147483647 off))
  let s := s.withTime fun b => { b with offset := off
                                        near := if off.natAbs ≤ 1000 then b.near + 1 else 0
                                        far := if 10000 < off.natAbs then b.far + 1 else 0 }
  match s.get TIME_STAT_STATE with
  | 0 =>
    let l := s.time.offsets ++ [off]
    if l.length < 4 then s.withTime fun b => { b with offsets := l } else s.acquire l
  | 1 =>
    if 16 ≤ s.time.near then
      let s := (s.set TIME_STAT_STATE 2).withTime fun b => { b with lockedAt := s.mono, far := 0 }
      (s.emit 0x4002 [patternOf 32 off]).servo off
    else s.servo off
  | 2 =>
    let s := if 4 ≤ s.time.far then (s.set TIME_STAT_STATE 1).withTime fun b => { b with near := 0 } else s
    s.servo off
  | _ => ((s.set TIME_STAT_STATE 1).withTime fun b => { b with near := 0, far := 0 }).servo off

/-- A PTP state a port can take (11 R397): a slave-only clock is never master, before master or passive. -/
def State.ptpState (s : State) (st : Nat) : Bool := !(s.get TIME_CFG_MODE == 1 && decide (5 ≤ st) && decide (st ≤ 7))

/-- A port takes a PTP state (11 R397, R407): the slave port, and whether the module is grandmaster. -/
def State.portState (s : State) (p st : Nat) : State :=
  if !s.ptpState st then s
  else
    let old := s.get (TIME_PnPST_STATE p)
    let s := s.set (TIME_PnPST_STATE p) st
    let s := if st = 9 then s.set TIME_STAT_SLAVE p
      else if s.get TIME_STAT_SLAVE = p then s.set TIME_STAT_SLAVE 3 else s
    let master := s.get (TIME_PnPST_STATE 0) == 6 || s.get (TIME_PnPST_STATE 1) == 6
    let s := s.setBit TIME_STAT_GM (master && s.get TIME_STAT_SLAVE == 3)
    if old = st then s else s.emit 0x4008 [p, old, st]

/-- PTP runs on port `p` (11 R397, R410). -/
def State.ptpOn (s : State) (p : Nat) : Bool := s.get TIME_CFG_MODE != 0 && s.bit (TIME_PnCFG_PTPEN p)

/-- The lead of SYNC over a Sync's origin time at its arrival, the PHY's latency taken off (11 R396). -/
def State.leadOf (s : State) (p : Nat) (origin : Int) : Int := (s.syncTime : Int) - s.phyIn p - origin

/-- An offset from a Sync's lead (11 R396): the mean path delay and the link's asymmetry are taken off. The whole nanosecond below is
a DESIGN CHOICE, log entry 23. -/
def State.offsetOf (s : State) (p : Nat) (lead : Int) : Int :=
  (lead * 1000 - (s.get TIME_MPD_NS : Int) * 1000 - s.sget (TIME_PnASYM_PS p)) / 1000

/-! ### The best master clock algorithm (11 R397)

PRESUMED: the default algorithm of IEEE 1588-2019, to which the manual refers; log entry 23. -/

/-- The clock identity of the module, made from its MAC base address. -/
def State.clockIdentity (s : State) : DWord :=
  BitVec.ofNat 64 (s.sys.fused.mac / 2 ^ 24 * 2 ^ 40 + 0xFFFE * 2 ^ 24 + s.sys.fused.mac % 2 ^ 24)

/-- What the module announces as grandmaster. -/
def State.ownClock (s : State) : PtpClock :=
  { gm := s.clockIdentity, priority1 := BitVec.ofNat 8 (s.get TIME_PTPCFG_PRIO1), priority2 := BitVec.ofNat 8 (s.get TIME_PTPCFG_PRIO2)
    sender := s.clockIdentity }

/-- One list of numbers goes before another. -/
def listBefore : List Nat → List Nat → Bool
  | a :: l, b :: r => decide (a < b) || (a == b && listBefore l r)
  | _, _ => false

/-- One clock is better than another: of one grandmaster the nearer, else the grandmaster with the lesser attributes. -/
def betterClock (a b : PtpClock) : Bool :=
  if a.gm = b.gm then listBefore [a.steps.toNat, a.sender.toNat] [b.steps.toNat, b.sender.toNat]
  else listBefore [a.priority1.toNat, a.clockClass.toNat, a.accuracy.toNat, a.variance.toNat, a.priority2.toNat, a.gm.toNat]
    [b.priority1.toNat, b.clockClass.toNat, b.accuracy.toNat, b.variance.toNat, b.priority2.toNat, b.gm.toNat]

/-- The last Announce of a port. -/
def State.announcedAt (s : State) (p : Nat) : Option PtpClock := (s.time.announced.find? fun e => e.1 == p).map (·.2)

/-- The port on which the best clock is heard, with it. -/
def State.bestMaster (s : State) : Option (Nat × PtpClock) :=
  match (s.announcedAt 0).filter fun _ => s.ptpOn 0, (s.announcedAt 1).filter fun _ => s.ptpOn 1 with
  | some a, some b => if betterClock b a then some (1, b) else some (0, a)
  | some a, none => some (0, a)
  | none, some b => some (1, b)
  | none, none => none

/-- MONO from which a port has heard no Announce. -/
def State.heardAt (s : State) (p : Nat) : Nat := CMap.lookup (fun _ => 0) s.time.heardAt p

/-- ANNTO announce intervals in ns (11 R392). -/
def State.announceTimeout (s : State) : Nat := s.get TIME_PTPCFG_ANNTO * 2 ^ s.get TIME_PTPCFG_ANNI * 1000000000

/-- The state the algorithm gives port `p`: 4 listening, 6 master, 7 passive, 9 slave. An ordinary clock with a master on one network is
not master on the other: that is a boundary clock. -/
def State.decideState (s : State) (p : Nat) : Nat :=
  match s.bestMaster with
  | none =>
    if s.get TIME_CFG_MODE = 1 then 4
    else if s.heardAt p + s.announceTimeout ≤ s.mono then 6
    else s.get (TIME_PnPST_STATE p)
  | some (b, c) =>
    if s.get TIME_CFG_MODE = 1 then (if p = b then 9 else 4)
    else if betterClock s.ownClock c then 6
    else if p = b then 9
    else if s.get TIME_CFG_MODE = 2 ∨ (s.announcedAt p).any (fun x => x.gm == c.gm) then 7
    else 6

/-- The algorithm decides the states of the ports. -/
def State.runBmca (s : State) : State :=
  let states := [0, 1].map fun p => (p, s.decideState p)
  states.foldl (fun (s : State) e => if s.ptpOn e.1 then s.portState e.1 e.2 else s) s

/-- A port hears an Announce, or begins to listen. -/
def State.hear (s : State) (p : Nat) (c : Option PtpClock) : State :=
  let rest := s.time.announced.filter fun e => e.1 != p
  s.withTime fun b => { b with announced := (c.map fun x => (p, x)).toList ++ rest, heardAt := CMap.put (fun _ => 0) b.heardAt p s.mono }

/-- PTP begins at the end of CONFIGURE: its ports listen. -/
def State.ptpBegin (s : State) : State :=
  [0, 1].foldl (fun (s : State) p => if s.ptpOn p then (s.hear p none).portState p 4 else s) s

/-- What the module announces (11 R397): as grandmaster itself, on a master port of a boundary clock the clock it follows. -/
def State.announces (s : State) : PtpClock :=
  match s.announcedAt (s.get TIME_STAT_SLAVE) with
  | some c => { c with steps := c.steps + 1, sender := s.clockIdentity }
  | none => s.ownClock

/-- The length on the link of a PTP message of a type, on its transport: that of IEEE 1588-2019, PRESUMED, log entry 23. -/
def State.ptpLength (s : State) (type : Nat) : Nat :=
  let n := if type = 0xB then 64 else if type = 2 ∨ type = 3 ∨ type = 9 ∨ type = 0xA then 54 else 44
  max 64 (18 + (if s.bit TIME_CFG_TRANSP then 28 else 0) + n)

/-- TIME sends a PTP message at a port (11 R397). The bytes named are what the manual fixes of it: type, domain, and in an Announce
the priorities, class and accuracy. -/
def State.sendPtp (s : State) (p type : Nat) : State :=
  let c := s.announces
  let announce := if type = 0xB then [c.priority1, c.priority2, c.clockClass, c.accuracy].map (·.toNat) else []
  s.queueFrame p { kind := .ptp, len := s.ptpLength type, at_ := s.mono
                   data := ([type, s.get TIME_CFG_DOMAIN] ++ announce).map (BitVec.ofNat 8) }

/-- TIME answers a delay request (11 R397): as master, or on a port with peer delay the peer's, with its follow-up where Sync has one. -/
def State.answerPtp (s : State) (p : Nat) (peer : Bool) : State :=
  if s.bit (TIME_PnCFG_P2P p) != peer then s
  else if peer then (s.sendPtp p 3).when (!s.bit (TIME_PnCFG_ONESTEP p)) (·.sendPtp p 0xA)
  else if s.get (TIME_PnPST_STATE p) = 6 then s.sendPtp p 9 else s

/-- The master selected is heard (11 R392, R410): its identity, event 0x4004 when it is another. -/
def State.followMaster (s : State) (gm : DWord) : State :=
  let s := s.withTime fun b => { b with announceAt := s.mono }
  let lo := gm.toNat % 2 ^ 32
  let hi := gm.toNat / 2 ^ 32
  if s.get TIME_GM_LO_ID = lo ∧ s.get TIME_GM_HI_ID = hi then s
  else
    let s := (s.set TIME_GM_LO_ID lo).set TIME_GM_HI_ID hi
    (s.withTime fun b => { b with offsets := [] }).emit 0x4004 [lo, hi]

/-- A received PTP message (11 R393, R397). -/
def execPtpMessageReceive (t : Nat) (port : Fin 2) (m : PtpMessage) (s : State) : Host.Outcome State Fault Refusal :=
  let s := s.advance t
  let p := port.val
  if !s.ptpOn p then .next s
  else match m with
  | .unsupported => .next s
  | .request peer => .next (s.answerPtp p peer)
  | .announce c =>
    let s := (s.hear p (some c)).runBmca
    .next (if s.get TIME_STAT_SLAVE = p then s.followMaster c.gm else s)
  | .sync origin =>
    if s.get TIME_STAT_SLAVE ≠ p then .next s
    else
      let s := s.withTime fun b => { b with syncAt := s.mono }
      if s.time.delayKnown then .next (s.newOffset (s.offsetOf p (s.leadOf p origin))) else .next s
  | .delay mpd =>
    if s.get TIME_STAT_SLAVE ≠ p then .next s
    else .next ((s.set TIME_MPD_NS mpd).withTime fun b => { b with delayKnown := true })

/-- The interval of a message at a port in ns (11 R397, R410). -/
def State.ptpPeriod (s : State) (p : Nat) : PtpSend → Nat
  | .sync => 1000000000 / 2 ^ s.get TIME_PTPCFG_SYNCI
  | .announce => 1000000000 * 2 ^ s.get TIME_PTPCFG_ANNI
  | .delayRequest => 1000000000 / 2 ^ s.get (TIME_PnCFG_DREQI p)

/-- Where the time of a port's last message of a kind is kept. -/
def ptpSlot (p : Nat) : PtpSend → Nat
  | .sync => 3 * p
  | .announce => 3 * p + 1
  | .delayRequest => 3 * p + 2

/-- The interval since the port's last message of the kind has ended. -/
def State.ptpDue (s : State) (p : Nat) (m : PtpSend) : Bool :=
  match s.time.sentAt.find? fun e => e.1 == ptpSlot p m with
  | some e => decide (e.2 + s.ptpPeriod p m ≤ s.mono)
  | none => true

/-- The messages of an interval (11 R397): Sync, with its Follow_Up where it is two-step, and Announce as master; delay requests as
slave or where peer delay is used. -/
def State.ptpTypes (s : State) (p : Nat) (m : PtpSend) : List Nat :=
  let st := s.get (TIME_PnPST_STATE p)
  match m with
  | .sync => if st = 6 then (if s.bit (TIME_PnCFG_ONESTEP p) then [0] else [0, 8]) else []
  | .announce => if st = 6 then [0xB] else []
  | .delayRequest => if s.bit (TIME_PnCFG_P2P p) then [2] else if st = 9 ∨ st = 8 then [1] else []

/-- An interval ends and TIME sends its messages (11 R397). -/
def execPtpInterval (t : Nat) (port : Fin 2) (m : PtpSend) (s : State) : Host.Outcome State Fault Refusal :=
  let s := s.advance t
  let p := port.val
  if !s.ptpOn p || !s.ptpDue p m || (s.ptpTypes p m).isEmpty then .next s
  else
    let s := (s.ptpTypes p m).foldl (fun (s : State) type => s.sendPtp p type) s
    .next (s.withTime fun b => { b with sentAt := CMap.place b.sentAt (ptpSlot p m) s.mono })

/-- The master of port `p` is lost to TIME (11 R392): HOLDOVER from TRACKING or LOCKED. -/
def State.holdover (s : State) (sync : Bool) : State :=
  let st := s.get TIME_STAT_STATE
  let s := s.withTime fun b => { b with offsets := [], delayKnown := false }
  if st = 1 ∨ st = 2 then (s.set TIME_STAT_STATE 3).emit 0x4003 [patternOf 32 s.time.offset, if sync then 2 else 1] else s

/-- At a port no Announce within ANNTO announce intervals, or no Sync within 4 sync intervals (11 R392, R394): the master of a slave port
is lost, and where no port is slave the one last followed. Without an Announce the algorithm decides again (R397). -/
def execMasterLost (t : Nat) (sync : Bool) (port : Fin 2) (s : State) : Host.Outcome State Fault Refusal :=
  let s := s.advance t
  let p := port.val
  let slave := s.get TIME_STAT_SLAVE
  let due := if sync then s.time.syncAt + 4 * (1000000000 / 2 ^ s.get TIME_PTPCFG_SYNCI) else s.heardAt p + s.announceTimeout
  if !s.ptpOn p ∨ s.mono < due ∨ (sync ∧ slave ≠ p ∧ slave ≠ 3) then .next s
  else
    let s := if slave = p ∨ slave = 3 then s.holdover sync else s
    .next (if sync then s else
      (s.withTime fun b => { b with announced := b.announced.filter fun e => e.1 != p }).runBmca)

/-- COMP follows its temperature term at temperature `temp` and its learned term (11 R391). The learned term follows TIME_RATE with a
time constant of 3600 s; what of its change reaches COMP within COMP's limits is taken from TIME_RATE in the same instant. A unit that
joins or stands by steers the learned term by `pairDiff`, the rate difference against the active's MONO (14 R466). DESIGN CHOICE: the
changes of each second are whole units, the rest kept for the next; log entry 23. -/
def State.compUpdate (s : State) (temp pairDiff : Int) : State :=
  let follow := decide (2 ≤ s.get PAIR_STAT_ROLE)
  let locked := s.get TIME_STAT_STATE == 2 && decide (s.time.lockedAt + 600000000000 ≤ s.mono)
  let learn := s.bit TIME_CFG_LEARN
  let old := s.sget TIME_COMP_VALUE
  let source := if learn && follow then pairDiff else if learn && locked then s.sget TIME_RATE_VALUE else 0
  let owed := s.time.learnRest + source
  let base := Config.temperatureTerm temp + if learn then s.time.learned else 0
  let comp := fun (d : Int) => clampTo 21475 (old + clampTo 43 (base + d - old))
  let step := clampTo 21475 (s.time.learned + owed.tdiv 3600) - s.time.learned
  let applied := comp step - comp 0
  let learned := s.time.learned + applied
  let s := if learn && !follow && locked then s.setRate (s.sget TIME_RATE_VALUE - applied) else s
  let hit := learn && learned.natAbs == 21475 && s.time.learned.natAbs != 21475
  let s := s.withTime fun b => { b with learned, learnRest := owed.tmod 3600 }
  let s := if applied = 0 then s else s.moduleWrite learnedAt (BitVec.ofInt 32 learned)
  let s := s.sset TIME_COMP_VALUE (comp step)
  if hit then s.emit 0x4009 [s.get TIME_COMP_VALUE] else s

def execMonoCompUpdate (t : Nat) (temp pairDiff : Int) (s : State) : Host.Outcome State Fault Refusal :=
  let s := s.advance t
  if s.mono < s.time.compAt + 1000000000 then .next s
  else .next ((s.compUpdate temp pairDiff).withTime fun b => { b with compAt := s.mono })

/-- STEP (11 R393). -/
def timeStep (s : State) : State × Nat :=
  if s.mode ≠ .stop then (s, 1)
  else if !s.bit TIME_STAT_STEPNEED then (s, 5)
  else
    let d := -s.time.offset
    let s := s.withTime fun b => { b with servoOff := 0 }
    (((s.stepSync (4 * d)).setBit TIME_STAT_STEPNEED false).emit 0x4006 (lowHigh d), 0)

def State.timeMailbox (s : State) (cseq : Nat) (act : State → State × Nat) : State :=
  s.mailbox TIME_SEQ_LASTCMD TIME_RES_RESULT cseq act

def execTimeStep (t cseq : Nat) (s : State) : Host.Outcome State Fault Refusal := .next ((s.advance t).timeMailbox cseq timeStep)

/-- A read of TIME_MONO_LO (11 R410; 00 R7). -/
def State.readMono (s : State) : State × Word :=
  (s.wr TIME_MONO_HI (BitVec.ofNat 32 (s.mono / 2 ^ 32)), BitVec.ofNat 32 s.mono)

def execMonoRead (t : Nat) (s : State) : Host.Outcome State Fault Refusal := .next (State.answerRead (s.advance t).readMono)

/-- A read of TIME_SYNC_NS (11 R410). -/
def State.readSync (s : State) : State × Word :=
  let ns := s.sync / 2 ^ 32
  let sec := ns / 1000000000
  ((s.wr TIME_SYNC_SLO (BitVec.ofNat 32 sec)).wr TIME_SYNC_SHI (BitVec.ofNat 32 (sec / 2 ^ 32 % 2 ^ 16)),
    BitVec.ofNat 32 (ns % 1000000000))

def execSyncRead (t : Nat) (s : State) : Host.Outcome State Fault Refusal := .next (State.answerRead (s.advance t).readSync)

end Sys2Proof.Machine
end

