-- ==== Sys2Proof/Machine/CfgCheck.lean ====
section
/-!
DEFINITION. The checks of CONFIGURE (15 R501, R542) beside those of CYC: every check the manual assigns to it, block by
block in the order of the block table, each answering its first refusal. That order, and results where a rule names no result,
are DESIGN CHOICES of log entry 28.
-/

namespace Sys2Proof.Machine

open Reg

/-! ### Helpers -/

/-- A value lies outside a range. -/
def outside (v lo hi : Nat) : Bool := decide (v < lo) || decide (hi < v)

/-- A field out of range or an undeclared reference, at a record. -/
def outOfRange (bad : Bool) (index : Nat) : Option CfgRefusal := if bad then some { result := 3, index } else none

/-- A claim conflict. -/
def conflict (bad : Bool) (claimB claimA index index2 : Nat) : Option CfgRefusal :=
  if bad then some { result := 2, claimB, claimA, index, index2 } else none

def State.undeclared (s : State) (p : Nat) : Bool := (s.partition p).isNone

/-- The first pair of records, the later one first, for which a check refuses. -/
def firstPair {α : Type} (f : α → α → Option CfgRefusal) : List α → List α → Option CfgRefusal
  | _, [] => none
  | before, x :: r => firstOf (firstRefusal (f x) before) (firstPair f (before ++ [x]) r)

/-- A declared share: claimant, share as a fraction, record. -/
structure Share where
  claimant : Nat
  num : Nat
  den : Nat := 1
  record : Nat
deriving DecidableEq, Repr

/-- Of the other claimants on a resource, the one of lowest tier and highest index (01 R31). -/
def State.otherShare (s : State) (l : List Share) (x : Share) : Option Share :=
  (l.filter fun y => y.claimant != x.claimant).foldl (fun best y => match best with
    | none => some y
    | some b =>
      if (s.claimantTier b.claimant, b.claimant % 0x1000) = (s.claimantTier y.claimant, y.claimant % 0x1000) then some y
      else if s.claimantTier b.claimant < s.claimantTier y.claimant then some y
      else if s.claimantTier b.claimant = s.claimantTier y.claimant ∧ b.claimant % 0x1000 < y.claimant % 0x1000 then some y
      else best) none

/-- The refusal of a share that crosses the limit of a resource (01 R31; 15 R542). -/
def State.shareRefusal (s : State) (resource : Nat) (l : List Share) (x : Share) : CfgRefusal :=
  let other := s.otherShare l x
  { result := 1, claimB := x.claimant, claimA := (other.map (·.claimant)).getD 0, resource, index := x.record
    index2 := (other.map (·.record)).getD 0 }

/-- Add the shares in configuration order and stop where the sum, `num / den` so far, passes the limit (01 R31). -/
def State.checkShares (s : State) (resource limit : Nat) (all : List Share) : List Share → Nat → Nat → Option CfgRefusal
  | [], _, _ => none
  | x :: r, num, den =>
    let num' := num * x.den + x.num * den
    let den' := den * x.den
    if limit * den' < num' then some (s.shareRefusal resource all x) else s.checkShares resource limit all r num' den'

/-- A set of periodic items, offset and period first, that have a common tick and for which `over` holds. -/
def crowdedSet {α : Type} (edge : α → Nat × Nat) (excess : List α → Bool) : List α → List α → Option (List α)
  | chosen, [] => if excess chosen then some chosen else none
  | chosen, e :: r =>
    let meets := fun (a b : α) => edgesMeet ((edge a).1, (edge a).2, 0, 0) ((edge b).1, (edge b).2, 0, 0)
    if chosen.all (meets e) then
      match crowdedSet edge excess (chosen ++ [e]) r with
      | some x => some x
      | none => if (r.filter fun x => chosen.all (meets x)).all (meets e) then none else crowdedSet edge excess chosen r
    else crowdedSet edge excess chosen r

/-! ### MEM (04 R141, R151; 09 R329) -/

def State.enabledRegions (s : State) : List Nat := (List.range 32).filter fun n => s.bit (MEM_REGnL_EN n)

/-- The claimant of a region: 0x6000 + its owner. -/
def State.regionClaimant (s : State) (n : Nat) : Nat := 0x6000 + s.get (MEM_REGnA_OWNER n)

/-- A region: owner declared, SAFETY only for a safety partition, range rising, clear of the disturbance ring. -/
def State.checkRegion (s : State) (n : Nat) : Option CfgRefusal :=
  let base := s.get (MEM_REGnB_BASE n)
  let limit := s.get (MEM_REGnL_LIMIT n)
  let owner := s.get (MEM_REGnA_OWNER n)
  firstOf (outOfRange (s.undeclared owner || s.get (MEM_REGnB_SPACE n) == 3 || decide (limit < base)) n) <|
  firstOf (outOfRange (s.bit (MEM_REGnA_SAFETY n) && !s.isSafety owner) n)
    (conflict (s.get (MEM_REGnB_SPACE n) == 1 && decide (base ≤ 0xBFFFF) && decide (0xA0000 ≤ limit)) (s.regionClaimant n) 0 n 0)

/-- Two regions overlap (04 R141). -/
def State.checkRegions (s : State) (n m : Nat) : Option CfgRefusal :=
  conflict (s.get (MEM_REGnB_SPACE n) == s.get (MEM_REGnB_SPACE m) && decide (s.get (MEM_REGnB_BASE n) ≤ s.get (MEM_REGnL_LIMIT m))
    && decide (s.get (MEM_REGnB_BASE m) ≤ s.get (MEM_REGnL_LIMIT n))) (s.regionClaimant n) (s.regionClaimant m) n m

/-- A partition window that overlaps the disturbance ring, which the DRAM window shows in bank 2 (04 R161; 09 R329). -/
def checkWindow (q : Partition) : Option CfgRefusal :=
  conflict (q.bank == 2 && decide (q.lo ≤ 0xBFFFFFFF) && decide (0xA0000000 ≤ q.hi)) (0x6000 + q.index) 0 q.index 0

/-- A partition of the service cores is non-safety, and its window excludes every safety partition's window, the GIRTH block and CYC
(01 R14, R16). The results are DEDUCED, log entry 28. -/
def State.checkServicePartition (s : State) (q : Partition) : Option CfgRefusal :=
  if !q.service then none
  else
    let meets := fun (lo hi : Nat) => (q.lo, q.hi) :: q.grants |>.any fun g => decide (g.1 ≤ hi) && decide (lo ≤ g.2)
    let dram := fun (p : Partition) => decide (0x80000000 ≤ p.lo) && decide (p.lo < 0xC0000000)
    let other := s.sys.parts.find? fun p => p.safety && p.index != q.index && meets p.lo p.hi && (!dram p || p.bank == q.bank)
    firstOf (outOfRange q.safety q.index) <|
    firstOf (conflict other.isSome (0x6000 + q.index) (0x6000 + (other.map (·.index)).getD 0) q.index ((other.map (·.index)).getD 0))
      (outOfRange (meets 0x40700000 0x407FFFFF || meets 0x40300000 0x403FFFFF) q.index)

/-- The declared shares of a resource. -/
def State.sharesOf (s : State) (resource : Nat) : List Share :=
  (s.sys.shares.mapIdx fun i x => (i, x)).filterMap fun e =>
    if e.2.resource = resource then some { claimant := e.2.claimant, num := e.2.amount, record := e.1 } else none

/-- The declared shares on a memory arbiter, 63 in 64, on the pair link, 2500 Mbit/s, or on the flash controller, 36 operations per ms (01
R29; 15 R510). -/
def State.checkDeclared (s : State) (resource limit : Nat) : Option CfgRefusal :=
  s.checkShares resource limit (s.sharesOf resource) (s.sharesOf resource) 0 1

def State.checkMem (s : State) : Option CfgRefusal :=
  let lap := s.get MEM_SCRCTL_LAPMAX
  firstOf (firstRefusal s.checkServicePartition s.sys.parts) <|
  firstOf (firstRefusal (fun r => s.checkDeclared r 63) [0x0002, 0x0003, 0x0004, 0x0005, 0x0006]) <|
  firstOf (s.checkDeclared 0x000E 2500) <|
  firstOf (s.checkDeclared 0x000F 36) <|
  firstOf (firstRefusal s.checkRegion s.enabledRegions) <|
  firstOf (firstPair s.checkRegions [] s.enabledRegions) <|
  firstOf (firstRefusal checkWindow s.sys.parts) (outOfRange (decide (lap < 10) || decide (86400 < lap)) 0)

/-! ### AFE, PE and Girth (06 R203, R219; 08 R294, R307) -/

/-- The contexts a configuration declares: those with a budget. -/
def State.declaredContexts (s : State) : List Nat := (List.range 64).filter fun c => s.get (PE_CXnBUD_BUD c) != 0

/-- Fields of a context (06 R219). -/
def State.checkContext (s : State) (c : Nat) : Option CfgRefusal :=
  let first := s.get (PE_CXnRANGE_FIRST c)
  let last := s.get (PE_CXnRANGE_LAST c)
  let inside := fun e => decide (first ≤ e) && decide (e ≤ last)
  let off := (List.range 24).find? fun ch => bitOf (s.get (PE_CXnCHM_CHMASK c)) ch && !s.channelOn ch
  firstOf (outOfRange (decide (895 < s.get (PE_CXnDATA_BASE c)) || decide (895 < s.get (PE_CXnDATA_LIMIT c))) c) <|
  firstOf (outOfRange (s.undeclared (s.get (PE_CXnCTL_PART c)) || s.get (PE_CXnCTL_FB c) == 3 || s.get (PE_CXnCTL_REFILL c) == 0
    || !inside (s.get (PE_CXnPROG_MEAS c)) || !inside (s.get (PE_CXnPROG_LOGIC c))
    || Nat.land (s.get (PE_CXnFBF_FLAGS c)) (s.get (PE_CXnFLM_FLAGS c)) != s.get (PE_CXnFBF_FLAGS c)) c)
    (conflict off.isSome (0x2000 + c) 0 c (off.getD 0))

/-- Program ranges or data areas of two contexts overlap (06 R219). -/
def State.checkContexts (s : State) (c d : Nat) : Option CfgRefusal :=
  let meet := fun (lo hi : Nat → Nat) => decide (lo c ≤ hi d) && decide (lo d ≤ hi c)
  conflict (meet (fun x => s.get (PE_CXnRANGE_FIRST x)) (fun x => s.get (PE_CXnRANGE_LAST x))
    || meet (fun x => s.get (PE_CXnDATA_BASE x)) (fun x => s.get (PE_CXnDATA_LIMIT x))) (0x2000 + c) (0x2000 + d) c d

/-- The budgets of the contexts stay within 12 000 bundles (01 R29). -/
def State.checkBundles (s : State) : Option CfgRefusal :=
  let l : List Share := s.declaredContexts.map fun c => { claimant := 0x2000 + c, num := s.get (PE_CXnBUD_BUD c), record := c }
  s.checkShares 0x0007 12000 l l 0 1

def State.checkPe (s : State) : Option CfgRefusal :=
  firstOf (firstRefusal (fun ch => outOfRange (s.get (AFE_CHnCFG_RANGE ch) == 3) ch) (List.range 24)) <|
  firstOf (firstRefusal s.checkContext s.declaredContexts) <|
  firstOf (firstPair s.checkContexts [] s.declaredContexts) s.checkBundles

/-- An instantaneous element on a channel that is off (08 R307). -/
def State.checkElement (s : State) (e : Nat) : Option CfgRefusal :=
  conflict (s.elOn e && !s.channelOn (s.elCh e)) 0x9000 0 e (s.elCh e)

/-- REFRESH of an enabled safety output against the period of the task that owns its request (08 R294). -/
def State.checkRefresh (s : State) (i : Nat) : Option CfgRefusal :=
  match s.imageEntries.find? fun e => s.imOut e && s.imKind e == 1 && s.imOffset e == 0 with
  | none => none
  | some e =>
    let n := s.imTask e
    conflict (s.gp (29 + i) 0 1 == 1 && decide (s.gp (29 + i) 5 10 * 100000 < s.taskPeriod n + 500000)) (0x1000 + n) 0 n (i + 1)

def State.checkGirth (s : State) : Option CfgRefusal :=
  firstOf (firstRefusal s.checkElement (List.range 8)) (firstRefusal s.checkRefresh (List.range 4))

/-! ### FIO and ALP (08 R309; 10 R346, R355, R371, R373, R374) -/

/-- An output entry of a non-safety task covers word 0 or 1 of the FIO output block (08 R309). -/
def State.checkRequestWords (s : State) (e : Nat) : Option CfgRefusal :=
  let lo := s.imOffset e
  let hi := lo + s.imLength e
  conflict (s.imOut e && s.imKind e == 1 && !s.taskSafety (s.imTask e) && decide (lo ≤ 1)) (0x1000 + s.imTask e) 0 e
    (if lo = 1 ∧ 1 < hi then 1 else 0)

/-- The features that R374 keeps apart, by a code. A refusal names both in INDEX2, 16 x the first + the second: DESIGN CHOICE, log entry
28. -/
inductive Feature where
  | counter | otherInput | wireBreak | safetyPair | type3 | groupSetting | testPulse | diodeOr | girthOutput | keyCal | noInput | hart
deriving DecidableEq, Repr

def Feature.code : Feature → Nat
  | counter => 1 | otherInput => 2 | wireBreak => 3 | safetyPair => 4 | type3 => 5 | groupSetting => 6 | testPulse => 7 | diodeOr => 8
  | girthOutput => 9 | keyCal => 10 | noInput => 11 | hart => 12

/-- Two features of one record conflict (10 R374). -/
def featureConflict (bad : Bool) (index : Nat) (a b : Feature) : Option CfgRefusal := conflict bad 0 0 index (16 * a.code + b.code)

/-- Type 3 at a setting other than 24 V, code 0 (10 R346). -/
def State.checkInputGroup (s : State) (g : Nat) : Option CfgRefusal :=
  featureConflict (s.bit ⟨FIO_GCFG, 4 * g + 2, 1⟩ && s.get ⟨FIO_GCFG, 4 * g, 2⟩ != 0) (g + 1) .type3 .groupSetting

/-- An input: counters only on inputs 9 to 12, wire break neither with a counter nor in an enabled pair (10 R374). -/
def State.checkInput (s : State) (n : Nat) : Option CfgRefusal :=
  let cnt := s.get (FIO_INnCFG_CNT n) != 0
  let wb := s.bit (FIO_INnCFG_WBEN n)
  firstOf (featureConflict (cnt && (decide (n < 9) || decide (12 < n))) n .counter .otherInput) <|
  firstOf (featureConflict (cnt && wb) n .counter .wireBreak) <|
  firstOf (featureConflict (wb && decide (n ≤ 8) && s.pairOn ((n - 1) / 2)) n .safetyPair .wireBreak)
    (outOfRange (s.get (FIO_INnCFG_FILT n) == 0 && !cnt) n)

/-- An output: TP and DIODEOR exclude each other and are not for outputs 1 to 4 (10 R355, R374). -/
def State.checkOutput (s : State) (n : Nat) : Option CfgRefusal :=
  let tp := s.bit (FIO_OnCFG_TP n)
  let dior := s.bit (FIO_OnCFG_DIODEOR n)
  let per := s.get (FIO_OnCFG_TPPER n)
  firstOf (featureConflict (tp && dior) n .testPulse .diodeOr) <|
  firstOf (featureConflict (decide (n ≤ 4) && tp) n .testPulse .girthOutput) <|
  firstOf (featureConflict (decide (n ≤ 4) && dior) n .diodeOr .girthOutput) (outOfRange (per == 0 || decide (3600 < per)) n)

/-- A channel: MODE, ALM and TMO in range, KEYCAL on inputs only (10 R365, R373, R374, R378). -/
def State.checkLoop (s : State) (n : Nat) : Option CfgRefusal :=
  firstOf (outOfRange (s.get (ALP_CHnCFG_MODE n) == 3 || s.get (ALP_CHnCFG_ALM n) == 3 || decide (10000 < s.get (ALP_CHnCFG_TMO n))) n)
    (featureConflict (s.bit (ALP_CHnCFG_KEYCAL n) && s.get (ALP_CHnCFG_MODE n) != 1) n .keyCal .noInput)

/-- An exclusive HART claim with any other claim on the same modem, channels 0 to 3 and 4 to 7 (10 R371). -/
def State.checkHart (s : State) (n m : Nat) : Option CfgRefusal :=
  let claims := fun c => s.bit (ALP_CHnCFG_HART c) || s.bit (ALP_CHnCFG_HEXCL c)
  conflict (n / 4 == m / 4 && claims n && claims m && (s.bit (ALP_CHnCFG_HEXCL n) || s.bit (ALP_CHnCFG_HEXCL m))) 0 0 n m

def State.checkField (s : State) : Option CfgRefusal :=
  firstOf (firstRefusal s.checkRequestWords s.imageEntries) <|
  firstOf (firstRefusal s.checkInputGroup (List.range 3)) <|
  firstOf (firstRefusal s.checkInput ((List.range 24).map (· + 1))) <|
  firstOf (firstRefusal s.checkOutput ((List.range 16).map (· + 1))) <|
  firstOf (firstRefusal s.checkLoop (List.range 8)) (firstPair s.checkHart [] (List.range 8))

/-! ### NET (11 R382, R388, R400) -/

def State.enabledFlows (s : State) : List Nat := (List.range 256).filter s.flowOn

/-- Fields of a flow (11 R382, R398, R409): safe data come in steps of 4 bytes. -/
def State.checkFlow (s : State) (f : Nat) : Option CfgRefusal :=
  let safe := s.flowSafe f
  let len := s.flowLen f
  let per := s.get (NET_FD4_PERD.at f)
  let time := s.get (NET_FD5_TIME.at f)
  let skew := s.get (NET_FD8_SKEW.at f)
  let lenBad := if safe then outside len 16 256 || len % 4 != 0 else outside len 4 1432
  let sendBad := decide (per < 1) || decide (8192 < per) || decide (per ≤ s.get (NET_FD4_OFFS.at f))
    || (safe && (decide (time < 30) || decide (1000 < time)))
  let recvBad := time == 0 || (safe && (s.get (NET_FD8_SEQWIN.at f) == 0 || s.get (NET_FD8_RECOV.at f) == 0 || skew == 0
    || decide (200 < skew)))
  firstOf (outOfRange (s.undeclared (s.get (NET_FD0_PART.at f)) || decide (1 < s.get (NET_FD0_KIND.at f)) || lenBad
    || s.get (NET_FD3_VID.at f) == 4095
    || (if s.flowTransmits f then sendBad else recvBad)) f)
    (conflict (safe && s.flowPort f 2) (0x5000 + f) 0 f 2)

/-- Two flows: receive flows that match the same messages, safe flows with one SID (11 R382). -/
def State.checkFlows (s : State) (f g : Nat) : Option CfgRefusal :=
  let peer := fun x => s.get (NET_FD2_VALUE.at x)
  let share := (List.range 3).any fun p => s.flowPort f p && s.flowPort g p
  let rx := !s.flowTransmits f && !s.flowTransmits g && share && s.get (NET_FD1_VALUE.at f) == s.get (NET_FD1_VALUE.at g)
    && (peer f == 0 || peer g == 0 || peer f == peer g)
  let sid := s.flowSafe f && s.flowSafe g && s.rd (bank NET_FD6 f) == s.rd (bank NET_FD6 g)
    && s.rd (bank NET_FD7 f) == s.rd (bank NET_FD7 g)
  conflict (rx || sid) (0x3000 + f) (0x3000 + g) f g

/-- Speed of a port as configured, in Mbit/s (01 R29; 11 R388). -/
def State.portSpeed (s : State) (p : Nat) : Nat :=
  match s.get (NET_PnCFG_SPEED p) with
  | 2 => 1000
  | 1 => 100
  | _ => 0

/-- Shares of port `p` in bit/s: reserved bandwidths, and safe flows by frame bits per send period (11 R388). -/
def State.portShares (s : State) (p : Nat) : List Share :=
  s.enabledFlows.filterMap fun f =>
    if !s.flowTransmits f || !s.flowPort f p then none
    else if s.flowSafe f then
      some { claimant := 0x5000 + f, num := frameLength (s.flowTagged f p) (s.flowLen f) * 8 * 8000, den := s.get (NET_FD4_PERD.at f)
             record := f : Share }
    else if s.get (NET_FD5_RESV.at f) = 0 then none
    else some { claimant := 0x3000 + f, num := s.get (NET_FD5_RESV.at f) * 100000, record := f : Share }

/-- A port's fields (11 R409), its reservations (R388). DEDUCED: the prefix length, which resets to a value outside its range, is checked
on a port with an address; log entry 21. -/
def State.checkPort (s : State) (p : Nat) : Option CfgRefusal :=
  let prefix_ := s.get (NET_PnCFG_PREFIX p)
  firstOf (outOfRange (s.get (NET_PnCFG_SPEED p) == 3 || (p == 2 && s.get (NET_PnCFG_SPEED p) == 2) || s.get (NET_PnCFG_VID p) == 4095
      || (s.rd (NET_PnIP p) != 0#32 && (decide (prefix_ < 8) || decide (30 < prefix_)))) p)
    (s.checkShares (0x0008 + p) (s.portSpeed p * 1000000) (s.portShares p) (s.portShares p) 0 1)

/-- Time in ns of a frame of `len` bytes with preamble and gap at port `p` (11 R387). -/
def State.frameTime (s : State) (p len : Nat) : Nat := (len + 20) * (if s.portSpeed p = 1000 then 8 else 80)

/-- The safe flows that send at one edge on port `p` against the smallest DEADL among them (11 R400). -/
def State.checkSafePort (s : State) (p : Nat) : Option CfgRefusal :=
  let flows := s.enabledFlows.filter fun f => s.flowSafe f && s.flowTransmits f && s.flowPort f p
  let tagged := s.get (NET_PnCFG_VID p) != 0
  let fixed := s.frameTime p 1522 + s.frameTime p (frameLength tagged 48) + s.frameTime p (s.ptpLength 0xB)
  let time := fun f => s.frameTime p (frameLength (s.flowTagged f p) (s.flowLen f))
  let deadl := fun f => s.get (NET_FD5_TIME.at f) * 1000
  let excess := fun (l : List Nat) =>
    !l.isEmpty && decide (l.foldl (fun m f => min m (deadl f)) 1000000 < l.foldl (fun a f => a + time f) fixed)
  match crowdedSet (fun f => (s.get (NET_FD4_OFFS.at f), s.get (NET_FD4_PERD.at f))) excess [] flows with
  | none => none
  | some l =>
    let shares : List Share := l.map fun f => { claimant := 0x5000 + f, num := time f, record := f }
    let limit := l.foldl (fun m f => min m (deadl f)) 1000000
    s.checkShares (0x0008 + p) limit shares shares fixed 1

/-- Rings of an undeclared partition (01 R16). -/
def State.checkRings (s : State) : Option CfgRefusal :=
  outOfRange ((s.bit NET_RXCFG_EN && s.undeclared (s.get NET_RXCFG_PART)) || (s.bit NET_TXCFG_EN && s.undeclared (s.get NET_TXCFG_PART))) 0

/-- Fields of TIME (11 R397, R410). -/
def State.checkTime (s : State) : Option CfgRefusal :=
  outOfRange (decide (7 < s.get TIME_PTPCFG_SYNCI) || decide (3 < s.get TIME_PTPCFG_ANNI) || outside (s.get TIME_PTPCFG_ANNTO) 2 10) 0

def State.checkNet (s : State) : Option CfgRefusal :=
  firstOf s.checkTime <|
  firstOf (firstRefusal s.checkFlow s.enabledFlows) <|
  firstOf (firstPair s.checkFlows [] s.enabledFlows) <|
  firstOf s.checkRings <|
  firstOf (firstRefusal s.checkPort (List.range 3)) (firstRefusal s.checkSafePort (List.range 2))

/-! ### OCT (12 R419, R420) -/

/-- Span of an entry in units of 10 ns (12 R420). -/
def State.octSpan (s : State) (i : Nat) : Nat × Nat :=
  let at_ := s.get (OCT_ED0_OFFS.at i)
  let tf := octTf (s.edLenw i) / 10
  match s.edKind i with
  | 2 => (at_, at_ + tf)
  | 3 => (at_ - 100, at_ + 100 + tf)
  | _ => (at_, at_ + 356 + s.get OCT_CFG_RTDMAX + 100 + tf)

/-- Fields of a schedule entry (12 R418, R419, R440). -/
def State.checkOctFields (s : State) (i : Nat) : Option CfgRefusal :=
  let off := s.get (OCT_ED0_OFFS.at i)
  let kind := s.edKind i
  let e := s.get (OCT_ED0_EXP.at i)
  let n := s.edLenw i
  let addrBad := if kind % 2 = 1 then s.edAddr i == 0 || s.edAddr i == 127 else s.edAddr i != 0
  outOfRange (addrBad || decide (off < 648) || decide (49800 < off) || kind == 0 || decide (4 < kind) || decide (s.get OCT_CFG_MACRO < e)
    || decide (2 ^ e ≤ s.get (OCT_ED1_PHASE.at i)) || n == 0 || decide (64 < n) || (kind == 4 && decide (n < 4))) i

/-- The refusal of entry `i` on its channel: the other claimant is the channel's other entry of the highest index (01 R31). -/
def State.octRefusal (s : State) (i : Nat) : CfgRefusal :=
  let l : List Share := (s.octEntries.filter fun e => s.edCh e == s.edCh i).map fun e => { claimant := 0x4000 + e, num := 1, record := e }
  s.shareRefusal (0x000B + s.edCh i) l { claimant := 0x4000 + i, num := 1, record := i }

/-- An entry's span against START and the end of the period (12 R420). -/
def State.checkOctSpan (s : State) (i : Nat) : Option CfgRefusal :=
  let sp := s.octSpan i
  if sp.1 < 648 ∨ 49800 < sp.2 then some (s.octRefusal i) else none

/-- Two entries active together on one channel less than 2.00 µs apart (12 R418, R420). -/
def State.checkOctPair (s : State) (i j : Nat) : Option CfgRefusal :=
  let g := 2 ^ min (s.get (OCT_ED0_EXP.at i)) (s.get (OCT_ED0_EXP.at j))
  let together := s.get (OCT_ED1_PHASE.at i) % g == s.get (OCT_ED1_PHASE.at j) % g
  let a := s.octSpan i
  let b := s.octSpan j
  if s.edCh i = s.edCh j ∧ together ∧ a.1 < b.2 + 200 ∧ b.1 < a.2 + 200 then some (s.octRefusal i) else none

/-- Port descriptors in use. -/
def State.octPorts (s : State) : List Nat :=
  (s.regs.filterMap fun e => if e.1 % 0x100000000 = OCT_PCFG then some (e.1 / 0x100000000) else none).filter fun d =>
    s.bit (OCT_PCFG_EN.at d)

def State.checkOctPort (s : State) (d : Nat) : Option CfgRefusal :=
  let n := s.get (OCT_PCFG_LENW.at d)
  outOfRange (n == 0 || decide (64 < n) || s.get (OCT_PCFG_TMO.at d) == 0) d

def State.checkOctPorts (s : State) (d e : Nat) : Option CfgRefusal :=
  conflict (s.get (OCT_PCFG_PORT.at d) == s.get (OCT_PCFG_PORT.at e)) 0 0 d e

/-- The schedule identity computed (12 R419). -/
def State.scheduleCrc (s : State) : Nat :=
  crcWords ((List.range 4096).flatMap fun i => [s.rd (bank OCT_ED0 i), s.rd (bank OCT_ED1 i), s.rd (bank OCT_ED2 i)])

def State.checkOct (s : State) : Option CfgRefusal :=
  if s.octAddr = 0 then none
  else
    firstOf (outOfRange (s.octAddr == 127 || decide (250 < s.get OCT_CFG_RTDMAX) || decide (10 < s.get OCT_CFG_MACRO)) 0) <|
    firstOf (firstRefusal s.checkOctFields s.octEntries) <|
    firstOf (firstRefusal s.checkOctSpan s.octEntries) <|
    firstOf (firstPair s.checkOctPair [] s.octEntries) <|
    firstOf (firstRefusal s.checkOctPort s.octPorts) <|
    firstOf (firstPair s.checkOctPorts [] s.octPorts) (outOfRange (s.scheduleCrc != s.get OCT_SCHID_CRC) 0)

/-! ### BRG (13 R443, R448, R455, R459) -/

def State.brgWindows (s : State) : List Nat := (List.range 16).filter fun n => s.bit (BRG_WnCTL_EN n)
def State.windowBase (s : State) (n : Nat) : Nat := 0xC0000000 + s.get (BRG_WnBASE_UNIT n) * 0x10000
def State.windowSize (s : State) (n : Nat) : Nat := 2 ^ s.get (BRG_WnCTL_SIZE n)
def State.windowPart (s : State) (n : Nat) : Nat := s.get (BRG_WnCTL_PART n)

/-- A window: owner declared, size, alignment in both spaces; granted to no other partition (13 R443). -/
def State.checkBrgWindow (s : State) (n : Nat) : Option CfgRefusal :=
  let size := s.get (BRG_WnCTL_SIZE n)
  let lo := s.windowBase n
  let hi := lo + s.windowSize n - 1
  let meets := fun (g : Nat × Nat) => decide (g.1 ≤ hi) && decide (lo ≤ g.2)
  let other := s.sys.parts.find? fun q => q.index != s.windowPart n && (meets (q.lo, q.hi) || q.grants.any meets)
  firstOf (outOfRange (s.undeclared (s.windowPart n) || decide (size < 16) || decide (29 < size)
    || decide (lo % s.windowSize n ≠ 0) || decide (s.get (BRG_WnTGT_UNIT n) * 0x10000 % s.windowSize n ≠ 0)
    || decide (0xE0000000 ≤ hi)) n)
    (conflict other.isSome (0x6000 + (other.map (·.index)).getD 0) (0x6000 + s.windowPart n) n 0)

def State.checkBrgWindows (s : State) (n m : Nat) : Option CfgRefusal :=
  conflict (decide (s.windowBase n < s.windowBase m + s.windowSize m) && decide (s.windowBase m < s.windowBase n + s.windowSize n))
    (0x6000 + s.windowPart n) (0x6000 + s.windowPart m) n m

/-- Credits of class O3 or O4 (13 R447, R448): the field, the capacity. -/
def State.checkCredits (s : State) (f : Fld) (capacity : Nat) : Option CfgRefusal :=
  let l : List Share := (List.range 32).filterMap fun p =>
    if s.get (f.at p) = 0 then none else some { claimant := 0x6000 + p, num := s.get (f.at p), record := p }
  firstOf (firstRefusal (fun (x : Share) => outOfRange (s.undeclared x.record) x.record) l) (s.checkShares 0x000D capacity l l 0 1)

/-- Each station takes one entry of O1 and one tag of O2, 16 each (13 R447, R448). -/
def State.checkStationCredits (s : State) : Option CfgRefusal :=
  let l : List Share := s.brgStations.map fun i => { claimant := 0x6000 + s.stationPart i, num := 1, record := i }
  s.checkShares 0x000D 16 l l 0 1

/-- Fields of a station (13 R455). -/
def State.checkStation (s : State) (i : Nat) : Option CfgRefusal :=
  let per := s.get (BRG_SD3_PERD.at i)
  let lead := s.get (BRG_SD4_LEAD.at i)
  outOfRange (decide (3839 < s.sdStation i) || decide (64 < s.get (BRG_SD0_INLEN.at i)) || decide (64 < s.get (BRG_SD0_OUTLEN.at i))
    || decide (per < 1) || decide (8192 < per) || decide (per ≤ s.get (BRG_SD3_OFFS.at i)) || decide (lead < 5) || decide (120 < lead)
    || s.get (BRG_SD4_TMO.at i) == 0) i

/-- Words of the block a route reads or writes, if the configuration declares it (13 R459). -/
def State.routeBlock (s : State) (kind id : Nat) (dest : Bool) : Option Nat :=
  match kind with
  | 3 =>
    if dest && decide (3840 ≤ id) then some 1024
    else (s.brgStations.find? fun i => s.sdStation i == id).map fun i => s.get ((if dest then BRG_SD0_OUTLEN else BRG_SD0_INLEN).at i)
  | 4 => (s.octPortIndex id dest).map fun d => s.get (OCT_PCFG_LENW.at d)
  | 5 => if s.flowOn id && s.flowTransmits id == dest then some ((s.flowLen id + 3) / 4) else none
  | _ => none

def State.routePart (s : State) (k : Nat) : Nat := s.get ⟨bank BRG_RD2 k, 0, 5⟩
def State.routes (s : State) : List Nat := List.range (s.get BRG_RCOUNT_COUNT)

/-- One route: enabled, in key order, declared, inside its blocks; no safe telegram flow, no gateway station as source. -/
def State.checkRoute (s : State) (k : Nat) : Option CfgRefusal :=
  let sk := s.routeKey k % 16
  let sid := s.routeKey k / 16
  let dk := s.routeDkind k
  let did := s.routeDid k
  let len := s.routeLen k
  let inside := fun (b : Option Nat) (off : Nat) => match b with
    | some n => decide (1 ≤ len) && decide (off + len ≤ n)
    | none => false
  let gateway := sk == 3 && decide (3840 ≤ sid)
  let safe := (sk == 5 && s.flowSafe sid) || (dk == 5 && s.flowSafe did)
  firstOf (outOfRange (s.undeclared (s.routePart k) || !s.bit ⟨bank BRG_RD2 k, 31, 1⟩
    || (k != 0 && decide (s.routeKey k < s.routeKey (k - 1)))) k) <|
  firstOf (conflict (gateway || safe) (0x6000 + s.routePart k) 0 k 0)
    (outOfRange (!inside (s.routeBlock sk sid false) (s.routeSoff k) || !inside (s.routeBlock dk did true) (s.routeDoff k)) k)

/-- Two ranges of words meet. -/
def rangesMeet (a n b m : Nat) : Bool := decide (a < b + m) && decide (b < a + n)

def State.checkRoutePair (s : State) (k l : Nat) : Option CfgRefusal :=
  conflict (s.routeDkind k == s.routeDkind l && s.routeDid k == s.routeDid l
    && rangesMeet (s.routeDoff k) (s.routeLen k) (s.routeDoff l) (s.routeLen l)) (0x6000 + s.routePart k) (0x6000 + s.routePart l) k l

/-- A route and an output image entry write a common word (13 R459). -/
def State.checkRouteEntry (s : State) (k : Nat) : Option CfgRefusal :=
  match s.imageEntries.find? fun e => s.imOut e && s.imKind e == s.routeDkind k && s.imStation e == s.routeDid k
      && rangesMeet (s.imOffset e) (s.imLength e) (s.routeDoff k) (s.routeLen k) with
  | some e => conflict true (0x6000 + s.routePart k) (0x6000 + s.taskPart (s.imTask e)) k e
  | none => none

def State.checkBrg (s : State) : Option CfgRefusal :=
  firstOf (outOfRange (outside (s.get BRG_CFG_CTO) 10 1000 || outside (s.get BRG_CFG_PWLIM) 200 900 || s.get BRG_CFG_RAHOLD == 0) 0) <|
  firstOf (firstRefusal s.checkBrgWindow s.brgWindows) <|
  firstOf (firstPair s.checkBrgWindows [] s.brgWindows) <|
  firstOf (s.checkCredits BRG_CRDAT_O3 32) <|
  firstOf (s.checkCredits BRG_CRDAT_O4 14) <|
  firstOf (firstRefusal s.checkStation s.brgStations) <|
  firstOf s.checkStationCredits <|
  firstOf (outOfRange (decide (16384 < s.get BRG_RCOUNT_COUNT)) 0) <|
  firstOf (firstRefusal s.checkRoute s.routes) <|
  firstOf (firstPair s.checkRoutePair [] s.routes) (firstRefusal s.checkRouteEntry s.routes)

/-! ### PAIR (14 R472, R474, R477) -/

/-- Tracked regions in use. -/
def State.trackedEntries (s : State) : List Nat := (List.range 16).filter fun r => s.bit (PAIR_RrCFG_EN r)

/-- Bytes of the region of a tracked entry. -/
def State.trackedBytes (s : State) (r : Nat) : Nat :=
  let n := s.get (PAIR_RrCFG_REGION r)
  (s.get (MEM_REGnL_LIMIT n) + 1 - s.get (MEM_REGnB_BASE n)) * 4096

/-- Bytes of the tracked regions of a task. -/
def State.taskTracked (s : State) (n : Nat) : Nat :=
  ((s.trackedEntries.filter fun r => s.get (PAIR_RrCFG_TASK r) == n).map s.trackedBytes).foldl (· + ·) 0

/-- Words of the kind 7 output block: up to the last word an output entry writes. -/
def State.partnerWords (s : State) : Nat :=
  (s.imageEntries.filter fun e => s.imOut e && s.imKind e == 7).foldl (fun m e => max m (s.imOffset e + s.imLength e)) 0

/-- The bandwidth that the configuration reserves for the state transfer on the pair link, in Mbit/s (01 R29; 14 R474). -/
def State.pairReserved (s : State) : Nat :=
  ((s.sharesOf 0x000E).filter fun x => x.claimant == 0xA002).foldl (fun a x => a + x.num) 0

/-- A refusal on the pair link: the second claimant is R31's among `l` and the shares declared on the link. DESIGN CHOICE, log entry 28:
R474 and R477 name one claimant only, R31 gives the other. -/
def State.pairRefusal (s : State) (l : List Share) (x : Share) : CfgRefusal := s.shareRefusal 0x000E (l ++ s.sharesOf 0x000E) x

/-- The pair link against the bandwidth reserved on it: heartbeats and kind 7 blocks every tick, tracked regions and 64 bytes once per
period of their task; then the staging buffer of 4 MiB (14 R473, R474). -/
def State.checkPairLink (s : State) : Option CfgRefusal :=
  let tasks := s.enabledTasks.filter fun n => s.taskTracked n != 0
  let base : Share := { claimant := 0xA002, num := (48 + 4 * s.partnerWords) * 8 * 8000, record := 0 }
  let l := base :: tasks.map fun n =>
    ({ claimant := 0xA002, num := (s.taskTracked n + 64) * 8 * 8000, den := s.get (CYC_TnPER_PER n), record := n } : Share)
  let claims := tasks.map fun n => ({ claimant := 0x1000 + n, num := s.taskTracked n, record := n } : Share)
  firstOf (s.checkShares 0x000E (s.pairReserved * 1000000) (l ++ s.sharesOf 0x000E) l 0 1) <|
    match claims.getLast? with
    | some x => if 0x400000 < claims.foldl (fun a y => a + y.num) 0 then some (s.pairRefusal claims x) else none
    | none => none

/-- The input snapshot of any edge stays within 1024 words (14 R477). -/
def State.checkSnapshot (s : State) : Option CfgRefusal :=
  let words := fun n => ((s.imageEntries.filter fun e => !s.imOut e && s.imKind e != 7 && s.imTask e == n).map s.imLength).foldl (· + ·) 0
  let excess := fun (l : List Nat) => decide (1024 < (l.map words).foldl (· + ·) 0)
  let edge := fun n => (s.get (CYC_TnPER_OFFS n), s.get (CYC_TnPER_PER n))
  match crowdedSet edge excess [] s.enabledTasks with
  | some l => some (s.pairRefusal [] { claimant := 0xA002, num := 0, record := (l.getLast?).getD 0 })
  | none => none

def State.checkTracked (s : State) (r : Nat) : Option CfgRefusal :=
  outOfRange (!s.bit (MEM_REGnL_EN (s.get (PAIR_RrCFG_REGION r))) || !s.bit (CYC_TnREL_EN (s.get (PAIR_RrCFG_TASK r)))) r

def State.checkPair (s : State) : Option CfgRefusal :=
  let mode := s.get PAIR_CFG_MODE
  let loss := s.get PAIR_CFG_NETLOSS
  if mode = 0 then none
  else
    firstOf (outOfRange (mode == 3 || decide (loss < 8) || decide (400 < loss) || s.get PAIR_CFG_DIVLIM == 0) 0) <|
    firstOf (firstRefusal s.checkTracked s.trackedEntries) <|
    firstOf s.checkPairLink (if mode = 2 then s.checkSnapshot else none)

/-! ### REC and BIST (09 R322, R323; 15 R507) -/

/-- Codes a limiter entry may not name (09 R322). -/
def unlimited (code : Nat) : Bool :=
  code == 0x1006 || code == 0x1007 || code == 0x1008 || code == 0x6003 || code == 0x600E || code == 0x600F
    || (decide (0xC006 ≤ code) && decide (code ≤ 0xC009))

/-- Limiter entries in use. -/
def State.limits (s : State) : List Nat := (List.range 256).filter fun e => fieldGet (s.rd (bank REC_RLDAT0 e)) 31 1 == 1

def State.limitCode (s : State) (e : Nat) : Nat := fieldGet (s.rd (bank REC_RLDAT0 e)) 0 16

def State.checkLimit (s : State) (e : Nat) : Option CfgRefusal :=
  outOfRange (unlimited (s.limitCode e) || s.burst e == 0 || s.period e == 0) e

def State.checkLimits (s : State) (e f : Nat) : Option CfgRefusal := conflict (s.limitCode e == s.limitCode f) 0 0 e f

/-- An address a snapshot set may hold: in the register window, and no field of access RS there (09 R323). An address without a
register gives a failed read when the snapshot is taken. -/
def snapshotReadable (addr : Nat) : Bool :=
  decide (0x40000000 ≤ addr) && decide (addr < 0x41000000) && match regInfo addr with
    | some i => i.fields.all fun f => f.acc != .rs
    | none => true

def State.checkSnapshotSet (s : State) (set : Nat) : Option CfgRefusal :=
  outOfRange ((s.snapshotSlots set).any fun e => !snapshotReadable e.2) set

def State.checkRec (s : State) : Option CfgRefusal :=
  firstOf (outOfRange (outside (s.get REC_DCFG_PRE) 1 20 || outside (s.get REC_DCFG_POST) 1 100) 0) <|
  firstOf (firstRefusal s.checkLimit s.limits) <|
  firstOf (firstPair s.checkLimits [] s.limits) (firstRefusal s.checkSnapshotSet (List.range 32))

def State.checkBist (s : State) : Option CfgRefusal :=
  outOfRange (s.get BIST_CFG_LAPMAX == 0 || decide (24 < s.get BIST_CFG_LAPMAX)) 0

/-! ### All of them -/

/-- Every check of CONFIGURE on the registers as they stand (15 R501). -/
def State.checkAll (s : State) : Option CfgRefusal :=
  firstOf s.checkMem <| firstOf (s.checkCyc 0) <| firstOf s.checkPe <| firstOf s.checkGirth <| firstOf s.checkField <|
  firstOf s.checkNet <| firstOf s.checkOct <| firstOf s.checkBrg <| firstOf s.checkPair <| firstOf s.checkRec s.checkBist

end Sys2Proof.Machine
end

