-- ==== Sys2Proof/Machine/OnlineChange.lean ====
section
/-!
DEFINITION. ARM, REVERT, CONFIRM and ABANDON of an online change and the parts of the switch that step 7 uses (05 R195 to
R200); PREPARE and the mailbox are in Change.lean. The package arrives decoded: the spec does not give its layout in memory (log entry 11).
-/

namespace Sys2Proof.Machine

open Reg

/-- Write the changed tasks' descriptors and image map entries (05 R197, item 4). -/
def State.applyDescriptors (s : State) (p : ChangePackage) : State :=
  let s := p.entries.foldl (fun s e =>
    ((s.wr (bank CYC_IMD0 e.index) (e.d0 &&& fieldBits CYC_IMD0)).wr (bank CYC_IMD1 e.index) (e.d1 &&& fieldBits CYC_IMD1)).wr
      (bank CYC_IMD2 e.index) (e.d2 &&& fieldBits CYC_IMD2)) s
  p.tasks.foldl (fun s t =>
    let a := t.task
    let s := ((s.wr (CYC_TnPER a) (t.per &&& fieldBits (CYC_TnPER 0))).wr (CYC_TnREL a) (t.rel &&& fieldBits (CYC_TnREL 0))).wr
      (CYC_TnBUD a) (t.bud &&& fieldBits (CYC_TnBUD 0))
    s.setBit (CYC_TnREL_SAFETY a) (s.taskSafety a)) s

/-- The switch time of a package in ns (05 R195). -/
def switchTime (p : ChangePackage) : Nat :=
  let e := p.carry.length + p.entries.length + p.tasks.length + p.sources.length
  let w := (p.carry.map (·.words)).foldl (· + ·) 0
  8000 + 100 * e + (5 * w + 1) / 2

/-- The tasks of the changed partitions. -/
def State.changedTasks (s : State) (parts : Nat) : List Nat :=
  s.enabledTasks.filter fun n => parts / 2 ^ s.taskPart n % 2 == 1

/-- Whether a tick is a period start of a task (05 R166); in a gapless pair the standby's follow the active's numbers (14 R477). -/
def State.isPeriodStart (s : State) (n tick : Nat) : Bool :=
  isPoint tick (s.get (CYC_TnPER_PER n)) (s.get (CYC_TnPER_OFFS n)) s.pair.shift

/-- An edge is eligible if it is a period start of every task of every changed partition (05 R196). -/
def State.eligible (s : State) (parts tick : Nat) : Bool := (s.changedTasks parts).all fun n => s.isPeriodStart n tick

/-- Whether the changed tasks have a common period start: pairwise congruent phases (05 R194). -/
def State.haveCommonStart (s : State) (l : List Nat) : Bool :=
  l.all fun a => l.all fun b =>
    let g := Nat.gcd (s.get (CYC_TnPER_PER a)) (s.get (CYC_TnPER_PER b))
    s.get (CYC_TnPER_OFFS a) % g == s.get (CYC_TnPER_OFFS b) % g

/-- Whether bytes [lo, hi] lie in the window of a changed partition or in the package area (05 R194). -/
def State.inChangeArea (s : State) (parts lo hi : Nat) : Bool :=
  (s.sys.parts.any fun q => parts / 2 ^ q.index % 2 == 1 && decide (q.lo ≤ lo) && decide (hi ≤ q.hi))
    || (decide (s.get SYS_PKGA_VALUE ≤ lo) && decide (hi < s.get SYS_PKGA_VALUE + s.get SYS_PKGL_VALUE))

/-- Whether every address of the package lies where it may (05 R194); of the new program's data, of what it does not share with the
running one. -/
def State.packageAddressesOk (s : State) (p : ChangePackage) : Bool :=
  let ok := s.inChangeArea p.parts
  ((p.carry ++ p.reverse).all fun r => ok r.src (r.src + 4 * r.words - 1) && ok r.dst (r.dst + 4 * r.words - 1))
    && (p.entries.all fun e => !(fieldGet e.d0 31 1 == 1)
          || ok (fieldGet e.d2 2 30 * 4) (fieldGet e.d2 2 30 * 4 + 4 * fieldGet e.d1 16 11 - 1))
    && (p.tasks.all fun t => ok t.entry.toNat (t.entry.toNat + 3))
    && (p.data.retained.all fun e => s.sys.program.retained.contains e || ok e.2.1 (e.2.1 + 3))
    && (p.data.initial.all fun e => s.sys.program.initial.contains e || ok e.2.1 (e.2.1 + 3))
    && (p.data.cleared.all fun r => s.sys.program.cleared.contains r || r.2.2 == 0 || ok r.2.1 (r.2.1 + r.2.2 - 1))
    && (p.data.pairEntries.all fun e => s.sys.program.pairEntries.contains e || ok e.2.toNat (e.2.toNat + 3))

/-- CYC_OCSTAT.STATE codes (05 R193). -/
def ocIdle : Nat := 0
def ocPrepared : Nat := 1
def ocArmed : Nat := 2
def ocSwitched : Nat := 3
def ocRevertArmed : Nat := 4

def State.ocState (s : State) : Nat := s.get CYC_OCSTAT_STATE
def State.setOc (s : State) (st : Nat) : State := s.set CYC_OCSTAT_STATE st

/-- The change's partitions. -/
def State.changeParts (s : State) : Nat := s.get CYC_OCPARTS_PARTS

/-- The tick number CYC_OCEDGE names: the next one with those low bits; none if it has passed or is not eligible (05 R196). -/
def State.namedEdge (s : State) : Option Nat :=
  let want := s.get CYC_OCEDGE_TICK
  let d := (want + 2 ^ 32 - s.tick % 2 ^ 32) % 2 ^ 32
  if d = 0 ∨ 2 ^ 31 ≤ d ∨ !s.eligible s.changeParts (s.tick + d) then none else some (s.tick + d)

/-- In a pair the standby must have accepted PREPARE of the same package (14 R482). -/
def State.standbyPrepared (s : State) : Bool :=
  let standby := s.get PAIR_CFG_MODE != 0 && (s.bit PAIR_STAT_XL || s.bit PAIR_STAT_NA || s.bit PAIR_STAT_NB)
    && ((s.pair.partner).map (·.role)) == some 2
  !standby || s.pair.prepared == s.cyc.change.map (·.identity)

/-- ARM (05 R196; 14 R482). DESIGN CHOICE, log entry 44: event 0x300D shows 0 where CYC_OCEDGE is 0, for the first eligible edge. -/
def armChange (s : State) : State × Nat :=
  if s.ocState ≠ ocPrepared ∨ (s.get PAIR_STAT_ROLE = 1 ∧ !s.standbyPrepared) then (s, 11)
  else if s.get CYC_OCEDGE_TICK = 0 then
    (((s.withCyc fun c => { c with armedEdge := 0 }).setOc ocArmed).set CYC_OCSTAT_HOLDS 0 |>.emit 0x300D [0], 0)
  else match s.namedEdge with
    | some e =>
      (((s.withCyc fun c => { c with armedEdge := e }).setOc ocArmed).set CYC_OCSTAT_HOLDS 0 |>.emit 0x300D [e % 2 ^ 32], 0)
    | none => (s, 10)

/-- REVERT, in SWITCHED only (05 R200). -/
def revertChange (s : State) : State × Nat :=
  if s.ocState = ocSwitched then
    (((s.withCyc fun c => { c with armedEdge := 0 }).setOc ocRevertArmed).set CYC_OCSTAT_HOLDS 0, 0)
  else (s, 11)

/-- CONFIRM ends the change (05 R200). -/
def confirmChange (s : State) : State × Nat :=
  if s.ocState = ocSwitched then
    let id := (s.cyc.change.map (·.identity)).getD 0
    (((s.withCyc fun c => { c with change := none, undo := none }).setOc ocIdle).emit 0x3012 [id], 0)
  else (s, 11)

/-- ABANDON, in PREPARED and ARMED (05 R193). Once step 7 has begun the change is being switched and is refused: DEDUCED, log entry
44. The time of event 0x3010 for causes 1 and 2 is the computed switch time: DESIGN CHOICE, same entry. -/
def abandonChange (s : State) : State × Nat :=
  if (s.ocState = ocPrepared ∨ s.ocState = ocArmed) ∧ s.cyc.switching.isNone then
    (((s.withCyc fun c => { c with change := none }).setOc ocIdle).emit 0x3010 [2, s.cyc.switchNs], 0)
  else (s, 11)

/-! ### The switch of step 7 -/

/-- What undoes a change: the old descriptors and sources of the base, the reverse table, the old variables (05 R200). -/
def State.undoOf (s : State) (p : ChangePackage) : ChangePackage :=
  { base := p.identity, identity := p.base, parts := p.parts, plannedNs := p.plannedNs, carry := p.reverse, reverse := p.carry
    entries := p.entries.map fun e =>
      ⟨e.index, s.rd (bank CYC_IMD0 e.index), s.rd (bank CYC_IMD1 e.index), s.rd (bank CYC_IMD2 e.index)⟩
    tasks := p.tasks.map fun t => ⟨t.task, s.rd (CYC_TnPER t.task), s.rd (CYC_TnREL t.task), s.rd (CYC_TnBUD t.task), t.back, t.entry⟩
    sources := p.sources.map fun e => (e.1, s.rd (MEM_REGnS e.1))
    vars := s.sys.program.vars
    data := s.sys.program }

/-- Copy one word for partition `part`: read with correction, refetch and poisoning like any read, written as poisoned or unwritten if
the source is, else with its data (05 R197, item 2; 04 R139, R152, R153, R158). DEDUCED, log entry 44: the copy acts for no task, so it
demands no SAFE under 04 R143; a word that answers with an error (04 R137, R160) is not copied. -/
def State.carryWord (s : State) (part bank src dst : Nat) : State :=
  match memoryKey bank src, memoryKey bank dst with
  | some a, some b =>
    if !s.wordReachable a || !s.wordReachable b || moduleMram b then s
    else
      let unwritten := match classify ((s.flushWord a).stored a) with
        | .unwritten _ => true
        | _ => false
      match s.readWord a (.block 4 part) with
      | (s, .data d) => ((s.breakReservations b none).flushWord b).putWord b (if unwritten then unwrittenMarker else encodeWord d)
      | (s, _) => ((s.breakReservations b none).flushWord b).putWord b poisonMarker
  | _, _ => s

/-- Copy a range in ascending order. -/
def State.carryRange (s : State) (r : CarryRange) : State :=
  let bank := ((s.partition r.part).map (·.bank)).getD 0
  (List.range r.words).foldl (fun s i => s.carryWord r.part bank (r.src + 4 * i) (r.dst + 4 * i)) s

/-- Re-key the forces against a variable table (05 R199). DESIGN CHOICE, log entry 44: the new type of event 0x300B is 0 for a variable
that the new table does not hold. -/
def State.rekeyForces (s : State) (vars : List VarEntry) : State :=
  (s.cyc.forces.foldl (fun s f =>
    match vars.find? fun v => v.vid == f.vid with
    | some v =>
      if v.type = f.type then
        s.withCyc fun c => { c with forces := c.forces.map fun x => if x.vid == f.vid then { x with entry := v.entry, bit := v.bit } else x }
      else (s.withCyc fun c => { c with forces := c.forces.filter fun x => x.vid != f.vid }).emit 0x300B [f.vid, f.type, v.type]
    | none => (s.withCyc fun c => { c with forces := c.forces.filter fun x => x.vid != f.vid }).emit 0x300B [f.vid, f.type, 0]) s).showForces

/-- Items 2 to 6 of the switch (05 R197, R198), `ns` the measured time. -/
def State.completeSwitch (s : State) (p : ChangePackage) (ns : Nat) (revert : Bool) : State :=
  let undo := s.uncover.undoOf p
  let s := p.carry.foldl State.carryRange s
  let s := p.sources.foldl (fun s e => s.wr (MEM_REGnS e.1) e.2) s
  let s := (s.changeBase fun s => s.applyDescriptors p).rekeyForces p.vars
  let s := p.tasks.foldl (fun s t =>
    (((s.wr (CYC_TnENTRY t.task) (t.entry &&& 0xFFFFFFFC#32)).setBit (CYC_TnSTAT_NEW t.task) true).setBit
      (CYC_TnSTAT_HELD t.task) false).setBit (CYC_TnSTAT_WAIT t.task) true) s
  let s := { s with sys := { s.sys with program := { p.data with identity := p.identity, vars := p.vars } } }
  let s := s.set CYC_OCTIME_NS ns
  if revert then
    ((s.withCyc fun c => { c with change := none, undo := none }).setOc ocIdle).emit 0x3011 [ns]
  else
    ((s.withCyc fun c => { c with undo := some undo }).setOc ocSwitched).emit 0x300E [ns, p.parts]

end Sys2Proof.Machine
end

