-- ==== Sys2Proof/Machine/PairOps.lean ====
section
/-!
DEFINITION. Operations of PAIR (14): paths and heartbeats (R463 to R465), corresponding edges (R466), the condition and the
role at step 2 (R467 to R471), tracked regions (R472, R473), take-over (R475, R476), divergence (R478), joins (R480, R481).
-/

namespace Sys2Proof.Machine

open Reg

def State.withPair (s : State) (f : PairBlock → PairBlock) : State := { s with pair := f s.pair }

/-- PAIR_CFG.MODE: 0 single, 1 bounded-gap, 2 gapless. -/
def State.pairMode (s : State) : Nat := s.get PAIR_CFG_MODE
/-- PAIR_STAT.ROLE: 0 none, 1 active, 2 standby, 3 joining. -/
def State.role (s : State) : Nat := s.get PAIR_STAT_ROLE
def State.pairReady (s : State) : Bool := s.bit PAIR_STAT_READY
def State.crossLink (s : State) : Bool := s.bit PAIR_STAT_XL
def State.slot (s : State) : Nat := s.get PAIR_STAT_SLOT
def State.partnerSlot (s : State) : Nat := s.get PAIR_STAT_PSLOT

/-- The unit's live line toggles: while Girth is ARMED (14 R463). -/
def State.liveLine (s : State) : Bool := s.get GIRTH_STAT_STATE == 1

/-- At least one data path is current. -/
def State.anyPath (s : State) : Bool := s.crossLink || s.bit PAIR_STAT_NA || s.bit PAIR_STAT_NB

/-- The role the partner's last heartbeat reports on a current path; 0 without one. -/
def State.partnerRole (s : State) : Nat := if s.anyPath then ((s.pair.partner).map (·.role)).getD 0 else 0

/-! ### Corresponding edges -/

/-- The own tick that corresponds to a tick number of the active, compared modulo 2^32 (14 R466). -/
def State.ownEdge (s : State) (active : Nat) : Nat :=
  ((s.tick : Int) + signedOf 32 ((active + 2 ^ 33 - s.get PAIR_DTICK_DTICK - s.tick % 2 ^ 32) % 2 ^ 32)).toNat

/-- Period starts of a task among the ticks from `lo` to before `hi`, by numbers `shift` more than the own ones (14 R475). -/
def State.startsIn (s : State) (n lo hi : Nat) (shift : Int) : Nat :=
  ((List.range (hi - lo)).filter fun i => isPoint (lo + i) (s.get (CYC_TnPER_PER n)) (s.get (CYC_TnPER_OFFS n)) shift).length

/-- The first period start of a task at or after a tick (05 R166). -/
def State.nextStart (s : State) (n tick : Nat) : Nat :=
  let per := s.get (CYC_TnPER_PER n)
  tick + (s.get (CYC_TnPER_OFFS n) + per - ((tick + s.pair.shift) % per).toNat) % per

/-- MONO of the active's edge that a cross-link heartbeat names, from the heartbeat's delay on the way. -/
def State.activeEdge (s : State) (delay : Nat) : Nat := s.mono - delay

/-- The lag of the own edge behind the corresponding edge of the active, in ns, from a heartbeat (14 R466). -/
def State.lagOf (s : State) (tick delay : Nat) : Int := s.ownEdge tick * 125000 - s.activeEdge delay

/-- DTICK and the offset are fixed: the own edge that corresponds to an edge of the active is the first at least 40 µs behind it (14
R466). The active's tick number in full follows from its MONO (01 R22). -/
def State.fixTime (s : State) (tick mono delay : Nat) : State :=
  let edge := s.activeEdge delay
  let own := (edge + 40000 + 124999) / 125000
  let d : Int := (mono / 125000 : Nat) - (own : Nat)
  let s := s.set PAIR_DTICK_DTICK ((tick + 2 ^ 32 - own % 2 ^ 32) % 2 ^ 32)
  let s := (s.set PAIR_OFFS_NS (own * 125000 - edge)).setBit PAIR_OFFS_HELD true
  s.withPair fun b => { b with dtick := d }

/-- A unit that has handed over fixes the correspondence anew (14 R466, R483). The new active has counted with this unit's schedule, at
edges 40 µs to 165 µs behind this unit's. -/
def State.refixTime (s : State) (tick mono delay : Nat) : State :=
  let number : Int := ((s.activeEdge delay - 40000) / 125000 : Nat) + s.pair.shift
  let s := s.fixTime tick mono delay
  let theirs := number - (mono / 125000 : Nat)
  s.withPair fun b => { b with partnerShift := theirs, shift := if s.pairMode = 2 then b.dtick + theirs else 0, refix := false }

/-! ### The heartbeat -/

/-- CRC-32C of the blocks stamped at own tick `k`; 0 if none (14 R464). -/
def State.edgeCrc (s : State) (k : Nat) : Nat := ((s.pair.crcs.find? fun e => e.1 == k).map (·.2)).getD 0

/-- The 48 bytes of a heartbeat (14 R464). -/
def State.heartbeat (s : State) : List Byte :=
  let st := 1 + s.slot * 2 ^ 8 + s.role * 2 ^ 13 + s.mode.code * 2 ^ 16 + s.get PAIR_STAT_READY * 2 ^ 20
    + s.get PAIR_STAT_XL * 2 ^ 21 + s.get PAIR_STAT_NA * 2 ^ 22 + s.get PAIR_STAT_NB * 2 ^ 23
  let body := leBytes 4 st ++ leBytes 4 (s.get SYS_SER_SERIAL) ++ leBytes 8 (s.tick * 125000) ++ leBytes 4 (s.tick % 2 ^ 32)
    ++ leBytes 4 (s.get PAIR_PSN_PSN) ++ leBytes 4 s.sys.program.identity ++ leBytes 4 (s.get FIO_OUT_REQ)
    ++ leBytes 4 (s.edgeCrc (s.tick - 1)) ++ leBytes 8 0
  body ++ leBytes 4 (crcBytes body)

/-- Send the heartbeat on the cross-link and on networks A and B (14 R464). -/
def State.sendHeartbeat (s : State) : State :=
  let h := s.heartbeat
  let s := s.withPair fun b => { b with sent := h }
  let n := (s.pair.hbCount + 1) % 2 ^ 32
  let s := s.withPair fun b => { b with hbCount := n }
  [0, 1].foldl (fun (s : State) p => s.queuePd p
    { kind := .heartbeat, len := frameLength (s.get (NET_PnCFG_VID p) != 0) 48, counter := n, comId := s.get PAIR_HBCOM_COMID
      dest := s.get (if p = 0 then PAIR_PIPA_ADDR else PAIR_PIPB_ADDR), vlan := s.get (NET_PnCFG_VID p), pcp := s.get (NET_PnCFG_PCP p)
      header := pdHeader n (s.get PAIR_HBCOM_COMID) (s.get NET_ETBTOPO_COUNT) (s.get NET_OPTOPO_COUNT) 48, data := h, at_ := s.mono }) s

/-! ### Outputs and tasks -/

/-- FIO outputs, safety output requests and core trip requests become 0 where the outputs are released (14 R471). -/
def State.dropOutputs (s : State) : State := if s.outputsReleased then s.fioRelease (some 0) (some 0) else s

/-- No task is dispatched from now on; their cycles end. -/
def State.stopDispatch (s : State) : State :=
  (s.setBit CYC_STAT_RUN false).withCyc fun c => { c with tasks := CMap.mapValues (fun _ => {}) (fun t => { t with cycle := none }) c.tasks }

/-- The mode of a module that runs tasks (02 R55). -/
def State.runMode (s : State) : Mode := if s.get CORE_STAT_VOTE = 0 ∧ s.get CORE_STAT_FAILED = 0 then .run else .runDegraded

/-- The standby is no longer ready (14 R466, R468, R478). -/
def State.dropReady (s : State) (reason : Nat) : State :=
  if s.pairReady then ((s.setBit PAIR_STAT_READY false).dropOutputs).emit 0xB00A [reason] else s

/-! ### Tracked regions -/

/-- The task of the tracked region that holds a word (14 R472). -/
def State.trackedTask (s : State) (k : Nat) : Option Nat :=
  match s.regionOf k with
  | some n => ((List.range 16).find? fun r => s.bit (PAIR_RrCFG_EN r) && s.get (PAIR_RrCFG_REGION r) == n).map fun r =>
      s.get (PAIR_RrCFG_TASK r)
  | none => none

/-- The 64-byte block at a key, as the cross-link carries it. -/
def State.linkBlock (s : State) (k : Nat) : Nat × List Word :=
  let word := fun (k : Nat) => match classify (s.stored k) with
    | .written d _ _ => d
    | _ => 0#32
  (k, (List.range 16).map fun i => word (k + 4 * i))

/-- The state of a timer (14 R472). -/
def State.timerImage (s : State) (t : Nat) : TimerImage :=
  let run := s.cyc.timers.find? fun x => x.index == t
  { index := t, running := run.isSome, periodic := (run.map (·.periodic)).getD false, durationUs := s.get (CYC_TMnDUR_DUR t)
    remaining := (run.map fun x => x.start + (x.seen + 1) * x.durationUs * 1000 - s.mono).getD 0, count := s.get (CYC_TMnCTL_EXPCNT t) }

/-- A task has its entry of a kind for this station. -/
def State.feeds (s : State) (n kind station : Nat) (out : Bool) : Bool :=
  s.imageEntries.any fun e => (s.imOut e || !out) && s.imKind e == kind && s.imTask e == n && s.imStation e == station

/-- The pair sequence number of a release edge to come: one is added at each edge before it at which a task has its release edge (01
R39). DEDUCED, log entry 55: every one of them has committed. -/
def State.psnAt (s : State) (release : Nat) : Nat :=
  let due := fun e => s.enabledTasks.any fun m =>
    decide (s.get (CYC_TnREL_REL m) ≤ e) && s.isPeriodStart m (e - s.get (CYC_TnREL_REL m))
  let passed := (List.range (release - s.tick - 1)).filter fun i => due (s.tick + 1 + i)
  (s.get PAIR_PSN_PSN + passed.length) % 2 ^ 32

/-- Keep a task's last commit (14 R470, R472). -/
def State.noteCommit (s : State) (n : Nat) (c : PairCommit) : State :=
  s.withPair fun b => { b with commits := (b.commits.filter fun e => e.1 != n) ++ [(n, c)] }

/-- The keys of the first and the last word of a partition's window. -/
def State.windowRange (s : State) (p : Nat) : Option (Nat × Nat) :=
  match s.partition p with
  | some w =>
    match memoryKey w.bank w.lo, memoryKey w.bank (w.hi / 4 * 4) with
    | some a, some b => some (a, b)
    | _, _ => none
  | none => none

/-- A marked block goes with the commits of task `n`: of its tracked regions, or outside any of its partition's window. -/
def State.goesWith (s : State) (n k : Nat) : Bool :=
  match s.trackedTask k with
  | some m => m == n
  | none => ((s.windowRange (s.taskPart n)).map fun r => decide (r.1 ≤ k) && decide (k ≤ r.2)).getD false

/-- A state transfer after an IMC with status 0 (14 R472, R480): the task's marked blocks and its commit record, over the cross-link; in
gapless mode only for a partner that joins. The unit keeps the commit for itself too (R470). -/
def State.sendState (s : State) (n : Nat) (release : Nat) : State :=
  if s.pairMode = 0 ∨ s.role ≠ 1 then s
  else
    let sseqs := s.transmitFlows.filterMap fun f => if s.flowSafe f && s.feeds n 5 f true then some (f, (s.flow f).sseq) else none
    let s := s.noteCommit n ⟨s.tick, release, sseqs, 0⟩
    if !s.crossLink ∨ (s.pairMode = 2 ∧ s.partnerRole ≠ 3) then s
    else
      let mine := s.pair.marks.filter (s.goesWith n)
      let timers := ((List.range 32).filter fun t => s.feeds n 8 t false).map s.timerImage
      s.withPair fun b => { b with marks := b.marks.filter (fun k => !mine.contains k),
                                   transfer := some (mine.map s.linkBlock, ⟨n, s.psnAt release, release % 2 ^ 32, timers, sseqs⟩) }

/-! ### The bulk copy -/

/-- Keys of the first and the last word of a region in its space (04 R141). -/
def State.regionRange (s : State) (n : Nat) : Option (Nat × Nat) :=
  let lo := s.get (MEM_REGnB_BASE n) * 4096
  let hi := s.get (MEM_REGnL_LIMIT n) * 4096 + 4092
  ([memoryKey 0 lo, memoryKey 1 lo, memoryKey 2 lo].filterMap id).findSome? fun a =>
    if s.regionCovers a n then some (a, a + (hi - lo)) else none

/-- What the bulk copy covers (14 R480): the tracked regions, in gapless mode the windows of every partition with tasks. -/
def State.copyWindows (s : State) : List (Nat × Nat) :=
  if s.pairMode = 2 then ((s.enabledTasks.map s.taskPart).eraseDups).filterMap s.windowRange
  else (((List.range 16).filter fun r => s.bit (PAIR_RrCFG_EN r)).map fun r => s.get (PAIR_RrCFG_REGION r)).filterMap s.regionRange

/-- The retained areas: the MRAM regions of the retained data range (04 R162; 05 R191). -/
def State.retainedRanges (s : State) : List (Nat × Nat) :=
  (List.range 32).filterMap fun n =>
    let base := s.get (MEM_REGnB_BASE n) * 4096
    if s.bit (MEM_REGnL_EN n) && s.get (MEM_REGnB_SPACE n) == 2 && decide (0x10000000 ≤ base) && decide (base ≤ 0x100DFFFF) then
      some (base, s.get (MEM_REGnL_LIMIT n) * 4096 + 4092)
    else none

/-- 64-byte blocks that the reserved share of the pair link carries in a tick, of Mbit/s (14 R480; 01 R29). -/
def State.blocksPerTick (s : State) : Nat :=
  ((s.sys.shares.filter fun x => x.resource == 0x000E && x.claimant == 0xA002).foldl (fun a x => a + x.amount) 0) * 125 / 512

/-- The next blocks of a list of ranges, and what is left of it. -/
def nextBlocks : Nat → List (Nat × Nat) → List Nat × List (Nat × Nat)
  | 0, l => ([], l)
  | _ + 1, [] => ([], [])
  | k + 1, (a, b) :: r =>
    let rest := if a + 64 ≤ b then (a + 64, b) :: r else r
    (a :: (nextBlocks k rest).1, (nextBlocks k rest).2)

/-- The active copies for a partner that joins, from the edge at which it reports so: forces and timers, then the blocks in the share
reserved (14 R480, phase 4). A block written meanwhile is marked and goes with a commit. -/
def State.copyStep (s : State) : State :=
  if s.role ≠ 1 ∨ !s.crossLink ∨ s.partnerRole ≠ 3 then s.withPair fun b => { b with bulk := none, covered := [], bulkSent := [] }
  else match s.pair.bulk with
    | none =>
      let s := s.withPair fun b => { b with bulk := some (s.copyWindows ++ s.retainedRanges), covered := s.copyWindows }
      s.tellPartner (.bulk (s.cyc.forces.map fun f => ⟨f.vid, f.type, f.value⟩) ((List.range 32).map s.timerImage) s.pair.shift)
    | some l =>
      let (keys, rest) := nextBlocks s.blocksPerTick l
      s.withPair fun b => { b with bulk := some rest, bulkSent := keys.map s.linkBlock }

/-- Write a received block into memory (14 R473, R480). -/
def State.writeBlock (s : State) (b : Nat × List Word) : State :=
  (b.2.foldl (fun (x : State × Nat) w => (x.1.agentWrite x.2 15#4 w 0 0, x.2 + 4)) (s, b.1)).1

/-- Set a timer to a received image (14 R472). -/
def State.setTimerImage (s : State) (x : TimerImage) : State :=
  let s := s.set (CYC_TMnDUR_DUR x.index) x.durationUs
  let s := s.withCyc fun c => { c with timers := c.timers.filter fun y => y.index != x.index }
  let s := if x.running then
      let k := if x.periodic then x.count else 0
      let run : TimerRun := ⟨x.index, s.mono + x.remaining - (k + 1) * x.durationUs * 1000, x.durationUs, x.periodic, k⟩
      s.withCyc fun c => { c with timers := c.timers ++ [run] }
    else s
  s.showTimer x.index x.running x.count

/-! ### Becoming active -/

/-- A task starts at its pair entry point (14 R475): STARTS counts the period starts of the unit that committed up to the take-over,
and the first dispatch. -/
def State.takeOverTask (s : State) (n : Nat) : State :=
  let entry := ((s.sys.program.pairEntries.find? fun e => e.1 == n).map (·.2)).getD 0#32
  let first := s.nextStart n s.tick
  let starts := match s.pair.commits.find? fun e => e.1 == n with
    | some c => s.startsIn n c.2.release s.tick c.2.shift + 1
    | none => 1
  let s := ((s.wr (CYC_TnENTRY n) (entry &&& 0xFFFFFFFC#32)).setBit (CYC_TnSTAT_NEW n) true).setBit (CYC_TnSTAT_WAIT n) true
  let s := (s.set (CYC_TnWV_STARTS n) (min starts 0xFFFF)).setBit (CYC_TnWV_OVR n) false
  s.setTask n { notBefore := first }

/-- A safe flow goes on from the SSEQ of its last commit, and the send edges of the unit that committed before own tick `upto` (14
R476). -/
def State.takeOverFlow (s : State) (c : PairCommit) (upto : Nat) (e : Nat × Nat) : State :=
  let passed := (List.range (upto - c.since - 1)).filter fun i => s.sendsAt e.1 (c.since + 1 + i) c.shift
  s.setFlow e.1 { s.flow e.1 with sseq := (e.2 + passed.length) % 2 ^ 32 }

/-- All safe flows of the commits held. -/
def State.takeOverFlows (s : State) (upto : Nat) : State :=
  s.pair.commits.foldl (fun (s : State) c => c.2.sseqs.foldl (fun (s : State) e => s.takeOverFlow c.2 upto e) s) s

/-- The unit becomes active at step 2 (14 R468, R470, R475, R476, R483): causes 1 LOST, 2 ISOLATED, 3 DUALACTIVE, 4 SWITCH. -/
def State.becomeActive (s : State) (cause : Nat) : State :=
  let ready := s.pairReady
  let bounded := s.pairMode == 1
  let s := (s.set PAIR_LASTSW_CAUSE cause).setBit PAIR_LASTSW_STALE (!ready)
  let s := if bounded then
      ((s.enabledTasks.foldl State.takeOverTask s).takeOverFlows s.tick).setBit CYC_STAT_RUN true
    else s
  let s := if bounded || !ready then s.set PAIR_PSN_PSN (s.get PAIR_PPSN_PSN + 256) else s
  let s := (s.set PAIR_STAT_ROLE 1).setBit PAIR_STAT_READY false
  let s := s.withPair fun b => { b with gapFrom := (b.partner.map (·.at_)).orElse fun _ => some s.mono
                                        roleChanged := some s.tick, staging := [], join := none, rejoin := false, switchAt := none,
                                        align := false }
  (s.toMode s.runMode 10).emit 0xB005 [cause, s.get PAIR_PSN_PSN]

/-- The active unit steps down (14 R468, R483). -/
def State.stepDown (s : State) (cause : Nat) : State :=
  let s := (s.set PAIR_STAT_ROLE 2).setBit PAIR_STAT_READY (cause == 4)
  let s := (s.withPair fun b => { b with roleChanged := some s.tick, switching := false, rejoin := cause == 2, staging := [],
                                         refix := cause == 4 }).dropOutputs
  (if s.pairMode = 1 then s.stopDispatch else s).emit 0xB006 [cause, s.partnerSlot]

/-! ### Joins -/

/-- A join fails: the unit returns to STOP (14 R480). -/
def State.joinFail (s : State) (reason : Nat) : State :=
  let s := ((s.set PAIR_STAT_ROLE 0).setBit PAIR_STAT_READY false).set PAIR_RES_REASON reason
  let s := (s.withPair fun b => { b with join := none, staging := [] }).stopDispatch
  (s.toMode .stop 10).emit 0xB009 [reason]

/-- A change is armed, or switched and not yet confirmed (14 R482). -/
def State.changeOpen (s : State) : Bool := s.ocState == ocArmed || s.ocState == ocSwitched || s.ocState == ocRevertArmed

/-- A join starts: mode RESYNC, role 3 (14 R480); it is refused while a change is open (R482). -/
def State.startJoin (s : State) : State :=
  if s.changeOpen then s.joinFail 3
  else
    let s := (s.set PAIR_STAT_ROLE 3).setBit PAIR_STAT_READY false
    let s := s.withPair fun b => { b with join := some { since := s.mono }, rejoin := false, staging := [], commits := [], matching := 0,
                                          snapshots := [], psns := [], offsetOut := false, partnerStarts := false, partnerShift := 0,
                                          refix := false }
    ((s.dropOutputs.stopDispatch).toMode .resync 10).emit 0xB007 [s.get PAIR_PSER_SERIAL]

/-- Every task has joined (14 R480). -/
def State.allJoined (s : State) : Bool :=
  match s.pair.join with
  | some j => j.copied && s.enabledTasks.all j.joined.contains
  | none => false

/-- The unit may start a join: in STOP, paired, the partner reports role active (14 R480). -/
def State.mayJoin (s : State) : Bool := s.mode == .stop && s.pairMode != 0 && s.partnerRole == 1

/-- A start command in a pair (14 R480): a join where the partner is active, its refusal (R482) result 1, DEDUCED, log entry 55; else the
partner learns of it. -/
def pairStart (warm : Bool) (s : State) : State × Nat :=
  if s.mayJoin && !s.bit CORE_STAT_HALTED then (s.startJoin, if s.changeOpen then 1 else 0)
  else match startCommand warm s with
    | (s, 0) => (s.tellPartner .starting, 0)
    | r => r

/-! ### Step 2 -/

/-- A tick edge passes for a path. -/
def PairPath.edge (p : PairPath) : PairPath :=
  if p.got then { p with got := false, miss := 0 } else { p with miss := min (p.miss + 1) 1000 }

/-- A path is current (14 R463). -/
def PairPath.current (p : PairPath) (loss : Nat) : Bool := p.last.isSome && decide (p.miss < loss)

/-- The three data paths at a tick edge (14 R463, R465, R484, R486). -/
def State.updatePaths (s : State) : State :=
  let had := s.crossLink
  let lostFor := s.pair.xl.miss
  let s := s.withPair fun b => { b with xl := b.xl.edge, na := b.na.edge, nb := b.nb.edge }
  let loss := s.get PAIR_CFG_NETLOSS
  let xl := s.pair.xl.current 8
  let s := ((s.setBit PAIR_STAT_XL xl).setBit PAIR_STAT_NA (s.pair.na.current loss)).setBit PAIR_STAT_NB (s.pair.nb.current loss)
  let s := ((s.set PAIR_MISS_XL (min s.pair.xl.miss 255)).set PAIR_MISS_NA (min s.pair.na.miss 255)).set PAIR_MISS_NB
    (min s.pair.nb.miss 255)
  let s := if had && !xl then (s.withPair fun b => { b with staging := [] }).stationLost 7 0 else s
  let s := if !had && xl && s.pair.xlSeen then s.emit 0xB003 [lostFor] else s
  let s := if s.anyPath && !s.pair.seen then s.emit 0xB001 [s.partnerSlot, s.partnerRole] else s
  s.withPair fun b => { b with seen := s.anyPath, xlSeen := b.xlSeen || xl }

/-- The condition of the pair (14 R467). -/
def State.pairCondition (s : State) : Nat :=
  if s.role = 1 ∧ s.partnerRole = 1 then 4
  else if s.crossLink then 0
  else if s.anyPath then 1
  else if s.bit PAIR_STAT_LIVE then 2 else 3

/-- The own slot code is the lower one; a unit that has never heard its partner knows of none and stays (14 R469). -/
def State.lowerSlot (s : State) : Bool := s.pair.partner.isNone || decide (s.slot ≤ s.partnerSlot)

/-- A unit in STOP that has left a start to its partner joins when that is active (14 R480). -/
def State.idleActs (s : State) : State :=
  if s.pair.rejoin ∧ s.mayJoin ∧ !s.bit CORE_STAT_HALTED then s.startJoin else s

/-- A unit that becomes a ready gapless standby stamps from this edge on the number the active stamps at its edge (14 R478). -/
def State.alignPsn (s : State) : State :=
  if s.pair.align then
    let n := ((s.pair.psns.find? fun e => e.1 == s.tick).map (·.2)).getD (s.get PAIR_PPSN_PSN)
    (s.set PAIR_PSN_PSN n).withPair fun b => { b with align := false }
  else s

/-- What the active unit does (14 R468); `entry`: the condition is new. -/
def State.activeActs (s : State) (entry : Bool) : Nat → State
  | 1 => s.when entry fun s => s.emit 0xB002 [s.get PAIR_STAT_NA + 2 * s.get PAIR_STAT_NB]
  | 2 => if s.lowerSlot then s else (s.stepDown 2).toMode .standby 10
  | 3 => s.when entry fun s => s.emit 0xB004 [((s.pair.partner).map (·.tick)).getD 0]
  | 4 =>
    let s := s.when entry fun s => s.emit 0xB00C [s.partnerSlot]
    if s.lowerSlot then s else (s.stepDown 3).startJoin
  | _ => s

/-- What the standby does (14 R468, R469, R483). -/
def State.standbyActs (s : State) (entry : Bool) : Nat → State
  | 0 =>
    if s.pair.switchAt = some s.tick then s.becomeActive 4
    else if s.pair.rejoin ∧ s.partnerRole = 1 ∧ !s.bit CORE_STAT_HALTED then s.startJoin else s
  | 1 => s.when entry fun s => (s.emit 0xB002 [s.get PAIR_STAT_NA + 2 * s.get PAIR_STAT_NB]).dropReady 1
  | 2 => if s.lowerSlot then s.becomeActive 2 else (s.dropReady 1).withPair fun b => { b with rejoin := true }
  | 3 => s.becomeActive 1
  | _ => s

/-- What a joining unit does (14 R480, R481). -/
def State.joiningActs (s : State) : Nat → State
  | 0 => s
  | 2 => if s.lowerSlot && s.allJoined then s.becomeActive 2 else s.joinFail 6
  | 3 => if s.allJoined then s.becomeActive 1 else s.joinFail 6
  | _ => s.joinFail 6

/-- Step 2 of 01 R39 (14 R464, R467, R468). -/
def State.pairStep (s : State) : State :=
  if s.pairMode = 0 then s
  else
    let s := s.sendHeartbeat.updatePaths.copyStep
    let cond := s.pairCondition
    let entry := s.get PAIR_STAT_COND != cond
    let s := s.set PAIR_STAT_COND cond
    match s.role with
    | 1 => s.activeActs entry cond
    | 2 => (s.standbyActs entry cond).alignPsn
    | 3 => s.joiningActs cond
    | _ => s.idleActs

/-! ### Divergence -/

/-- Compare the partner's CRC of an edge with the own one (14 R478). An edge after a missed snapshot is not compared. READY does not
return while the offset lies outside its range (R466; DEDUCED, log entry 55). -/
def State.compareCrcs (s : State) : State :=
  match s.pair.toCompare with
  | some (k, theirs) =>
    match s.pair.crcs.find? fun e => e.1 == k with
    | some (_, mine) =>
      let s := s.withPair fun b => { b with toCompare := none }
      if (s.pair.snapMissed.map (· + 1)) = some k then s
      else if mine = theirs then
        let s := (s.set PAIR_DIV_RUN 0).withPair fun b => { b with matching := b.matching + 1 }
        if !s.pairReady ∧ 64 ≤ s.pair.matching ∧ !s.pair.offsetOut then
          ((s.setBit PAIR_STAT_READY true).withPair fun b => { b with align := true }).emit 0xB008
            [s.get PAIR_DTICK_DTICK, s.get PAIR_OFFS_NS]
        else s
      else
        let s := ((s.inc PAIR_DIV_COUNT).inc PAIR_DIV_RUN).withPair fun b => { b with matching := 0 }
        let s := s.emit 0xB00B [k % 2 ^ 32, mine, theirs]
        if s.get PAIR_CFG_DIVLIM ≤ s.get PAIR_DIV_RUN then s.dropReady 2 else s
    | none => s
  | none => s

/-- The own CRC of the blocks stamped at this edge; the last eight are kept (14 R464). -/
def State.recordCrc (s : State) (crc : Nat) : State :=
  (s.withPair fun b => { b with crcs := ((s.tick, crc) :: b.crcs).take 8 }).compareCrcs

end Sys2Proof.Machine
end

