-- ==== Sys2Proof/Machine/Rec.lean ====
section
/-!
DEFINITION. The commands and events of REC (09), REC_EVENT_RECEIVE apart, which reads registers (RecEvent.lean).
-/

namespace Sys2Proof.Machine

open Reg

/-- A REC command: DONE when it completes, 0xC00B when it is refused (09 R328, R344). DEDUCED: results 2 and 3 of READ
are answers, not refusals, log entry 13. -/
def State.recDone (s : State) (cmd r : Nat) : State :=
  let s := s.setBit REC_STAT_DONE true
  if r = 0 ∨ r = 2 ∨ r = 3 then s else s.emit 0xC00B [cmd, r]

/-- A command at REC's mailbox; none: it completes later. -/
def State.recCommand (s : State) (cmd cseq : Nat) (act : State → State × Option Nat) : State :=
  s.mailboxLater REC_SEQ_LASTCMD REC_RES_RESULT cseq
    (fun s => match act s with
      | (s, some r) => (s.recDone cmd r, some r)
      | (s, none) => (s, none))
    7 (fun s => s.emit 0xC00B [cmd, 7])

/-- A refill of an entry's bucket (09 R322). -/
def execRateLimitRefill (t : Nat) (entry : Fin 256) (s : State) : Host.Outcome State Fault Refusal :=
  let s := s.advance t
  let e := entry.val
  let b := s.bucket e
  if b.taken ≠ 0 ∧ b.since + s.period e * 1000000 ≤ s.mono then
    .next (s.setBucket e { b with taken := b.taken - 1, since := b.since + s.period e * 1000000 })
  else .next s

/-- A program of the `n` oldest queued records completes (09 R544); `failed`: the block failed instead (R343). -/
def execEventProgramDone (t : Nat) (n : Fin 5) (failed : Bool) (s : State) : Host.Outcome State Fault Refusal :=
  let s := s.advance t
  if failed then .next s.retireEventBlock
  else
    let done := s.recb.queue.take n.val
    let s := (s.withRec fun b => { b with queue := b.queue.drop n.val }).showQueue
    let s := done.foldl State.ringWrite s
    if s.recb.lostQueue ≠ 0 ∧ s.recb.queue.length < 256 then
      .next ((s.withRec fun b => { b with lostQueue := 0 }).emit 0xC008 [s.recb.lostQueue, 1])
    else .next s

/-- Operating seconds and power cycles to MRAM (09 R326). -/
def State.saveCounters (s : State) : State :=
  ((s.moduleWrite opsecAt (BitVec.ofNat 32 s.opsec)).moduleWrite powerCyclesAt (s.rd REC_PWRCYC)).withRec fun b =>
    { b with savedAt := s.mono }

def execOpsecSave (t : Nat) (s : State) : Host.Outcome State Fault Refusal :=
  let s := s.advance t
  if s.recb.savedAt + 60000000000 ≤ s.mono ∧ s.recb.opsFrom.isSome then .next s.saveCounters else .next s

/-- FROST from the executive or the maintenance tool (09 R340). -/
def execFrost (t cseq : Nat) (tool : Bool) (s : State) : Host.Outcome State Fault Refusal :=
  .next ((s.advance t).recCommand 1 cseq fun s => (s.frost (if tool then 2 else 1), some 0))

/-- THAW (09 R342). Nothing is frozen: nothing to do, result 0, as FROST while frozen. -/
def recThaw (tool : Bool) (s : State) : State × Option Nat :=
  if !s.frozen then (s, some 0)
  else if !tool ∧ s.get REC_STAT_FSRC ≠ 1 then (s, some 6)
  else (s.thaw (if tool then 2 else 1), some 0)

def execThaw (t cseq : Nat) (tool : Bool) (s : State) : Host.Outcome State Fault Refusal :=
  .next ((s.advance t).recCommand 2 cseq (recThaw tool))

/-- TRIGGER (09 R331). -/
def recCoreTrigger (s : State) : State × Option Nat :=
  if s.bit REC_TRIGEN_CORE && s.recb.triggers then
    ((s.withRec fun b => { b with coreTrigger := true }).recTrigger 72 (s.mono / 31250), some 0)
  else (s, some 1)

def execTrigger (t cseq : Nat) (s : State) : Host.Outcome State Fault Refusal :=
  .next ((s.advance t).recCommand 3 cseq recCoreTrigger)

/-- A stored disturbance record by number. -/
def State.disturbance (s : State) (n : Nat) : Option DisturbanceRecord :=
  s.recb.stored.find? fun d => d.capture.number == n

/-- EXPORT starts (09 R337). A buffer that DRAM does not take yet, or under a range clear at the end, is unusable, result 4: DEDUCED from
04 R137, R160, log entry 13. -/
def recExport (s : State) : State × Option Nat :=
  let n := s.get REC_NUM_NUM
  let addr := (s.rd REC_XADDR).toNat / 4 * 4
  let len := (s.rd REC_XLEN).toNat
  if s.recb.export_.isSome then (s, some 8)
  else match s.disturbance n with
    | none => (s, some 5)
    | some d =>
      if !bufferOk addr len ∨ !s.bit MEM_STAT_DINIT ∨ len < exportBytes (s.comtradeConfig d).length (4 * d.dataFile.length) then (s, some 4)
      else (s.withRec fun b => { b with export_ := some (n, addr, len) }, none)

def execExportRecord (t cseq : Nat) (s : State) : Host.Outcome State Fault Refusal :=
  .next ((s.advance t).recCommand 4 cseq recExport)

/-- DRAM takes every word of an export (04 R137, R160). -/
def State.exportReaches (s : State) (phys : Nat) (ws : List (Word × BitVec 4)) : Bool :=
  (List.range ws.length).all fun i => s.wordReachable (dramBase + phys + 4 * i)

/-- The export completes (09 R337). -/
def execExportComplete (t : Nat) (s : State) : Host.Outcome State Fault Refusal :=
  let s := s.advance t
  match s.recb.export_ with
  | none => .next s
  | some (n, addr, _) =>
    let s := s.withRec fun b => { b with export_ := none }
    match s.disturbance n with
    | none => .next ((s.answerLate REC_SEQ_LASTCMD REC_RES_RESULT 5).recDone 4 5)
    | some d =>
      if !s.exportReaches addr (s.exportWords d) then .next ((s.answerLate REC_SEQ_LASTCMD REC_RES_RESULT 4).recDone 4 4)
      else
      let s := (s.agentWrites addr (s.exportWords d)).answerLate REC_SEQ_LASTCMD REC_RES_RESULT 0
      .next ((s.setBit REC_STAT_DONE true).emit 0xC00A [n, (s.comtradeConfig d).length, 4 * d.dataFile.length])

/-- Fill REC_EDATA with 16 words. -/
def State.setEdata (s : State) (ws : List Word) : State :=
  (List.range 16).foldl (fun (s : State) i => s.wr (REC_EDATAi i) ((ws[i]?).getD 0#32)) s

/-- READ (09 R328). -/
def recRead (s : State) : State × Option Nat :=
  match s.findRecord (s.get REC_NUM_NUM) with
  | none => (s.setEdata [], some 2)
  | some r => (s.setEdata r.words, some (if r.bad then 3 else 0))

def execReadRecord (cseq : Nat) (s : State) : Host.Outcome State Fault Refusal :=
  .next (s.recCommand 5 cseq recRead)

/-- The copy of the oldest waiting capture completes (09 R334); the blocks that failed under it are retired (R343). -/
def execCaptureStored (t : Nat) (failedBlocks : List (Fin 3072)) (s : State) : Host.Outcome State Fault Refusal :=
  .next ((s.advance t).retireDisturbance (failedBlocks.map (·.val))).storeCapture

end Sys2Proof.Machine
end

