-- ==== Sys2Proof/Machine/SysOps.lean ====
section
/-!
DEFINITION. Operations of SYS (15): access masks, the values a configuration sets, overlays (R502), the safety digest and the
partition map (R490), the checks of CONFIGURE over all combinations (R501), the reset (R547), the mailbox.
-/

namespace Sys2Proof.Machine

open Reg

/-! ### Fields by access type -/

/-- Fields of access L. -/
def lMask (key : Nat) : Word := maskOf (fun a => a == .lc) (key % 0x100000000)

/-- Fields marked configuration. -/
def cfgMask (key : Nat) : Word := maskOf (fun a => a == .cfg) (key % 0x100000000)

/-- The block of a register key (00, the block table). -/
def blockOf (key : Nat) : Nat := (key % 0x100000000 - 0x40000000) / 0x100000

/-! ### The partition map and the safety digest (15 R490) -/

/-- The bits of a register that belong to the partition map: region descriptors, the partition of tasks, contexts, flows. -/
def mapMask (key : Nat) : Word :=
  let a := key % 0x100000000
  if (List.range 32).any fun n => a == MEM_REGnB n || a == MEM_REGnL n || a == MEM_REGnA n then lMask key
  else if (List.range 16).any fun n => a == CYC_TnREL n then fieldMask (CYC_TnREL_PART 0).lo (CYC_TnREL_PART 0).w
  else if (List.range 64).any fun n => a == PE_CXnCTL n then fieldMask (PE_CXnCTL_PART 0).lo (PE_CXnCTL_PART 0).w
  else if a = NET_FD0 then fieldMask NET_FD0_PART.lo NET_FD0_PART.w
  else 0

/-- The L values a configuration gives other than the partition map: what the safety digest covers. The model keeps the values
themselves in place of their SHA-384; log entry 29. -/
def digestOf (values : List (Nat × Word)) : List (Nat × Word) :=
  values.foldl (fun l e =>
    let m := lMask e.1 &&& ~~~mapMask e.1
    if m = 0 then l else CMap.put (fun k => resetOf k &&& lMask k &&& ~~~mapMask k) l e.1 (e.2 &&& m)) []

/-- The digest values in force. -/
def State.digest (s : State) : List (Nat × Word) := digestOf s.regs

/-- The partition map in force, by register key. -/
def State.mapValues (s : State) : List (Nat × Word) :=
  (s.regs.map fun e => (e.1, e.2 &&& mapMask e.1)).filter fun e => mapMask e.1 != 0

/-- Load the fused partition map at BOOT, from FIELD onwards (04 R141; 15 R490). -/
def State.loadMap (s : State) : State :=
  if s.lifeCycle < 3 then s
  else
    let s := s.sys.fused.regions.foldl (fun (s : State) e => s.setMasked e.1 (mapMask e.1) e.2) s
    s.withSys fun b => { b with parts := b.fused.parts }

/-! ### Loading a configuration (15 R490, R500) -/

/-- The bits LOAD writes of a register: L fields, and the configuration fields of the blocks it reloads. From FIELD onwards the
partition map is the fused one. -/
def State.loadMask (s : State) (key : Nat) : Word :=
  let l := if 3 ≤ s.lifeCycle then lMask key &&& ~~~mapMask key else lMask key
  let c := if 3 ≤ s.lifeCycle then cfgMask key &&& ~~~mapMask key else cfgMask key
  l ||| c

/-- Write the register values of a configuration. -/
def State.loadValues (s : State) (values : List (Nat × Word)) : State :=
  values.foldl (fun (s : State) e => s.setMasked e.1 (s.loadMask e.1) e.2) s

def PartitionDecl.declare (d : PartitionDecl) : Partition :=
  { index := d.index, safety := d.safety, service := d.service, lo := d.lo, hi := d.hi, bank := d.bank, grants := d.grants, cacheable := d.cacheable }

/-- CONFIGURE loads the owners of slots 0 to 62 of the memory arbiters (04 R147). -/
def State.loadSlots (s : State) : State :=
  s.sys.slots.foldl (fun (s : State) e =>
    if e.1 < 320 ∧ e.1 % 64 ≠ 63 then s.wr (bank MEM_ARBDAT e.1) (e.2 &&& fieldBits MEM_ARBDAT) else s) s

/-! ### Overlays (01 R32; 15 R502) -/

/-- The mask the selection table gives for a mode and a train mode. -/
def State.selected (s : State) (mode tmode : Nat) : Option Nat :=
  (s.sys.selection.find? fun e => e.1 == mode && e.2.1 == tmode).map (·.2.2)

/-- A mask takes effect: fields at once, parameters through the parameter mailbox at the next slot (06 R222). -/
def State.applyMask (s : State) (mask : Nat) : State :=
  let loops := (List.range 8).map fun n => s.get (ALP_CHnCFG_MODE n)
  let s := ((s.uncover.coverMask mask).set SYS_OVSEL_ACTIVE mask).loopsFollow loops
  let writes := (s.overlaysOf mask).flatMap fun o => o.params.map fun p => (⟨p.1, p.2.1, p.2.2⟩ : ParamWrite)
  let s := s.withPe fun b => { b with params := b.params ++ writes }
  s.emit 0xE006 [mask, s.get SYS_OVSEL_TMODE]

/-- Step 6 of 01 R39: the mask of the present mode and train mode, where either changed or SYS_OVSEL was written. DEDUCED: a
mode without an entry in the table keeps the mask in force and refuses only a request, log entry 30. -/
def State.overlayStep (s : State) : State :=
  let now := (s.mode.code, s.get SYS_OVSEL_TMODE)
  if s.sys.resolved = some now ∧ !s.sys.asked then s
  else
    let asked := s.sys.asked
    let s := s.withSys fun b => { b with resolved := some now, asked := false }
    match s.selected now.1 now.2 with
    | some m =>
      if !s.sys.checked.contains m then (if asked then s.emit 0xE007 [m, now.2] else s)
      else if m = s.get SYS_OVSEL_ACTIVE then s
      else s.applyMask m
    | none => if asked then s.emit 0xE007 [s.get SYS_OVSEL_ACTIVE, now.2] else s

/-- Blocks whose configuration fields an overlay may set: CYC, FIO, ALP, NET, OCT, BRG, REC. -/
def overlayBlock (b : Nat) : Bool := [3, 8, 9, 10, 11, 12, 14].contains b

/-- Overlay `i` against R502. -/
def State.checkOverlay (s : State) (i : Nat) (o : Overlay) : Option CfgRefusal :=
  let live := s.sys.selection.any fun e => (e.1 == 6 || e.1 == 7) && bitOf e.2.2 i
  let badField := fun (f : Nat × Word × Word) => !overlayBlock (blockOf f.1) || f.2.1 &&& ~~~cfgMask f.1 != 0
  let safe := o.params.any fun p => s.isSafety (s.get (PE_CXnCTL_PART p.1))
  if 8 ≤ i ∨ 64 < o.fields.length ∨ o.fields.any badField ∨ (live ∧ safe) then some { result := 4, index := i } else none

/-- The masks the selection table makes selectable, the base apart. -/
def State.masks (s : State) : List Nat := ((s.sys.selection.map (·.2.2)).filter (· != 0)).eraseDups

/-- A mask names overlays that exist. -/
def State.checkMask (s : State) (m : Nat) : Option CfgRefusal := outOfRange (decide (2 ^ s.sys.overlays.length ≤ m)) 0

/-- The first refusal over the base (0) and every mask, with its combination (15 R501, R542). -/
def State.checkMasks (s : State) : List Nat → Option (CfgRefusal × Nat)
  | [] => none
  | m :: r =>
    match firstOf (s.checkMask m) (s.coverMask m).checkAll with
    | some x => some (x, m)
    | none => s.checkMasks r

/-- CONFIGURE (15 R501). -/
def State.checkConfiguration (s : State) : Option (CfgRefusal × Nat) :=
  match firstRefusal (fun (e : Nat × Overlay) => s.checkOverlay e.1 e.2) (s.sys.overlays.mapIdx fun i o => (i, o)) with
  | some r => some (r, 0)
  | none => s.checkMasks (0 :: s.masks)

/-! ### The mailbox -/

/-- A command of SYS; none: it completes later. A refusal emits 0xE00A with the command's code (15 R518). -/
def State.sysCommand (s : State) (cmd cseq : Nat) (act : State → State × Option Nat) : State :=
  s.mailboxLater SYS_SEQ_LASTCMD SYS_RES_RESULT cseq
    (fun s => match act (s.set SYS_RES_REASON 0) with
      | (s, some r) => (if r = 0 then s else s.emit 0xE00A [cmd, r], some r)
      | (s, none) => (s, none))
    7 (fun s => s.emit 0xE00A [cmd, 7])

/-! ### Reset (15 R547) -/

/-- What a reset keeps of REC: flash and MRAM. -/
def RecBlock.kept (b : RecBlock) : RecBlock :=
  { ring := b.ring, wearE := b.wearE, wearD := b.wearD, retiredE := b.retiredE, retiredD := b.retiredD, nextE := b.nextE
    nextD := b.nextD, saved := b.saved, savedFrost := b.savedFrost, wearSaidE := b.wearSaidE, wearSaidD := b.wearSaidD
    stored := b.stored, opsFrom := none }

/-- What the fuses hold of a channel. -/
def ChannelState.kept (x : ChannelState) : ChannelState :=
  { factoryGain := x.factoryGain, factoryOff := x.factoryOff, rawGain := x.rawGain, spareScale := x.spareScale }

/-- What a reset keeps of SYS: fuses, flash, MRAM. -/
def SysBlock.kept (b : SysBlock) : SysBlock :=
  { fused := b.fused, staging := b.staging, slotA := b.slotA, slotB := b.slotB, phaseAt := none }

/-- A reset: flash, MRAM and fuses keep their contents, everything else returns to its reset state and the module is in POWERUP
(15 R494, R547; 08 R277). The trip driver keeps GLTRIP and, its enable lost, conducts for it (08 R282; 16 R528). The queue of
commands and the counter of free values are the model's and stay. -/
def State.moduleReset (s : State) (supplyLost : Bool) : State :=
  let keepReg := fun (r : State) (key : Nat) => r.wr key (s.rd key)
  let mram := s.mem.filter fun e => decide (0x10000000 ≤ e.1) && decide (e.1 < 0x10100000)
  let pulse := if s.girth.enableLost.contains 4 then s.girth.glPulse else s.girth.glCopied
  let r : State :=
    { mem := mram, flash := s.flash, flashBad := s.flashBad, pending := s.pending, free := s.free
      memb := { hard := s.memb.hard }
      recb := s.recb.kept
      afe := { channels := CMap.mapValues (fun _ => {}) ChannelState.kept s.afe.channels
               groups := CMap.mapValues (fun _ => {}) (fun g => { spare := g.spare }) s.afe.groups }
      alp := { jumpers := s.alp.jumpers }
      girth := { glCopied := s.girth.glCopied, glPulse := pulse }
      sys := s.sys.kept }
  let r := [SYS_LC, SYS_SER, SYS_SVN, GIRTH_FCRC].foldl keepReg r
  let r := r.setBit SYS_STAT_RPRST (s.bit SYS_STAT_RPRST && !supplyLost)
  (r.withSys fun b => { b with supplyLost := supplyLost || s.sys.supplyLost }).set SYS_MODE_MODE 0

end Sys2Proof.Machine
end

