-- ==== Sys2Proof/Machine/Voter.lean ====
section
/-!
DEFINITION. The voter and the resynchronisation of the odd core (02 R46 to R62). The lead core's state is the
complex's; the checker cores' copies are equal to it unless a disturbance shows in the presentations.
-/

namespace Sys2Proof.Machine

open Reg

/-- First differing field of two presentations (02 R47, CORE_LASTK.FIELD). -/
def firstDifference : Option Presentation → Option Presentation → Option Nat
  | none, none => none
  | none, some _ => some 0
  | some _, none => some 0
  | some a, some b =>
    if a.kind ≠ b.kind then some 1 else if a.addr ≠ b.addr then some 2 else if a.size ≠ b.size then some 3
    else if a.wdata ≠ b.wdata then some 4 else if a.priv ≠ b.priv then some 5 else if a.part ≠ b.part then some 6
    else none

/-- The first field in which three presentations are not all equal. -/
def firstField (v : PortView) : Nat :=
  let low := fun (x y : Option Nat) => match x, y with
    | none, y => y
    | x, none => x
    | some x, some y => some (min x y)
  (low (firstDifference v.p0 v.p1) (low (firstDifference v.p0 v.p2) (firstDifference v.p1 v.p2))).getD 0

/-- The first field in which the presentations of the two cores that vote beside core `out` differ (02 R47, R50). -/
def firstField2 (v : PortView) (out : Nat) : Nat :=
  (match out with
    | 0 => firstDifference v.p1 v.p2
    | 1 => firstDifference v.p0 v.p2
    | _ => firstDifference v.p0 v.p1).getD 0

/-- What the voter finds on one port (02 R50). -/
inductive Pattern where
  | p1
  /-- P2, P3 or P4 with its odd core and the presentation whose address is recorded. -/
  | odd (pattern : Nat) (core : Nat) (shown : Option Presentation)
  | p5
  | p6
deriving DecidableEq, Repr

/-- The pattern in 2oo3 (02 R50). -/
def pattern3 (v : PortView) : Pattern :=
  let one := fun (core : Nat) (mine other : Option Presentation) =>
    match other, mine with
    | none, m => Pattern.odd 4 core m
    | some o, none => .odd 3 core (some o)
    | some o, some _ => .odd 2 core (some o)
  if v.p0 = v.p1 ∧ v.p1 = v.p2 then .p1
  else if v.p0 = v.p1 then one 2 v.p2 v.p0
  else if v.p0 = v.p2 then one 1 v.p1 v.p0
  else if v.p1 = v.p2 then one 0 v.p0 v.p1
  else .p5

/-- The pattern in 2oo2 with core `out` excluded (02 R50). -/
def pattern2 (v : PortView) (out : Nat) : Pattern :=
  let same := match out with
    | 0 => decide (v.p1 = v.p2)
    | 1 => decide (v.p0 = v.p2)
    | _ => decide (v.p0 = v.p1)
  if same then .p1 else .p6

/-- The voted 2oo3 or 2oo2 pattern of a port. -/
def State.portPattern (s : State) (v : PortView) : Pattern :=
  if s.get CORE_STAT_VOTE = 0 then pattern3 v else pattern2 v (s.get CORE_STAT_ODD)

/-- CORE_LASTK.FIELD of a port: the first field in which the presentations of the cores that vote are not all equal (02 R80). -/
def State.portField (s : State) (v : PortView) : Nat :=
  if s.get CORE_STAT_VOTE = 0 then firstField v else firstField2 v (s.get CORE_STAT_ODD)

/-- The modes from BOOT to CONFIGURE (02 R54). -/
def Mode.starts : Mode → Bool
  | .boot | .startTest | .load | .configure => true
  | _ => false

/-- Change CORE's own state. -/
def State.withCore (s : State) (f : CoreBlock → CoreBlock) : State := { s with core := f s.core }

/-- CORE_OUTVc and CORE_RSCNT.Cc. -/
def outvoteField : Nat → Fld
  | 0 => CORE_OUTV0_COUNT
  | 1 => CORE_OUTV1_COUNT
  | _ => CORE_OUTV2_COUNT

def resyncCountField : Nat → Fld
  | 0 => CORE_RSCNT_C0
  | 1 => CORE_RSCNT_C1
  | _ => CORE_RSCNT_C2

/-- The operating-seconds stamps of the last 16 resyncs of a core, newest first, in MRAM (02 R56; 04 R162). -/
def State.stamps (s : State) (c : Nat) : List Nat := (List.range 16).filterMap fun i => (s.moduleWord (stampAt c i)).map (·.toNat)

/-- A resync of a core is stamped. -/
def State.addStamp (s : State) (c : Nat) : State :=
  (((s.opsec :: s.stamps c).take 16).mapIdx fun i t => (i, t)).foldl (fun (s : State) e =>
    s.moduleWrite (stampAt c e.1) (BitVec.ofNat 32 e.2)) s

/-- Resyncs of a core in the preceding 24 h of operating time (02 R56). -/
def State.recentResyncs (s : State) (c : Nat) : Nat :=
  ((s.stamps c).filter fun t => decide (s.opsec < t + 86400)).length

/-- Bit of CORE_STAT.FAILED. -/
def State.isFailed (s : State) (c : Nat) : Bool := s.get CORE_STAT_FAILED / 2 ^ c % 2 == 1

/-- Exclude a core: 2oo2, and core 1 leads where core 0 is out (02 R49, R51). -/
def State.exclude (s : State) (c : Nat) : State :=
  ((s.set CORE_STAT_VOTE 1).set CORE_STAT_ODD c).setBit CORE_STAT_LEAD (c == 0)

/-- All three cores vote (02 R58). -/
def State.include (s : State) : State := ((s.set CORE_STAT_VOTE 0).set CORE_STAT_ODD 3).setBit CORE_STAT_LEAD false

/-- Mark a core failed: excluded until the next reset (02 R55). -/
def State.markFailed (s : State) (c : Nat) : State :=
  let s := s.exclude c
  let s := if s.isFailed c then s else s.set CORE_STAT_FAILED (s.get CORE_STAT_FAILED + 2 ^ c)
  s.withCore fun b => { b with odd := none }

/-- CORE_DIS flag of a pattern 2 to 4. -/
def disField : Nat → Fld
  | 2 => CORE_DIS_P2
  | 3 => CORE_DIS_P3
  | _ => CORE_DIS_P4

/-- Record a disagreement in CORE_LASTA and CORE_LASTK (02 R80). -/
def State.recordDisagreement (s : State) (core field : Nat) (data p4 : Bool) (shown : Option Presentation) : State :=
  let s := s.set CORE_LASTA_ADDR ((shown.map (·.addr.toNat)).getD 0)
  let s := ((s.set CORE_LASTK_CORE core).setBit CORE_LASTK_PORT data).set CORE_LASTK_FIELD field
  ((s.setBit CORE_LASTK_P4 p4).set CORE_LASTK_PART ((shown.map (·.part.toNat)).getD 0)).set CORE_LASTK_RICL s.cx.ric.toNat

/-- The consequences of an outvote by mode (02 R54, R56). -/
def State.outvoteConsequence (s : State) (core pattern : Nat) : State :=
  let m := s.mode
  if m.starts then
    (s.emit 0x1009 [m.code, core]).demand 1 pattern
  else if !s.bit CORE_CFG_DEGALLOW then s.demand 1 pattern
  else
    let s := if m = .run then s.toMode .runDegraded 9 else s
    if s.recentResyncs core ≥ s.get CORE_CFG_RSLIM then
      let s := ((s.markFailed core).setBit CORE_DIS_RSLIM true).emit 0x1005 [core, s.get CORE_CFG_RSLIM]
      if s.bit CORE_CFG_FAILSAFE then s.demand 1 9 else s
    else s.withCore fun b => { b with odd := some (core, s.tick) }

/-- A core is outvoted under P2, P3 or P4: recorded, stopped, excluded (02 R50, R51). In BOOT to CONFIGURE the module does not enter
2oo2 (R54): SAFE follows. -/
def State.recordOutvote (s : State) (core pattern field : Nat) (data : Bool) (shown : Option Presentation) : State :=
  let s := (s.inc (outvoteField core)).setBit (disField pattern) true
  let s := s.recordDisagreement core field data (pattern == 4) shown
  (s.emit 0x1001 [core, (s.rd CORE_LASTA).toNat, (s.rd CORE_LASTK).toNat, s.cx.ric.toNat % 2 ^ 32]).when (!s.mode.starts) (·.exclude core)

/-- P5 or P6: nothing passes, the cores are stopped with the module's SAFE entry (02 R50, R52, R53). -/
def State.safeByVoter (s : State) (pattern field : Nat) (data : Bool) (shown : Option Presentation) : State :=
  let s := s.recordDisagreement 3 field data false shown
  let s := s.emit (if pattern = 5 then 0x1006 else 0x1007) [(s.rd CORE_LASTA).toNat, (s.rd CORE_LASTK).toNat]
  (s.demand 1 pattern).onCore .cx fun x => { x with wait := .noResponse }

/-- The presentation of the lead core. -/
def State.leadView (s : State) (v : PortView) : Option Presentation := if s.get CORE_STAT_LEAD = 1 then v.p1 else v.p0

/-- A resync ends as failed (02 R54, R61): `case_` 1 to 3, `mode` left at its start, `dur` so far. -/
def State.resyncFailed (s : State) (core mode case_ dur : Nat) : State :=
  let s := (((s.set CORE_RSLAST_DUR dur).set CORE_RSLAST_CORE core).set CORE_RSLAST_OK 0).set CORE_RSLAST_CASE case_
  let s := ((s.setBit CORE_DIS_RSFAIL true).markFailed core).withCore fun b => { b with resync := .idle }
  let s := s.emit 0x1004 [core, case_]
  if s.bit CORE_CFG_FAILSAFE then s.demand 1 8 else s.toMode (Mode.ofCode mode) 9

/-- A resync completes (02 R54, R61): the mode returns, RUN_DEGRADED to RUN. -/
def State.resyncCompleted (s : State) (core mode dur : Nat) : State :=
  let s := (((s.set CORE_RSLAST_DUR dur).set CORE_RSLAST_CORE core).set CORE_RSLAST_OK 1).set CORE_RSLAST_CASE 0
  let s := ((s.inc (resyncCountField core)).addStamp core).withCore fun b => { b with resync := .idle, odd := none }
  let s := s.toMode (if mode = Mode.runDegraded.code then .run else Mode.ofCode mode) 9
  s.emit 0x1003 [core, dur, s.recentResyncs core]

/-- An odd core under P2 to P4: under a resync not yet completed, the resynchronised core's outvote is its case 3
and another core's completes it first (02 R61). CORE_RSLAST.DUR of case 3 runs to this clock, at most the 30 000 of its field (R58,
R80). -/
def State.outvote (s : State) (core pattern field : Nat) (data : Bool) (shown : Option Presentation) : State :=
  match s.core.resync with
  | .released rc mode start dur =>
    if rc = core then
      (s.recordOutvote core pattern field data shown).resyncFailed core mode 3 (min (s.mono - start) 30000)
    else ((s.resyncCompleted rc mode dur).recordOutvote core pattern field data shown).outvoteConsequence core pattern
  | _ => (s.recordOutvote core pattern field data shown).outvoteConsequence core pattern

/-- The more severe pattern of two ports in the same clock acts (02 R50): two different odd cores are a P5. Where both ports
disagree, with the same odd core or both with P5 or P6, the fetch port's pattern, address and fields are recorded and counted once:
the manual does not say which, DESIGN CHOICE, log entry 76. -/
def State.voterActs (s : State) (f d : PortView) : State :=
  match s.portPattern f, s.portPattern d with
  | .p6, _ => s.safeByVoter 6 (s.portField f) false (s.leadView f)
  | _, .p6 => s.safeByVoter 6 (s.portField d) true (s.leadView d)
  | .p5, _ => s.safeByVoter 5 (s.portField f) false (s.leadView f)
  | _, .p5 => s.safeByVoter 5 (s.portField d) true (s.leadView d)
  | .odd p c a, .odd _ c' _ =>
    if c = c' then s.outvote c p (s.portField f) false a else s.safeByVoter 5 (s.portField f) false (s.leadView f)
  | .odd p c a, .p1 => s.outvote c p (s.portField f) false a
  | .p1, .odd p c a => s.outvote c p (s.portField d) true a
  | .p1, .p1 => s

/-- Whether a port of a core presents anything. -/
def presents (v : PortView) : Bool := v.p0.isSome || v.p1.isSome || v.p2.isSome

/-- One CX clock of the voter (02 R46, R50, R63). `nonCode`: a non-code output on the fetch (false) or data (true) port. -/
def voterClock (f d : PortView) (nonCode : Option Bool) (s : State) : State :=
  if s.mode = .powerup ∨ s.mode = .safe then s
  else match nonCode with
  | some port => ((s.emit 0x1008 [port.toNat, s.tick % 2 ^ 32]).demand 2 port.toNat).onCore .cx
      fun x => { x with wait := .noResponse }
  | none =>
    let s' := s.voterActs f d
    match s'.core.resync with
    | .released core mode _ dur => if (s'.sys.demands == s.sys.demands) && (presents f || presents d) then s'.resyncCompleted core mode dur else s'
    | _ => s'

def execVoterCompare (t : Nat) (fetch data : PortView) (nonCode : Option Bool) (s : State) :
    Host.Outcome State Fault Refusal :=
  .next (voterClock fetch data nonCode (s.advance t))

/-- Step 8 of 01 R39 at the resync edge: the transfer starts (02 R57, R58, R60). -/
def State.startResync (s : State) (core : Nat) : State :=
  let m := s.mode
  let s := (s.emit 0x1002 [core, s.tick % 2 ^ 32]).toMode .resync 9
  let s := (s.set CORE_STAT_VOTE 2).clearReservation .cx
  s.withCore fun b => { b with resync := .transfer core m.code s.mono }

/-- The transfer's end (02 R58, R61): released 27.0 to 30.0 µs after its start, or failed within 30.0 µs; no other time is one at
which it ends. A P6 of the agreeing pair that the sequencer finds in the transfer or signature phase belongs to no transaction of a
port: it is recorded with CORE_LASTA 0, PORT 1 (data) and FIELD 0, DESIGN CHOICE, log entry 76. -/
def releaseResync (outcome : ResyncOutcome) (s : State) : State :=
  match s.core.resync with
  | .transfer core mode start =>
    let dur := s.mono - start
    if 30000 < dur then s
    else match outcome with
    | .released =>
      if dur < 27000 then s
      else (s.include.set CORE_RSLAST_DUR dur).withCore fun b => { b with resync := .released core mode start dur, odd := none }
    | .localTestFailed => s.resyncFailed core mode 1 dur
    | .signatureDiffers => s.resyncFailed core mode 2 dur
    | .agreeingPairDisagrees => s.safeByVoter 6 0 true none
  | _ => s

end Sys2Proof.Machine
end

