-- ==== Sys2Proof/Machine/Bist.lean ====
section
/-!
DEFINITION. BIST: slices, laps and the manual test (15 R505 to R509).
-/

namespace Sys2Proof.Machine

open Reg

/-- The modes in which slices run (15 R505). -/
def Mode.slices : Mode → Bool
  | .run | .runDegraded | .standby | .stop | .service => true
  | _ => false

/-- Slices per lap, as BIST_STAT.NSLICE holds them; log entry 27. -/
def slicesPerLap : Nat := Config.bistSlices % 0x8000

/-- LAPMAX in seconds. -/
def State.lapLimit (s : State) : Nat := s.get BIST_CFG_LAPMAX * 3600

/-- A slice is done; the last one ends the lap (15 R505, R507). -/
def State.sliceDone (s : State) : State :=
  let s := s.set BIST_STAT_NSLICE slicesPerLap
  let from_ := s.sys.lapAt.getD s.mono
  let s := (s.inc BIST_STAT_DONE).withSys fun b => { b with lapAt := some from_ }
  if s.get BIST_STAT_DONE < slicesPerLap then s
  else
    let secs := (s.mono - from_) / 1000000000
    let s := ((s.set BIST_STAT_DONE 0).set BIST_LAPLAST_VALUE (min secs 0xFFFFFFFF)).emit 0xD003 [secs]
    let s := s.when (decide (s.mono - from_ ≤ s.lapLimit * 1000000000)) fun s => s.setBit BIST_STAT_LATE false
    s.withSys fun b => { b with lapAt := some s.mono, exercised := false }

/-- What the voter exercise slice presents (02 R65): every kind code with every address bit and write-data bit at 0 and at 1, every
privilege, every partition. -/
def voterExercise : List Presentation :=
  (List.range 16).flatMap (fun k =>
      [⟨BitVec.ofNat 4 k, 0, 0, 0, 0, 0⟩, ⟨BitVec.ofNat 4 k, 0xFFFFFFFF#32, 15, 0xFFFFFFFF#32, 0, 0⟩])
    ++ (List.range 3).map (fun p => ⟨1, 0, 15, 0, BitVec.ofNat 2 p, 0⟩)
    ++ (List.range 32).map fun p => ⟨1, 0, 15, 0, 0, BitVec.ofNat 5 p⟩

/-- The three cores present the same on both ports. A disturbance in one of them shows as the VOTER_COMPARE row's (15 R508). -/
def State.presentAll (s : State) (p : Presentation) : State := s.voterActs ⟨p, p, p⟩ ⟨p, p, p⟩

/-- A slice of the core complex (15 R506, R508): the first of a lap is the voter exercise slice (02 R65). -/
def State.coreSlice (s : State) : State :=
  (s.when (!s.sys.exercised) fun s => (voterExercise.foldl State.presentAll s).withSys fun b => { b with exercised := true }).sliceDone

/-- A slice of a block outside the core complex (15 R505, R508); `failed`: the detail of its failure. The last slice of a lap waits for
the voter exercise slice, which belongs to every lap (02 R65). -/
def execBistSlice (t : Nat) (slice : BitVec 15) (failed : Option (BitVec 16)) (s : State) : Host.Outcome State Fault Refusal :=
  let s := s.advance t
  if !s.mode.slices ∨ (slicesPerLap ≤ s.get BIST_STAT_DONE + 1 ∧ !s.sys.exercised) then .next s
  else
    let s := match failed with
      | none => s
      | some d =>
        let s := (s.set BIST_FAIL_SLICE slice.toNat).set BIST_FAIL_DETAIL d.toNat
        (s.emit 0xD004 [slice.toNat, d.toNat]).sysDemand 6 slice.toNat
    .next s.sliceDone

/-- The running lap has lasted longer than LAPMAX (15 R507). -/
def execBistLapLate (t : Nat) (s : State) : Host.Outcome State Fault Refusal :=
  let s := s.advance t
  match s.sys.lapAt with
  | none => .next s
  | some from_ =>
    if s.bit BIST_STAT_LATE ∨ s.mono - from_ ≤ s.lapLimit * 1000000000 then .next s
    else
      let s := (s.setBit BIST_STAT_LATE true).emit 0xD005 [(s.mono - from_) / 1000000000, s.get BIST_CFG_LAPMAX]
      .next (s.when (s.bit BIST_CFG_LATESAFE) fun s => s.sysDemand 7 0)

/-- The manual test (15 R509). A write of BIST_MCMD with GO = 0 is taken as a command too and refused with result 6: the manual says
only that GO = 1 runs the test, DESIGN CHOICE, log entry 8. -/
def State.manualTest (s : State) (cseq item : Nat) (go : Bool) : State :=
  s.mailboxLater BIST_MSEQ_LASTCMD BIST_MRES_RESULT cseq fun s =>
    if s.mode ≠ .stop then (s, some 1)
    else if s.lifeCycle ≠ 0 ∧ s.lifeCycle ≠ 1 ∧ s.lifeCycle ≠ 4 then (s, some 2)
    else if 13 < item ∨ !go then (s, some 6)
    else if s.sys.manual.isSome then (s, some 8)
    else (s.withSys fun b => { b with manual := some item }, none)

def execBistManualRun (t cseq : Nat) (item : Fin 16) (go : Bool) (s : State) : Host.Outcome State Fault Refusal :=
  .next ((s.advance t).manualTest cseq item.val go)

/-- The manual test ends (15 R509); items 4 to 7 leave their SRAM bank unwritten (15 R498). -/
def execBistManualDone (t : Nat) (failed : Option (BitVec 16)) (s : State) : Host.Outcome State Fault Refusal :=
  let s := s.advance t
  match s.sys.manual with
  | none => .next s
  | some item =>
    let s := s.withSys fun b => { b with manual := none }
    let s := s.when (decide (4 ≤ item) && decide (item ≤ 7)) fun s =>
      s.clearWords ((item - 4) * 0x200000) ((item - 4) * 0x200000 + 0x1FFFFF)
    let s := s.set BIST_MRES_DETAIL ((failed.map (·.toNat)).getD 0)
    .next (s.answerLate BIST_MSEQ_LASTCMD BIST_MRES_RESULT (if failed.isSome then 3 else 0))

end Sys2Proof.Machine
end

