-- ==== Sys2Proof/Machine/Brg.lean ====
section
/-!
DEFINITION. The commands of Bridle (13): link, completions and timeouts, posted writes, mailbox, FIFO and log reads,
stations, sideband, routes.
-/

namespace Sys2Proof.Machine

open Reg

/-! ### Held accesses -/

/-- A held load of a core ends in an error response, if the core is still held on it. -/
def State.loadFails (s : State) (c : Master) (op : LoadOp) (addr : Nat) : State :=
  if (s.coreOf c).wait = .load op addr then s.dataAccess c 2 addr else s

/-- A word has come for a held load; the low word of an FLD goes on to the high word (03 R95). -/
def State.loadWord (s : State) (c : Master) (op : LoadOp) (addr : Nat) (w : Word) (check : Bool := false) : State :=
  if (s.coreOf c).wait = .load op addr then
    match op with
    | .fld fd none =>
      if check && c == .cx then s.receiveWord c op addr check w
      else
      let op := LoadOp.fld fd (some w)
      match s.checkAccess c .rd (addr + 4) (addr + 7) with
      | (s, some sub) => s.dataAccess c sub (addr + 4)
      | (s, none) =>
        match s.brgLoad c op (addr + 4) with
        | (s, .data h) => s.finishLoad c op (addr + 4) h
        | (s, .held) => s.onCore c fun x => { x with wait := .load op (addr + 4) }
        | (s, _) => s.dataAccess c 2 (addr + 4)
    | _ => s.receiveWord c op addr check w
  else s

/-- A held non-posted store ends in an error response. -/
def State.storeFails (s : State) (c : Master) (addr : Nat) : State :=
  match (s.coreOf c).wait with
  | .store a _ => if a = addr then s.dataAccess c 2 addr else s
  | _ => s

/-- A held non-posted store is done; the first word of an FSD goes on to the second (03 R95). -/
def State.storeDone (s : State) (c : Master) (addr : Nat) : State :=
  match (s.coreOf c).wait with
  | .store a rest =>
    if a ≠ addr then s
    else if rest.isSome then
      match s.checkAccess c .wr (addr + 4) (addr + 7) with
      | (s, some sub) => s.dataAccess c sub (addr + 4)
      | (s, none) =>
        match s.brgStore c (addr + 4) 2 (rest.getD 0#32) with
        | (s, .held) => s.onCore c fun x => { x with wait := .store (addr + 4) none }
        | (s, .error) => s.dataAccess c 2 (addr + 4)
        | (s, _) => (s.onCore c fun x => { x with wait := .none }).finish c
    else (s.onCore c fun x => { x with wait := .none }).finish c
  | _ => s

/-- The posted store that takes a free entry of O3 (13 R448): of those that may the highest tier, then the oldest. -/
def State.nextStore (s : State) : Option HeldStore :=
  (s.brg.stores.filter fun h => s.mayPost (s.coreOf h.c).part).foldl (fun best h =>
    match best with
    | some b => if s.partTier (s.coreOf h.c).part < s.partTier (s.coreOf b.c).part then some h else some b
    | none => some h) none

/-- The core still waits on this store. -/
def State.awaits (s : State) (h : HeldStore) : Bool :=
  match (s.coreOf h.c).wait with
  | .store a _ => a == h.addr
  | _ => false

/-- Stores that wait for an entry of O3 take what is free, and their cores go on. -/
def State.takeStores : Nat → State → State
  | 0, s => s
  | k + 1, s =>
    match s.nextStore with
    | some h =>
      let s' := s.withBrg fun b => { b with stores := b.stores.erase h }
      (if s.awaits h then (s'.sendPosted h.addr (s.pcieAddr h.win h.addr) h.size (s.coreOf h.c).part h.win [h.data]).storeDone h.c h.addr
        else s').takeStores k
    | none => s

/-- A request that waits for a stopped window gets its error response (13 R451). -/
def State.refuseUse (s : State) : BrgUse → State
  | .load c op addr => s.loadFails c op addr
  | .nonPosted c addr _ _ => s.storeFails c addr
  | .readAhead (some (c, op, addr)) _ _ => s.loadFails c op addr
  | _ => s

/-- After an event on the link: loads and non-posted writes that wait for a stopped window are refused, then what can go goes (13
R448, R449, R451). -/
def State.settleBrg (s : State) : State :=
  let out := fun u => match u with
    | .posted _ => false
    | u => ((s.useWindow u).map s.brgStopped).getD false
  let s := (s.brg.waiting.filter out).foldl State.refuseUse (s.withBrg fun b => { b with waiting := b.waiting.filter fun u => !out u })
  let s := s.serveAsks
  s.takeStores (2 * s.brg.stores.length)

/-! ### The link -/

/-- The link comes up, from the end of BOOT on: event 0xA009. Goes down: untracked writes fail with kind 1, read-ahead blocks are discarded, event
0xA00A (13 R441, R451, R454). -/
def execPcieLinkChange (t : Nat) (up : Bool) (speed width : Nat) (s : State) : Host.Outcome State Fault Refusal :=
  let s := s.advance t
  if up then
    if !s.perstHigh ∨ (s.linkUp ∧ s.get BRG_STAT_SPEED = speed ∧ s.get BRG_STAT_WIDTH = width) then .next s
    else .next ((((s.setBit BRG_STAT_LINK true).set BRG_STAT_SPEED speed).set BRG_STAT_WIDTH width).emit 0xA009 [speed, width])
  else if !s.linkUp then .next s
  else
    let l := s.brg.open_
    let s := ((s.setBit BRG_STAT_LINK false).set BRG_STAT_SPEED 0).set BRG_STAT_WIDTH 0
    .next (((s.failWrites l 1).discardAhead (fun _ => true) 5).emit 0xA00A [l.length]).settleBrg

/-! ### Completions and timeouts -/

/-- The untracked writes a flush read settles (13 R450). -/
def State.flushed (s : State) (win serial : Nat) : List PostedWrite :=
  (s.openIn win).filter fun w => decide (w.serial < serial)

/-- A station's read fails (13 R455). -/
def State.stationReadFails (s : State) (i status : Nat) : State :=
  (s.inc (BRG_SSTAT_RDERR.at i)).emit 0xA00F [s.sdStation i, status]

/-- A configuration request ends (13 R442, R462). -/
def State.configAnswer (s : State) (r : Nat) : State := s.answerLate BRG_SEQ_LASTCMD BRG_RES_RESULT r

/-- A BAR.W that waits goes on flushing a window in which later writes of its partition are untracked (13 R450). -/
def State.flushRest (s : State) (win : Nat) : State :=
  s.when ((s.openIn win).any fun w => s.barWaits w.part) fun s => s.flushWindow win

/-- A request completes with Successful and good data (13 R445, R446, R450, R454, R455). `keep`: a block read ahead has not been
overtaken by a write. `check`: as for `State.receiveWord`. -/
def State.requestDone (s : State) (use : BrgUse) (data : List Word) (keep : Bool := true) (check : Bool := false) :
    State :=
  match use with
  | .load c op addr => s.loadWord c op addr (data.headD 0#32) check
  | .nonPosted c addr _ _ => s.storeDone c addr
  | .readAhead wait block part =>
    let s := s.when keep fun s => s.keepAhead ⟨block, data, 0, part, s.mono, s.mono⟩
    match wait with
    | some (c, op, addr) =>
      if (s.coreOf c).wait = .load op addr then
        if keep then
          match s.takeAhead addr with
          | some (s, w) => s.loadWord c op addr w check
          | none => s
        else s.loadWord c op addr ((data[addr % 64 / 4]?).getD 0#32) check
      else s
    | none => s
  | .flush win serial => (s.completeWrites (s.flushed win serial)).flushRest win
  | .station i =>
    let s := s.withBrg fun b => { b with readAt := CMap.put (fun _ => 0) b.readAt i (s.mono + 1) }
    ((s.setBit (BRG_SSTAT_LOST.at i) false).setBit (BRG_SSTAT_NEVER.at i) false).deliver 3 (s.sdStation i) data s.mono s.mono false
  | .config write => (s.when (!write) fun s => s.wr BRG_CFGDATA (data.headD 0#32)).configAnswer 0
  | .posted _ => s

/-- A request fails with a completion status (13 R445, R446, R450, R455, R462). A PLD's is a load of kind fetch-ahead (03 R110): it is
reported with its block and dropped, log entry 54. -/
def State.requestFails (s : State) (use : BrgUse) (status : Nat) : State :=
  match use with
  | .load c op addr => (s.emit 0xA002 [addr, status, (s.coreOf c).part]).loadFails c op addr
  | .nonPosted c addr _ _ => (s.emit 0xA002 [addr, status, (s.coreOf c).part]).storeFails c addr
  | .readAhead (some (c, op, addr)) _ part => (s.emit 0xA002 [addr, status, part]).loadFails c op addr
  | .readAhead none block part => s.emit 0xA002 [block, status, part]
  | .flush win serial => s.failWrites (s.flushed win serial) 5
  | .station i => s.stationReadFails i status
  | .config _ => s.configAnswer 9
  | .posted _ => s

/-- A request has no completion within CTO (13 R445, R446). The manual names no status: it is a free value. -/
def State.requestTimedOut (s : State) (use : BrgUse) : State :=
  match use with
  | .load c op addr => (s.emit 0xA003 [addr, (s.coreOf c).part]).loadFails c op addr
  | .readAhead (some (c, op, addr)) _ part => (s.emit 0xA003 [addr, part]).loadFails c op addr
  | .readAhead none block part => s.emit 0xA003 [block, part]
  | u =>
    let (v, s) := s.drawFree
    s.requestFails u v.toNat

/-- Words of data a request asks for; none: not compared (a zero-length read, a configuration write). -/
def State.requestWords (s : State) : BrgUse → Option Nat
  | .load _ _ _ => some 1
  | .readAhead _ _ _ => some 16
  | .station i => some (s.get (BRG_SD0_INLEN.at i))
  | .config false => some 1
  | _ => none

/-- A completion (13 R445, R446, R450, R455). Of a tag without a request: late, discarded and counted, and its number can be used
again. -/
def execPcieCompletionReceive (t tag status : Nat) (flaws : AnswerFlaws) (data : List Word) (s : State) :
    Host.Outcome State Fault Refusal :=
  let s := s.advance t
  match s.brg.tags.find? fun g => g.id == tag with
  | none =>
    let s := (s.withBrg fun b => { b with late := b.late.filter (· != tag) }).inc BRG_LATE_LATE
    .next (s.emit 0xA004 [tag, (s.rd BRG_LATE).toNat])
  | some g =>
    let good := status == 0 && !flaws.bad && ((s.requestWords g.use).map (· == data.length)).getD true
    let s := s.dropTag tag
    .next (if good then s.requestDone g.use data (!g.stale) flaws.check else s.requestFails g.use status).settleBrg

/-- CTO has run out for a request (13 R446); the tag is not used again before its late completion, log entry 25. -/
def execCompletionTimeout (t tag : Nat) (s : State) : Host.Outcome State Fault Refusal :=
  let s := s.advance t
  match s.brg.tags.find? fun g => g.id == tag with
  | some g =>
    if g.at_ + s.get BRG_CFG_CTO * 1000 ≤ s.mono then
      let s := s.withBrg fun b => { b with late := (tag :: b.late.filter (· != tag)).take 224 }
      .next ((s.dropTag tag).requestTimedOut g.use).settleBrg
    else .next s
  | none => .next s

/-! ### Posted writes -/

/-- 100 µs after the oldest untracked write of a window: a flush read (13 R450). -/
def execFlushTimer (t win : Nat) (s : State) : Host.Outcome State Fault Refusal :=
  let s := s.advance t
  match s.sentIn win with
  | w :: _ => .next (s.when (decide (w.at_ + 100000 ≤ s.mono) && !s.flushing win w.serial) fun s => s.flushWindow win)
  | [] => .next s

/-- An error message of a function (13 R450): the windows that target it, and the kind and address its AER log gave. -/
def execPcieErrorMessage (t : Nat) (wins : List Nat) (log : Option (Nat × Nat)) (s : State) : Host.Outcome State Fault Refusal :=
  let s := s.advance t
  let l := s.brg.open_.filter fun w => wins.contains w.win
  let hit := match log with
    | some (kind, addr) => if 2 ≤ kind ∧ kind ≤ 4 then (l.find? fun w => w.pcie == addr).map fun w => (w, kind) else none
    | none => none
  match hit with
  | some (w, kind) => .next (s.failWrite w kind).settleBrg
  | none => .next (s.failWrites l 7).settleBrg

/-- Writes still untracked PWLIM after they were sent fail with kind 5 (13 R450). -/
def execPostedWriteTimeout (t : Nat) (s : State) : Host.Outcome State Fault Refusal :=
  let s := s.advance t
  .next (s.failWrites (s.brg.open_.filter fun w => w.sent && decide (w.at_ + s.get BRG_CFG_PWLIM * 1000 ≤ s.mono)) 5).settleBrg

/-- An inbound request (13 R442): an interrupt, or refused and counted. -/
def execPcieInboundRequest (t : Nat) (r : InboundRequest) (s : State) : Host.Outcome State Fault Refusal :=
  let s := s.advance t
  match r.addr == 0xFFF00000, r.write with
  | true, some w => .next (s.set BRG_MSIPEND_VEC (Nat.lor (s.get BRG_MSIPEND_VEC) (2 ^ (w.toNat % 32))))
  | _, _ =>
    let s := s.inc BRG_LATE_INUR
    let due := match s.brg.inboundSaid with
      | some m => decide (m + 1000000 ≤ s.mono)
      | none => true
    .next (s.when due fun s => (s.withBrg fun b => { b with inboundSaid := some s.mono }).emit 0xA00C [r.requester, r.addr])

/-! ### The mailbox -/

/-- RESUME of a window (13 R451). -/
def brgResume (win : Nat) (s : State) : State × Option Nat :=
  if !s.bit (BRG_WnCTL_EN win) then (s, some 6)
  else if !(s.openIn win).isEmpty then (s, some 5)
  else
    let s := (s.setBit (BRG_WnSTAT_STOPPED win) false).withBrg fun b => { b with firstRefusal := b.firstRefusal.filter (· != win) }
    (s.emit 0xA007 [win, s.get (BRG_WnSTAT_REFUSED win)], some 0)

/-- CFGRD and CFGWR (13 R442): one at a time. -/
def brgConfig (write : Bool) (s : State) : State × Option Nat :=
  if s.asking fun u => match u with | .config _ => true | _ => false then (s, some 8)
  else (s.request (.config write), none)

/-- A command at BRG_CMD. -/
def State.brgMailbox (s : State) (cseq : Nat) (act : State → State × Option Nat) : State :=
  s.mailboxLater BRG_SEQ_LASTCMD BRG_RES_RESULT cseq act

def execResume (cseq : Nat) (win : Fin 16) (s : State) : Host.Outcome State Fault Refusal :=
  .next (s.brgMailbox cseq (brgResume win.val))

def execCfgrd (t cseq : Nat) (s : State) : Host.Outcome State Fault Refusal :=
  .next ((s.advance t).brgMailbox cseq (brgConfig false))

def execCfgwr (t cseq : Nat) (s : State) : Host.Outcome State Fault Refusal :=
  .next ((s.advance t).brgMailbox cseq (brgConfig true))

/-! ### Reads with an effect -/

/-- A read of BRG_WEFINFO removes the head of the write-error FIFO (13 R452). -/
def State.readWefinfo (s : State) : State × Word :=
  match s.brg.wef with
  | e :: r =>
    ((s.withBrg fun b => { b with wef := r }).showErrors,
      BitVec.ofNat 32 (e.seq + e.kind * 2 ^ 24 + e.size * 2 ^ 27 + e.station.toNat * 2 ^ 29 + 2 ^ 31))
  | [] => (s, 0)

/-- A read of BRG_PFLINFO removes the head of the discarded-prefetch log (13 R454). -/
def State.readPflinfo (s : State) : State × Word :=
  match s.brg.losses with
  | e :: r =>
    ((s.withBrg fun b => { b with losses := r }).showLosses,
      BitVec.ofNat 32 (e.unused + e.part * 2 ^ 8 + e.cause * 2 ^ 16 + 2 ^ 31))
  | [] => (s, 0)

def execWefinfoRead (s : State) : Host.Outcome State Fault Refusal := .next (State.answerRead s.readWefinfo)
def execPflinfoRead (s : State) : Host.Outcome State Fault Refusal := .next (State.answerRead s.readPflinfo)

def execReadaheadExpiry (t : Nat) (s : State) : Host.Outcome State Fault Refusal := .next (s.advance t).expireAhead

/-! ### Stations -/

/-- LEAD before an exchange edge the input block of station descriptor `i` is read (13 R455); not of a refused configuration (01
R30). -/
def execStationReadStart (t : Nat) (station : Fin 256) (s : State) : Host.Outcome State Fault Refusal :=
  let i := station.val
  let s := s.advance t
  let edge := s.mono + s.get (BRG_SD4_LEAD.at i) * 1000
  let due := s.configured && s.bit (BRG_SD0_EN.at i) && s.get (BRG_SD0_INLEN.at i) != 0 && edge % 125000 == 0 && s.isExchange i (edge / 125000)
  .next (s.when (due && !s.asking (· == .station i)) fun s => s.request (.station i))

/-- No successful read for TMO ms, from reset where none has come yet: the station is lost (13 R455; 05 R179). -/
def execStationReadTimeout (t : Nat) (station : Fin 256) (s : State) : Host.Outcome State Fault Refusal :=
  let i := station.val
  let s := s.advance t
  let last := CMap.lookup (fun _ => 0) s.brg.readAt i
  if s.configured ∧ s.bit (BRG_SD0_EN.at i) ∧ last - 1 + s.get (BRG_SD4_TMO.at i) * 1000000 ≤ s.mono then
    .next ((s.setBit (BRG_SSTAT_LOST.at i) true).stationLost 3 (s.sdStation i))
  else .next s

/-! ### Sideband -/

/-- The sampled levels of the sideband lines change (13 R457). -/
def execSidebandInputChange (t : Nat) (levels : BitVec 8) (s : State) : Host.Outcome State Fault Refusal :=
  let s := s.advance t
  let inputs := BitVec.ofNat 8 (255 - s.get BRG_SBCFG_DIR)
  let changed := ((levels ^^^ BitVec.ofNat 8 (s.get BRG_SBIN_LVL)) &&& inputs).toNat
  let s := (s.set BRG_SBIN_LVL levels.toNat).set BRG_SBIN_CHG (Nat.lor (s.get BRG_SBIN_CHG) changed)
  .next (s.when (Nat.land changed (s.get BRG_SBCFG_IRQEN) != 0) fun s => s.emit 0xA00D [(s.rd BRG_SBIN).toNat])

/-- A write of BRG_SBOUT (13 R457); the lines drive `sidebandLevel`. -/
def execSidebandOutputWrite (levels : BitVec 8) (s : State) : Host.Outcome State Fault Refusal :=
  .next (s.set BRG_SBOUT_LVL levels.toNat)

/-! ### Routes -/

/-- The loss of a source (13 R458, R460): zeros once where ZLOST is set; a gateway station is lost too. -/
def State.routeLost (s : State) (k : Nat) : State :=
  let s := if s.routeZlost k && !s.brg.zeroed.contains k then
      (s.routeWrite k (List.replicate (s.routeLen k) 0#32) s.mono).withBrg fun b => { b with zeroed := k :: b.zeroed }
    else s
  if s.routeDkind k = 3 ∧ 3840 ≤ s.routeDid k then s.stationLost 3 (s.routeDid k) else s

/-- Copy the slice of route `k` from a source block (13 R460). -/
def State.routeCopy (s : State) (k : Nat) (b : InBlock) : State :=
  let slice := (List.range (s.routeLen k)).map fun i => (b.words[s.routeSoff k + i]?).getD 0#32
  (s.routeWrite k slice b.arrival).withBrg fun x => { x with zeroed := x.zeroed.filter (· != k) }

/-- The routes of a source are performed (13 R458, R460): of its block at the head of the queue of arrivals, or (`lost`) of its loss,
after the blocks that came before it. -/
def execRouteCopy (t : Nat) (kind : Fin 16) (source : Fin 4096) (lost : Bool) (s : State) : Host.Outcome State Fault Refusal :=
  let s := s.advance t
  let l := (s.routesOf kind.val source.val).filter s.routeAllowed
  if lost then
    let waits := s.brg.arrivals.any fun a => a.kind == kind.val && a.index == source.val
    .next (s.when (s.bit (stLost kind.val source.val) && !waits) fun s => l.foldl State.routeLost s)
  else
    match s.brg.arrivals with
    | a :: r =>
      if a.kind = kind.val ∧ a.index = source.val then
        .next (l.foldl (fun s k => s.routeCopy k a.block) (s.withBrg fun b => { b with arrivals := r }))
      else .next s
    | [] => .next s

end Sys2Proof.Machine
end

