-- ==== Sys2Proof/Machine/Change.lean ====
section
/-!
DEFINITION. PREPARE and the commands of the online-change mailbox (05 R193 to R196).
-/

namespace Sys2Proof.Machine

open Reg

/-- With every dispatch delayed by `ns`, a deadline is missed in the base or under a selectable mask (05 R194; 01 R44). -/
def State.missesDelayed (s : State) (ns : Nat) : Bool :=
  (0 :: s.masks).any fun m =>
    let c := s.coverMask m
    (firstRefusal (c.checkResponse ns c.enabledTasks) c.enabledTasks).isSome

/-- PREPARE (05 R193 to R195). The resulting configuration passes every check of CONFIGURE, over every selectable combination. -/
def prepareChange (p : ChangePackage) (s : State) : State × Nat :=
  if s.ocState ≠ ocIdle then (s, 3)
  else if p.base ≠ s.sys.program.identity then (s, 4)
  else if !s.packageAddressesOk p then (s, 5)
  else
    let after := s.uncover.applyDescriptors p
    match after.checkConfiguration with
    | some (r, comb) => (s.reportRefusal r comb, 6)
    | none =>
      let ns := switchTime p
      if !s.haveCommonStart (s.changedTasks p.parts) then (s, 7)
      else if 200000 < p.plannedNs ∨ p.plannedNs < ns then (s, 8)
      else if after.missesDelayed ns then (s, 9)
      else
        let s := s.withCyc fun c => { c with change := some p, switchNs := ns, undo := none }
        let s := ((s.setOc ocPrepared).set CYC_OCSTAT_HOLDS 0).set CYC_OCSTAT_PARTS p.parts
        (((s.set CYC_OCPARTS_PARTS p.parts).tellPartner (.prepared p.identity)).emit 0x300C [p.identity, ns], 0)

/-- A command at the online-change mailbox: its sequence error is 15 (00 R9). -/
def State.changeMailbox (s : State) (cseq : Nat) (act : State → State × Nat) : State :=
  s.mailbox CYC_OCSEQ_LASTCMD CYC_OCSTAT_RESULT cseq act 15

def execPrepare (cseq : Nat) (pkg : ChangePackage) (s : State) : Host.Outcome State Fault Refusal :=
  .next (s.changeMailbox cseq (prepareChange pkg))

def execArm (cseq : Nat) (s : State) : Host.Outcome State Fault Refusal := .next (s.changeMailbox cseq armChange)

def execRevert (cseq : Nat) (s : State) : Host.Outcome State Fault Refusal := .next (s.changeMailbox cseq revertChange)

def execConfirmChange (cseq : Nat) (s : State) : Host.Outcome State Fault Refusal :=
  .next (s.changeMailbox cseq confirmChange)

def execAbandon (cseq : Nat) (s : State) : Host.Outcome State Fault Refusal := .next (s.changeMailbox cseq abandonChange)

end Sys2Proof.Machine
end

