-- ==== Sys2Proof/Machine/CoreFp.lean ====
section
/-!
DEFINITION. The floating-point operations of the cores (03 R82, R96, R97).
-/

namespace Sys2Proof.Machine

/-- Where a floating-point result goes. -/
inductive FpResult where
  /-- A value of precision P into an FP register; binary32 clears bits [63:32] (03 R82). -/
  | fp (bits flags : Nat)
  /-- A word into a GP register. -/
  | gp (v : Word) (flags : Nat)
  /-- GTOFH: bits [63:32] of the FP register. -/
  | high (v : Word)
deriving DecidableEq, Repr

def FpResult.flags : FpResult → Nat
  | .fp _ f => f
  | .gp _ f => f
  | .high _ => 0

/-- The format P selects: 0 binary32, 1 binary64 (03 R89). -/
def fpFormat (p : Bool) : FpFormat := if p then binary64 else binary32

/-- A comparison into a GP register; `quietNv`: NV for any NaN, else for a signalling one only. -/
def fpCompare (a b : FpVal) (holds quietNv : Bool) : FpResult :=
  let nan := a.isNan || b.isNan
  let nv := if quietNv then nan else a.isSignalling || b.isSignalling
  .gp (if holds && !nan then 1 else 0) (if nv then flagNV else 0)

/-- The operation on raw operands: FP patterns of precision P and the GP value of field fa (03 R96). -/
def fpResult (op : FpOp) (p : Bool) (rm : Rounding) (x y z : DWord) (g : Word) : FpResult :=
  let f := fpFormat p
  let bits := fun (d : DWord) => if p then d.toNat else d.toNat % 2 ^ 32
  let a := f.unpack (bits x)
  let b := f.unpack (bits y)
  let c := f.unpack (bits z)
  let fp := fun (r : Nat × Nat) => FpResult.fp r.1 r.2
  let sign := 2 ^ (f.eb + f.mb)
  match op with
  | .fadd => fp (fpAdd f rm a b)
  | .fsub => fp (fpAdd f rm a b.negate)
  | .fmul => fp (fpMul f rm a b)
  | .fdiv => fp (fpDiv f rm a b)
  | .fsqrt => fp (fpSqrt f rm a)
  | .fmadd => fp (fpFused f rm a b c)
  | .fmsub => fp (fpFused f rm a b c.negate)
  | .fnmadd => fp (fpFused f rm a.negate b c.negate)
  | .fmin => fp (fpMinMax f false (bits x) (bits y))
  | .fmax => fp (fpMinMax f true (bits x) (bits y))
  | .fabs => .fp (bits x % sign) 0
  | .fneg => .fp ((bits x + sign) % (2 * sign)) 0
  | .fmov => .fp (bits x) 0
  | .fcvt =>
    let from_ := fpFormat !p
    fp (f.pack rm (from_.unpack (if p then x.toNat % 2 ^ 32 else x.toNat)))
  | .ftoi =>
    let r := fpToRange rm a (-(2 ^ 31)) (2 ^ 31 - 1)
    .gp (BitVec.ofInt 32 r.1) r.2
  | .ftoiu =>
    let r := fpToRange rm a 0 (2 ^ 32 - 1)
    .gp (BitVec.ofInt 32 r.1) r.2
  | .itof => fp (fpOfInt f rm g.toInt)
  | .iutof => fp (fpOfInt f rm g.toNat)
  | .fceq => fpCompare a b (fpEqual a b) false
  | .fclt => fpCompare a b (fpLess a b) true
  | .fcle => fpCompare a b (fpLess a b || fpEqual a b) true
  | .fcls => .gp (BitVec.ofNat 32 (fpClass f (bits x))) 0
  | .ftog => .gp (x.extractLsb' 0 32) 0
  | .gtof => .fp g.toNat 0
  | .ftogh => .gp (x.extractLsb' 32 32) 0
  | .gtofh => .high g

/-- Set the sticky flags of FPSR (03 R97); `flags` in the order of FPSR[6:2]. -/
def CoreState.stickFlags (x : CoreState) (flags : Nat) : CoreState :=
  x.setSpecial sprFPSR (x.special sprFPSR ||| BitVec.ofNat 32 (flags * 4))

/-- Write a floating-point result. -/
def CoreState.putFp (x : CoreState) (fd : RegNo) : FpResult → CoreState
  | .fp bits _ => x.setFpr fd (BitVec.ofNat 64 bits)
  | .gp v _ => x.setGpr fd v
  | .high v => x.setFpr fd (v ++ (x.fpr fd).extractLsb' 0 32)

/-- A floating-point operation (03 R96, R97): a raised flag enabled in FPSR.TE writes no destination and raises
cause 9; the sticky flags are set in either case. -/
def fpOperate (c : Master) (op : FpOp) (p : Bool) (fd fa fb fc : RegNo) (s : State) : State :=
  let w := wordF fd fa fb fc p.toNat (fpCode op)
  if !fpDefined op p fb fc then s.raiseHere c 1 0 w
  else
    let x := s.coreOf c
    let r := fpResult op p (Rounding.ofCode (x.sprField sprFPSR 0 2)) (x.fpr fa) (x.fpr fb) (x.fpr fc) (x.gpr fa)
    let s := s.onCore c fun x => x.stickFlags r.flags
    if Nat.land r.flags (x.sprField sprFPSR 7 5) ≠ 0 then s.raiseHere c 9 r.flags w
    else s.onCore c fun x => (x.putFp fd r).retire

def execFpOperation (c : Master) (op : FpOp) (p : Bool) (fd fa fb fc : RegNo) (s : State) :
    Host.Outcome State Fault Refusal :=
  .next (s.instruction c (fpOperate c op p fd fa fb fc))

end Sys2Proof.Machine
end

