-- ==== Sys2Proof/Machine/CoreDecode.lean ====
section
/-!
DEFINITION. Which instruction of a core a word is (03 R89, R90, R92 to R98), and the word of an instruction. The commands of the core
rows carry their operands decoded; a word that is none of them is the ILLEGAL_INSTRUCTION row's.
-/

namespace Sys2Proof.Machine

/-! ### The words (03 R89, R92) -/

def immMajor : ImmOp → Nat
  | .addi => 0x02 | .andi => 0x03 | .ori => 0x04 | .xori => 0x05 | .slti => 0x06 | .sltiu => 0x07 | .lui => 0x08

def loadMajor : LoadKind → Nat
  | .lw => 0x10 | .lh => 0x11 | .lhu => 0x12 | .lb => 0x13 | .lbu => 0x14

def storeMajor : StoreKind → Nat
  | .sw => 0x18 | .sh => 0x19 | .sb => 0x1A

def branchMajor : BranchCond → Nat
  | .beq => 0x20 | .bne => 0x21 | .blt => 0x22 | .bge => 0x23 | .bltu => 0x24 | .bgeu => 0x25

/-- The word of a core instruction; none for a command that is none. -/
def coreWord : Instr → Option Word
  | .intRegisterOp _ op rd ra rb => some (wordR 0x01 rd ra rb (intFunc op))
  | .intImmediateOp _ op rd ra imm => some (wordI (immMajor op) rd ra imm.toNat)
  | .load _ k rd ra imm => some (wordI (loadMajor k) rd ra imm.toNat)
  | .ldl _ rd ra => some (wordR 0x15 rd ra 0 0)
  | .store _ k rs ra imm _ => some (wordI (storeMajor k) rs ra imm.toNat)
  | .stc _ rd ra rb => some (wordR 0x1B rd ra rb 0)
  | .flwFld _ double fd ra imm => some (wordI (if double then 0x1D else 0x1C) fd ra imm.toNat)
  | .fswFsd _ double fs ra imm _ => some (wordI (if double then 0x1F else 0x1E) fs ra imm.toNat)
  | .branch _ b ra rb off => some (wordB (branchMajor b) ra rb off)
  | .j _ off => some (wordJ 0x28 off)
  | .jl _ off => some (wordJ 0x29 off)
  | .jr _ ra imm => some (wordI 0x2A 0 ra imm.toNat)
  | .jlr _ rd ra imm => some (wordI 0x2B rd ra imm.toNat)
  | .fpOperation _ op p fd fa fb fc => some (wordF fd fa fb fc p.toNat (fpCode op))
  | .pld _ ra imm => some (wordI 0x38 0 ra imm.toNat)
  | .sys _ code => some (wordY 0 0 code.toNat 0)
  | .sysSafeCall _ => some (wordY 0 0 0x7FE 0)
  | .bistCoreSliceCall _ => some (wordY 0 0 0x7FF 0)
  | .brk _ code => some (wordY 0 0 code.toNat 1)
  | .eret _ => some (wordY 0 0 0 2)
  | .mfs _ rd spec => some (wordY rd 0 spec.toNat 3)
  | .mts _ spec ra => some (wordY 0 ra spec.toNat 4)
  | .barM _ => some (wordY 0 0 0 5)
  | .barW _ rd => some (wordY rd 0 0 6)
  | .trd _ _ rd ra => some (wordY rd ra 0 7)
  | .trs _ _ rd ra => some (wordY rd ra 0 8)
  | .cyw _ rd => some (wordY rd 0 0 9)
  | .imc _ rd => some (wordY rd 0 0 10)
  | .cmo _ op ra => some (wordY 0 ra op.toNat 11)
  | _ => none

/-! ### The decoder -/

/-- A register field. -/
def regField (w : Word) (lo : Nat) : RegNo := ⟨fieldGet w lo 5 % 32, Nat.mod_lt _ (by decide)⟩

/-- The integer register operation with a func (03 R93); those with one source have rb = 0. -/
def intOpOf (f : Nat) : Option IntOp :=
  [IntOp.add, .sub, .and, .or, .xor, .nor, .sll, .srl, .sra, .slli, .srli, .srai, .slt, .sltu, .mul, .mulh, .mulhu, .div, .divu, .rem,
    .remu, .clz, .exb, .exh, .exhu].find? fun op => intFunc op == f

/-- The floating-point operation with an fop (03 R96). -/
def fpOpOf (f : Nat) : Option FpOp :=
  [FpOp.fadd, .fsub, .fmul, .fdiv, .fsqrt, .fmadd, .fmsub, .fnmadd, .fmin, .fmax, .fabs, .fneg, .fmov, .fcvt, .ftoi, .ftoiu, .itof,
    .iutof, .fceq, .fclt, .fcle, .fcls, .ftog, .gtof, .ftogh, .gtofh].find? fun op => fpCode op == f

/-- A system operation by sub (03 R98). DESIGN CHOICE, log entry 78: a field the table does not list as used is 0, as the operations'
own words are written; another value is an undefined encoding. -/
def systemOf (c : Master) (t : Nat) (w : Word) : Option Instr :=
  let rd := regField w 21
  let ra := regField w 16
  let code := BitVec.ofNat 11 (fieldGet w 5 11)
  let only := fun (ok : Bool) (i : Instr) => if ok then some i else none
  match fieldGet w 0 5 with
  | 0 => only (rd == 0 && ra == 0)
      (if code = 0x7FE then .sysSafeCall c else if code = 0x7FF ∧ c = .cx then .bistCoreSliceCall t else .sys c code)
  | 1 => only (rd == 0 && ra == 0) (.brk c code)
  | 2 => only (rd == 0 && ra == 0 && code == 0) (.eret c)
  | 3 => only (ra == 0) (.mfs c rd code)
  | 4 => only (rd == 0) (.mts c code ra)
  | 5 => only (rd == 0 && ra == 0 && code == 0) (.barM c)
  | 6 => only (ra == 0 && code == 0) (.barW c rd)
  | 7 => only (code == 0 && rd != ra) (.trd t c rd ra)
  | 8 => only (code == 0 && rd != ra) (.trs t c rd ra)
  | 9 => only (ra == 0 && code == 0) (.cyw c rd)
  | 10 => only (ra == 0 && code == 0) (.imc c rd)
  | 11 => only (rd == 0 && decide (code.toNat ≤ 3)) (.cmo c code ra)
  | _ => none

/-- The instruction a word is on core `c` at MONO `t` (03 R89, R90, R92); `pkg`: the change package a store may hand over. -/
def decodeWord (c : Master) (t : Nat) (pkg : Option ChangePackage) (w : Word) : Option Instr :=
  let r1 := regField w 21
  let r2 := regField w 16
  let r3 := regField w 11
  let func := fieldGet w 0 11
  let imm := BitVec.ofNat 16 (fieldGet w 0 16)
  let off := BitVec.ofNat 26 (fieldGet w 0 26)
  let only := fun (ok : Bool) (i : Instr) => if ok then some i else none
  match fieldGet w 26 6 with
  | 0x01 => match intOpOf func with
    | some op => only (!intUnary op || r3 == 0) (.intRegisterOp c op r1 r2 r3)
    | none => none
  | 0x02 => some (.intImmediateOp c .addi r1 r2 imm)
  | 0x03 => some (.intImmediateOp c .andi r1 r2 imm)
  | 0x04 => some (.intImmediateOp c .ori r1 r2 imm)
  | 0x05 => some (.intImmediateOp c .xori r1 r2 imm)
  | 0x06 => some (.intImmediateOp c .slti r1 r2 imm)
  | 0x07 => some (.intImmediateOp c .sltiu r1 r2 imm)
  | 0x08 => only (r2 == 0) (.intImmediateOp c .lui r1 r2 imm)
  | 0x10 => some (.load ⟨c, 0⟩ .lw r1 r2 imm)
  | 0x11 => some (.load ⟨c, 0⟩ .lh r1 r2 imm)
  | 0x12 => some (.load ⟨c, 0⟩ .lhu r1 r2 imm)
  | 0x13 => some (.load ⟨c, 0⟩ .lb r1 r2 imm)
  | 0x14 => some (.load ⟨c, 0⟩ .lbu r1 r2 imm)
  | 0x15 => only (r3 == 0 && func == 0) (.ldl ⟨c, 0⟩ r1 r2)
  | 0x18 => some (.store c .sw r1 r2 imm pkg)
  | 0x19 => some (.store c .sh r1 r2 imm pkg)
  | 0x1A => some (.store c .sb r1 r2 imm pkg)
  | 0x1B => only (func == 0) (.stc c r1 r2 r3)
  | 0x1C => some (.flwFld ⟨c, 0⟩ false r1 r2 imm)
  | 0x1D => some (.flwFld ⟨c, 0⟩ true r1 r2 imm)
  | 0x1E => some (.fswFsd c false r1 r2 imm pkg)
  | 0x1F => some (.fswFsd c true r1 r2 imm pkg)
  | 0x20 => some (.branch c .beq r1 r2 imm)
  | 0x21 => some (.branch c .bne r1 r2 imm)
  | 0x22 => some (.branch c .blt r1 r2 imm)
  | 0x23 => some (.branch c .bge r1 r2 imm)
  | 0x24 => some (.branch c .bltu r1 r2 imm)
  | 0x25 => some (.branch c .bgeu r1 r2 imm)
  | 0x28 => some (.j c off)
  | 0x29 => some (.jl c off)
  | 0x2A => only (r1 == 0) (.jr c r2 imm)
  | 0x2B => some (.jlr c r1 r2 imm)
  | 0x30 =>
    let r4 := regField w 6
    let p := fieldGet w 5 1 == 1
    match fpOpOf (fieldGet w 0 5) with
    | some op => only (fpDefined op p r3.val r4.val) (.fpOperation c op p r1 r2 r3 r4)
    | none => none
  | 0x38 => only (r1 == 0) (.pld c r2 imm)
  | 0x3E => systemOf c t w
  | _ => none

/-- Whether a word is an encoding the opcode tables define (03 R90, R92 to R98). -/
def definedEncoding (w : Word) : Bool := (decodeWord .cx 0 none w).isSome

end Sys2Proof.Machine
end

