-- ==== Sys2Proof/Machine/CoreInt.lean ====
section
/-!
DEFINITION. The integer, immediate, branch and jump instructions of the cores (03 R91 to R94), and the illegal
instruction.
-/

namespace Sys2Proof.Machine

/-- Leading zero bits of a word. -/
def leadingZeros (w : Word) : Nat := if w = 0 then 32 else 31 - Nat.log2 w.toNat

/-- Signed quotient rounded toward zero, modulo 2^32 (03 R93). -/
def quotient (a b : Word) : Word := BitVec.ofInt 32 (a.toInt.tdiv b.toInt)

/-- Remainder with the sign of the dividend (03 R93). -/
def remainder (a b : Word) : Word := BitVec.ofInt 32 (a.toInt.tmod b.toInt)

/-- The result of an integer register operation on values `a` and `b`, or none for a divisor of 0 (03 R93).
`n` is the rb field, the amount of the immediate shifts. -/
def intResult (op : IntOp) (a b : Word) (n : Nat) : Option Word :=
  match op with
  | .add => some (a + b)
  | .sub => some (a - b)
  | .and => some (a &&& b)
  | .or => some (a ||| b)
  | .xor => some (a ^^^ b)
  | .nor => some (~~~(a ||| b))
  | .sll => some (a <<< (b.toNat % 32))
  | .srl => some (a >>> (b.toNat % 32))
  | .sra => some (a.sshiftRight (b.toNat % 32))
  | .slli => some (a <<< n)
  | .srli => some (a >>> n)
  | .srai => some (a.sshiftRight n)
  | .slt => some (if a.slt b then 1 else 0)
  | .sltu => some (if a.ult b then 1 else 0)
  | .mul => some (a * b)
  | .mulh => some (BitVec.ofInt 32 (a.toInt * b.toInt / 2 ^ 32))
  | .mulhu => some (BitVec.ofNat 32 (a.toNat * b.toNat / 2 ^ 32))
  | .div => if b = 0 then none else some (quotient a b)
  | .divu => if b = 0 then none else some (BitVec.ofNat 32 (a.toNat / b.toNat))
  | .rem => if b = 0 then none else some (remainder a b)
  | .remu => if b = 0 then none else some (BitVec.ofNat 32 (a.toNat % b.toNat))
  | .clz => some (BitVec.ofNat 32 (leadingZeros a))
  | .exb => some ((a.setWidth 8).signExtend 32)
  | .exh => some ((a.setWidth 16).signExtend 32)
  | .exhu => some ((a.setWidth 16).setWidth 32)

/-- The instruction on a core whose fetch has passed (03 R90, R93). -/
def intRegister (c : Master) (op : IntOp) (rd ra rb : RegNo) (s : State) : State :=
  if intUnary op && rb != 0 then
    s.raiseHere c 1 0 (wordR 0x01 rd ra rb (intFunc op))
  else
    let x := s.coreOf c
    match intResult op (x.gpr ra) (x.gpr rb) rb.val with
    | some v => s.finishGp c rd v
    | none => s.raiseHere c 8 0 0

def execIntRegisterOp (c : Master) (op : IntOp) (rd ra rb : RegNo) (s : State) : Host.Outcome State Fault Refusal :=
  .next (s.instruction c (intRegister c op rd ra rb))

/-- The result of an immediate operation (03 R94). -/
def immResult (op : ImmOp) (a : Word) (imm : BitVec 16) : Word :=
  match op with
  | .addi => a + sext16 imm
  | .andi => a &&& zext16 imm
  | .ori => a ||| zext16 imm
  | .xori => a ^^^ zext16 imm
  | .slti => if a.slt (sext16 imm) then 1 else 0
  | .sltiu => if a.ult (sext16 imm) then 1 else 0
  | .lui => zext16 imm <<< 16

/-- LUI has ra = 0 (03 R94); another value is an undefined encoding (03 R90). -/
def intImmediate (c : Master) (op : ImmOp) (rd ra : RegNo) (imm : BitVec 16) (s : State) : State :=
  if op == .lui && ra != 0 then s.raiseHere c 1 0 (wordI 0x08 rd ra imm.toNat)
  else s.finishGp c rd (immResult op ((s.coreOf c).gpr ra) imm)

def execIntImmediateOp (c : Master) (op : ImmOp) (rd ra : RegNo) (imm : BitVec 16) (s : State) :
    Host.Outcome State Fault Refusal :=
  .next (s.instruction c (intImmediate c op rd ra imm))

/-- The condition of a branch (03 R94). -/
def branchHolds (b : BranchCond) (x y : Word) : Bool :=
  match b with
  | .beq => x == y
  | .bne => x != y
  | .blt => x.slt y
  | .bge => !x.slt y
  | .bltu => x.ult y
  | .bgeu => !x.ult y

/-- PC + off x 4 for a 16-bit and for a 26-bit offset (03 R91). -/
def target16 (pc : Word) (off : BitVec 16) : Word := pc + (off.signExtend 32) * 4
def target26 (pc : Word) (off : BitVec 26) : Word := pc + (off.signExtend 32) * 4

/-- Retire and go on at `pc`. -/
def State.jump (s : State) (c : Master) (pc : Word) : State := s.onCore c fun x => { x.count with pc := pc }

def branchTo (c : Master) (b : BranchCond) (ra rb : RegNo) (off : BitVec 16) (s : State) : State :=
  let x := s.coreOf c
  if branchHolds b (x.gpr ra) (x.gpr rb) then s.jump c (target16 x.pc off) else s.finish c

def execBranch (c : Master) (b : BranchCond) (ra rb : RegNo) (off : BitVec 16) (s : State) :
    Host.Outcome State Fault Refusal :=
  .next (s.instruction c (branchTo c b ra rb off))

def execJ (c : Master) (off : BitVec 26) (s : State) : Host.Outcome State Fault Refusal :=
  .next (s.instruction c fun s => s.jump c (target26 (s.coreOf c).pc off))

/-- JL writes GP31 (03 R81, R94). -/
def jumpLink (c : Master) (off : BitVec 26) (s : State) : State :=
  let pc := (s.coreOf c).pc
  (s.onCore c fun x => x.setGpr 31 (pc + 4)).jump c (target26 pc off)

def execJl (c : Master) (off : BitVec 26) (s : State) : Host.Outcome State Fault Refusal :=
  .next (s.instruction c (jumpLink c off))

/-- JR and JLR (03 R91, R94): a target that is not word-aligned raises cause 4 and writes nothing. -/
def jumpRegister (c : Master) (link : Option RegNo) (ra : RegNo) (imm : BitVec 16) (s : State) : State :=
  let x := s.coreOf c
  let t := x.gpr ra + sext16 imm
  if t.toNat % 4 ≠ 0 then s.raiseHere c 4 0 t
  else match link with
    | none => s.jump c t
    | some rd => (s.onCore c fun y => y.setGpr rd (x.pc + 4)).jump c t

def execJr (c : Master) (ra : RegNo) (imm : BitVec 16) (s : State) : Host.Outcome State Fault Refusal :=
  .next (s.instruction c (jumpRegister c none ra imm))

def execJlr (c : Master) (rd ra : RegNo) (imm : BitVec 16) (s : State) : Host.Outcome State Fault Refusal :=
  .next (s.instruction c (jumpRegister c (some rd) ra imm))

/-- A core meets word `w` (03 R90): an undefined encoding raises cause 1. A defined one is another row's. A word in which the complex
finds a check error is not executed: cause 7 (02 R48; 03 R114). -/
def illegalWord (c : Reading) (w : Word) (s : State) : State :=
  if c.bad.getLsbD 0 && c.core == .cx then s.raiseHere c.core 7 0 (s.coreOf c.core).pc
  else if definedEncoding w then s else s.raiseHere c.core 1 0 w

def execIllegalInstruction (c : Reading) (w : Word) (s : State) : Host.Outcome State Fault Refusal :=
  .next (s.instruction c.core (illegalWord c w))

end Sys2Proof.Machine
end

