-- ==== Sys2Proof/Machine/Cyc.lean ====
section
/-!
DEFINITION. The commands of CYC outside the tick edge: charging, reads with effects, timers, forces, starts and
stops (05).
-/

namespace Sys2Proof.Machine

open Reg

def execCycRunWrite (t task : Nat) (valid : Bool) (s : State) : Host.Outcome State Fault Refusal :=
  .next ((s.advance t).writeRun task valid)

/-- A budget expiry is found when the charge up to `t` reaches BUD (05 R170). -/
def execBudgetExpiry (t : Nat) (s : State) : Host.Outcome State Fault Refusal := .next (s.advance t).charge

/-- A read of CYC_DISP returns the mask and releases line 16 (05 R171). -/
def State.readDisp (s : State) : State × Word := (s.withCyc fun c => { c with line16 := false }, s.rd CYC_DISP)

def execDispRead (s : State) : Host.Outcome State Fault Refusal := .next (State.answerRead s.readDisp)

/-- A read of CYC_TnWV returns it and sets STARTS and OVR to 0 (05 R202). -/
def State.readWv (s : State) (n : Nat) : State × Word :=
  ((s.set (CYC_TnWV_STARTS n) 0).setBit (CYC_TnWV_OVR n) false, s.rd (CYC_TnWV n))

def execCywValueRead (task : Fin 16) (s : State) : Host.Outcome State Fault Refusal :=
  .next (State.answerRead (s.readWv task.val))

/-- The timer starts at the MONO at which CYC performs the START (05 R182). -/
def execTimerStart (t : Nat) (timer : Fin 32) (s : State) : Host.Outcome State Fault Refusal :=
  .next ((s.advance t).startTimer timer.val (s.advance t).mono)

def execTimerStop (t : Nat) (timer : Fin 32) (s : State) : Host.Outcome State Fault Refusal :=
  .next (((s.advance t).expireTimer timer.val).stopTimer timer.val)

def execTimerExpiry (t : Nat) (timer : Fin 32) (s : State) : Host.Outcome State Fault Refusal :=
  .next ((s.advance t).expireTimer timer.val)

def execEdgeFifoRead (s : State) : Host.Outcome State Fault Refusal := .next (State.answerRead s.readEdge)

def execForceSet (cseq type : Nat) (tool : Bool) (s : State) : Host.Outcome State Fault Refusal :=
  .next (s.forceMailbox cseq (setForce type tool))

def execForceRemove (cseq : Nat) (tool : Bool) (s : State) : Host.Outcome State Fault Refusal :=
  .next (s.forceMailbox cseq (removeForce tool))

def execForceRemoveAll (cseq : Nat) (tool : Bool) (s : State) : Host.Outcome State Fault Refusal :=
  .next (s.forceMailbox cseq (removeForces tool))

def execForceRead (cseq : Nat) (s : State) : Host.Outcome State Fault Refusal := .next (s.forceMailbox cseq readForce)

def execColdStart (cseq : Nat) (s : State) : Host.Outcome State Fault Refusal :=
  .next (s.restartMailbox cseq (pairStart false))

def execWarmStart (cseq : Nat) (s : State) : Host.Outcome State Fault Refusal :=
  .next (s.restartMailbox cseq (pairStart true))

def execStopCommand (cseq : Nat) (s : State) : Host.Outcome State Fault Refusal :=
  .next (s.restartMailbox cseq stopTasks)

end Sys2Proof.Machine
end

