-- ==== Sys2Proof/Machine/Fio.lean ====
section
/-!
DEFINITION. The commands and events of FIO (10 R346 to R361), OUTPUT_EXTERNAL_DRIVE apart, which asks for the partner's
outputs (Pair.lean). Inputs and outputs are numbered from 1 in registers and events; the rows count from 0.
-/

namespace Sys2Proof.Machine

open Reg

/-! ### Inputs -/

/-- The ON and OFF thresholds of an input's group in mV (10 R346), by the group's setting in FIO_GCFG. -/
def State.inputThresholds (s : State) (n : Nat) : Nat × Nat :=
  let g := (n - 1) / 8
  match s.get ⟨FIO_GCFG, 4 * g, 2⟩ with
  | 0 => if s.bit ⟨FIO_GCFG, 4 * g + 2, 1⟩ then (11000, 5000) else (15000, 5000)
  | 1 => (30000, 12000)
  | 2 => (43000, 18000)
  | _ => (66000, 28000)

/-- The comparator state of an input in state `c` at a voltage (10 R346): between the thresholds it does not change. -/
def State.comparator (s : State) (n : Nat) (c : Bool) (mv : Nat) : Bool :=
  match s.inputThresholds n with
  | (on, off) => if on ≤ mv then true else if mv ≤ off then false else c

/-- The comparator states that voltages give in order. -/
def State.comparators (s : State) (n : Nat) (c : Bool) : List Nat → List Bool
  | [] => []
  | mv :: r => let c := s.comparator n c mv; c :: s.comparators n c r

/-- The comparator state held of input `n`. -/
def State.compared (s : State) (n : Nat) : Bool := bitOf s.fio.comparators (n - 1)
def State.setCompared (s : State) (n : Nat) (c : Bool) : State :=
  s.withFio fun b => { b with comparators := putBit b.comparators (n - 1) c }

/-- A state of input `n` seen for `ns` until now: its last change lies that far back (10 R347, R350). -/
def State.steadyFor (s : State) (n ns : Nat) : Bool := decide (CMap.lookup (fun _ => 0) s.fio.changed n + ns ≤ s.mono)

/-- FILT of an input in ns (10 R347, R377). -/
def State.filterNs (s : State) (n : Nat) : Nat :=
  match s.get (FIO_INnCFG_FILT n) with
  | 1 => 50000 | 2 => 100000 | 3 => 500000 | 4 => 1000000 | 5 => 3000000 | 6 => 10000000 | 7 => 20000000 | _ => 0

/-- The compensation of an edge (10 R348): FILT + 8 µs. -/
def State.compensation (s : State) (n : Nat) : Nat := s.filterNs n + 8000

/-- Input `n`'s wire-break flag. -/
def State.setWireBreak (s : State) (n : Nat) (b : Bool) : State := s.set FIO_WB_INPUT (putBit (s.get FIO_WB_INPUT) (n - 1) b)

/-- The filtered state of input `n` changes (10 R347, R349; 05 R185; 08 R288 to R292). -/
def State.changeInput (s : State) (n : Nat) (comp : Nat) (sampled : Bool := true) : State :=
  let s := s.when (decide (n ≤ 8)) (·.lateSample ((n - 1) / 2))
  let on := !s.input n
  let s := s.set FIO_IN_INPUT (putBit (s.get FIO_IN_INPUT) (n - 1) on)
  let s := s.withFio fun b => { b with changed := CMap.put (fun _ => 0) b.changed n s.mono }
  let s := if on && bitOf (s.get FIO_WB_INPUT) (n - 1) then (s.setWireBreak n false).emit 0x7002 [n] else s
  let s := s.stampEdge n on (s.mono - comp)
  if n ≤ 8 then (s.pairChanged ((n - 1) / 2) sampled).driveSafetyOutputs else s

/-- Input `n` is a counter (10 R350). -/
def State.isCounter (s : State) (n : Nat) : Bool := decide (9 ≤ n) && decide (n ≤ 12) && s.get (FIO_INnCFG_CNT n) != 0

/-- The comparator state has been the other one for FILT (10 R346, R347). A counter's state follows its counter path. -/
def execFilteredStateChange (t : Nat) (input : FilteredChange) (s : State) : Host.Outcome State Fault Refusal :=
  let s := s.advance t
  let n := input.input.val + 1
  let states := s.comparators n (s.compared n) input.mv
  let s := s.setCompared n (states.getLast?.getD (s.compared n))
  if s.isCounter n || states.isEmpty || states.contains (s.input n) || !s.steadyFor n (s.filterNs n) then .next s
  else .next (s.changeInput n (s.compensation n) input.sampled)

/-- A reading of the input current that has held for 20 ms (10 R349): below 150 µA a break, from 300 µA intact. -/
def execWireBreakChange (t : Nat) (input : Fin 24) (ua : Nat) (s : State) : Host.Outcome State Fault Refusal :=
  let s := s.advance t
  let n := input.val + 1
  let broken := bitOf (s.get FIO_WB_INPUT) (n - 1)
  if !s.bit (FIO_INnCFG_WBEN n) || s.input n then .next s
  else if ua < 150 ∧ !broken then .next ((s.setWireBreak n true).emit 0x7001 [n, ua])
  else if 300 ≤ ua ∧ broken then .next ((s.setWireBreak n false).emit 0x7002 [n])
  else .next s

/-! ### Outputs -/

/-- Output `n` conducts: by FIO for 5 to 16, by Girth for 1 to 4. -/
def State.conducts (s : State) (n : Nat) : Bool :=
  if n ≤ 4 then bitOf (s.get GIRTH_STAT_SOUTON) (n - 1) else bitOf s.fio.on (n - 1)

/-- An output follows a changed condition. -/
def State.driveAny (s : State) (n : Nat) : State := if n ≤ 4 then s.driveSafety (n - 1) else s.driveOutput n

/-- In current limit or thermal shutdown for more than 5 ms (10 R353). -/
def execOutputOverload (t : Nat) (out : Fin 16) (ma : Nat) (s : State) : Host.Outcome State Fault Refusal :=
  let s := s.advance t
  let n := out.val + 1
  if s.conducts n then
    let s := (s.set (FIO_OnSTAT_MA n) ma).setBit (FIO_OnSTAT_OVL n) true
    .next ((s.emit 0x7007 [n, ma]).driveAny n)
  else .next s

/-- A test pulse opens a conducting output (10 R356). -/
def execTestPulseStart (t : Nat) (out : Fin 16) (s : State) : Host.Outcome State Fault Refusal :=
  let s := s.advance t
  let n := out.val + 1
  let due := CMap.lookup (fun _ => 0) s.fio.testBase n + s.get (FIO_OnCFG_TPPER n) * 1000000000
  let girthClear := s.girth.test.isNone && decide (s.girth.testEnd + 10000000 ≤ s.gx)
  if decide (5 ≤ n) && s.bit (FIO_OnCFG_TP n) && s.conducts n && s.fio.test.isNone && girthClear
      && decide (s.fio.testEnd + 10000000 ≤ s.mono) && decide (due ≤ s.mono) then
    let s := s.withFio fun b => { b with test := some ⟨n, s.mono⟩ }
    .next (s.driveOutput n)
  else .next s

/-- Latch a fault of a test pulse on an output (10 R356). -/
def State.testFault (s : State) (n : Nat) (f : Fld) : State := (s.setBit f true).driveAny n

/-- The pulse has ended, 200 µs after the opening (10 R356): whether the readback was off within 150 µs, and the other outputs whose
readback changed during it. A group that is lost raises no WIRED (R360). -/
def execTestPulseCheck (t : Nat) (off : Bool) (changed : BitVec 16) (s : State) : Host.Outcome State Fault Refusal :=
  let s := s.advance t
  match s.fio.test with
  | none => .next s
  | some x =>
    if s.mono < x.at_ + 200000 then .next s
    else
      let n := x.out
      let s := s.withFio fun b => { b with test := none, testEnd := s.mono, testBase := CMap.put (fun _ => 0) b.testBase n x.at_ }
      let s := if off then s else ((s.setReadback n true).testFault n (FIO_OnSTAT_TPF n)).emit 0x7008 [n, 1, 0]
      let lost := fun (k : Nat) => s.get (supplyField (groupOf k)) == 2
      let others := ((List.range 16).map (· + 1)).filter fun k => k != n && changed.getLsbD (k - 1) && !lost k && !lost n
      let s := others.foldl (fun s k =>
        ((s.testFault n (FIO_OnSTAT_WIRED n)).testFault k (FIO_OnSTAT_WIRED k)).emit 0x7008 [n, 2, k]) s
      let base := s.fio.testBase
      .next ((s.driveOutput n).withFio fun b => { b with testBase := base })

/-- The current of a conducting output (10 R357, R377): of one of 5 to 16 with OLEN, below 2 mA for 100 ms OPEN, from 5 mA no longer. -/
def execOpenLoad (t : Nat) (out : Fin 16) (ma : Nat) (s : State) : Host.Outcome State Fault Refusal :=
  let s := s.advance t
  let n := out.val + 1
  if !s.conducts n then .next s
  else
    let s := s.set (FIO_OnSTAT_MA n) ma
    if n < 5 ∨ !s.bit (FIO_OnCFG_OLEN n) then .next s
    else if ma < 2 ∧ !s.bit (FIO_OnSTAT_OPEN n) then .next ((s.setBit (FIO_OnSTAT_OPEN n) true).emit 0x700A [n])
    else if 5 ≤ ma then .next (s.setBit (FIO_OnSTAT_OPEN n) false)
    else .next s

/-! ### Field supplies (10 R359, R360) -/

/-- The state of a group, and every output of it with it. -/
def State.setSupplyState (s : State) (g st : Nat) : State :=
  let s := (s.set (supplyField g) st).setBit (supplyQual g) (st == 3)
  s.driveOutputs.driveSafetyOutputs

/-- MONO from which a condition has held. -/
def since (holds : Bool) (old : Option Nat) (now : Nat) : Option Nat := if holds then some (old.getD now) else none

/-- A condition has held for `ns`. -/
def heldFor (x : Option Nat) (now ns : Nat) : Bool :=
  match x with
  | some t => decide (t + ns ≤ now)
  | none => false

/-- A 50 µs sample of a field supply (10 R359). -/
def execFieldSupplyStateChange (t : Nat) (second : Bool) (mv : Nat) (s : State) : Host.Outcome State Fault Refusal :=
  let s := s.advance t
  let g := if second then 2 else 1
  let s := s.set (supplyMv g) (min mv 65535)
  let x := s.supply g
  let now := s.mono
  let x := { x with
    low := if mv < 15000 then x.low + 1 else 0
    since192 := since (decide (19200 ≤ mv)) x.since192 now
    since180 := since (decide (18000 ≤ mv)) x.since180 now }
  let excess := heldFor x.since192 now 10000000
  let st := s.get (supplyField g)
  let say := mv < 19200 && !x.excursion
  let x := { x with excursion := (x.excursion || decide (mv < 19200)) && !excess }
  let s := s.setSupply g x
  let s := if say && st == 0 then s.emit 0x7003 [g, mv] else s
  if st ≤ 1 then
    if 41 ≤ x.low then .next ((s.emit 0x7004 [g, mv]).setSupplyState g 2)
    else if st = 0 ∧ mv < 19200 then .next (s.setSupplyState g 1)
    else if st = 1 ∧ excess then .next (s.setSupplyState g 0)
    else .next s
  else if st = 2 then
    if heldFor x.since180 now 100000000 then .next (s.setSupplyState g 3) else .next s
  else if mv < 18000 then .next (s.setSupplyState g 2)
  else .next s

/-- CLRFS (10 R360). -/
def fioClrfs (g : Nat) (s : State) : State × Nat :=
  if g ≠ 1 ∧ g ≠ 2 then (s, 6)
  else if s.get (supplyField g) ≠ 3 then (s, 5)
  else
    let x := s.supply g
    let s := s.setSupply g { x with hold := true }
    (((s.setSupplyState g (if heldFor x.since192 s.mono 10000000 then 0 else 1)).emit 0x7005 [g]), 0)

/-- Step 4 of an edge: a group cleared before it follows the released requests (10 R360). -/
def State.suppliesFollow (s : State) : State :=
  if s.fio.fs1.hold ∨ s.fio.fs2.hold then
    (s.withFio fun b => { b with fs1 := { b.fs1 with hold := false }, fs2 := { b.fs2 with hold := false } }).driveOutputs.driveSafetyOutputs
  else s

/-- CLROUT (10 R358). -/
def fioClrout (n : Nat) (s : State) : State × Nat :=
  if n = 0 ∨ 16 < n then (s, 6)
  else if s.requested n ∨ s.bit (FIO_OnSTAT_RB n) then (s, 5)
  else
    let s := s.setBit (FIO_OnSTAT_OVL n) false
    let s := if n ≤ 4 then s
      else (((s.setBit (FIO_OnSTAT_EXTD n) false).setBit (FIO_OnSTAT_TPF n) false).setBit (FIO_OnSTAT_WIRED n) false)
    ((s.emit 0x7009 [n]).driveAny n, 0)

def State.fioCommand (s : State) (cseq : Nat) (act : State → State × Nat) : State :=
  s.mailbox FIO_SEQ_LASTCMD FIO_RES_RESULT cseq act

/-- CLROUT with the readback that FIO samples at it. -/
def execFioClrout (t cseq : Nat) (index : Fin 32) (readback : Bool) (s : State) : Host.Outcome State Fault Refusal :=
  let s := s.advance t
  let n := index.val
  let s := if 1 ≤ n ∧ n ≤ 16 then s.setReadback n readback else s
  .next (s.fioCommand cseq (fioClrout n))

def execClrfs (t cseq : Nat) (index : Fin 32) (s : State) : Host.Outcome State Fault Refusal :=
  .next ((s.advance t).fioCommand cseq (fioClrfs index.val))

end Sys2Proof.Machine
end

