-- ==== Sys2Proof/Machine/Girth.lean ====
section
/-!
DEFINITION. The commands and events of Girth (08).
-/

namespace Sys2Proof.Machine

open Reg

/-! ### Parameter set -/

/-- A write of GIRTH_PDATA (08 R278, R317): taken only in UNLOADED; indices 35 to 63 ignore it. -/
def State.writeGirthData (s : State) (v : Word) : State :=
  let i := s.get GIRTH_PIDX_IDX
  if s.get GIRTH_STAT_STATE = 0 ∧ i < 35 then s.wr (bank GIRTH_PDATA i) v else s

def execGirthPdataWrite (v : Word) (s : State) : Host.Outcome State Fault Refusal := .next (s.writeGirthData v)

/-- The first word of the set held that is out of range. -/
def State.girthBadWord (s : State) : Option Nat := (List.range 34).find? fun i => !s.girthWordOk i

/-- GLTRIP of the enabled trip outputs, bit t - 1. -/
def State.glTrips (s : State) : Nat :=
  (List.range 4).foldl (fun w t => w + if s.tripOn t && s.gp (21 + t) 11 1 == 1 then 2 ^ t else 0) 0

/-- The set is accepted: ARMED (08 R278, R291). -/
def State.girthArm (s : State) (fused : Bool) : State :=
  let crc := (s.girthWord 34).toNat
  let s := s.withGirth fun g => { g with accepted := true, armedAt := s.gx }
  let s := s.withGirth fun g => { g with glCopied := s.glTrips }
  let s := ((s.set GIRTH_STAT_STATE 1).setBit GIRTH_STAT_FUSED fused).set GIRTH_PCRC_CRC crc
  let s := s.emit 0x6001 [crc, fused.toNat]
  let s := (List.range 4).foldl (fun (s : State) p =>
    (s.setBit (GIRTH_SIN_STD p) (s.gp (25 + p) 15 1 == 0)).samplePair p) s
  s.girthDrive

/-- LOAD (08 R278). -/
def girthLoad (s : State) : State × Nat :=
  if s.get GIRTH_STAT_STATE ≠ 0 then (s, 1)
  else
    let refuse (r i : Nat) : State × Nat := ((s.set GIRTH_RES_INDEX i).emit 0x6002 [r, i], r)
    let crc := (s.girthWord 34).toNat
    if crc ≠ s.girthCrc then refuse 2 0
    else match s.girthBadWord with
      | some i => refuse 3 i
      | none =>
        let fused := decide (3 ≤ s.lifeCycle)
        if fused && crc != s.get GIRTH_FCRC_CRC then refuse 4 0
        else (s.girthArm fused, 0)

def State.girthCommand (s : State) (cseq : Nat) (act : State → State × Nat) : State :=
  s.mailbox GIRTH_SEQ_LASTCMD GIRTH_RES_RESULT cseq act

/-- A LOAD refused in the mode LOAD demands SAFE (15 R500). -/
def girthLoadCommand (s : State) : State × Nat :=
  let (s, r) := girthLoad s
  (s.when (s.mode == .load && r != 0) fun s => s.sysDemand 5 0, r)

def execGirthLoad (t cseq : Nat) (s : State) : Host.Outcome State Fault Refusal :=
  .next ((s.advance t).girthCommand cseq girthLoadCommand)

/-- INSTRST (08 R305). -/
def girthInstrst (e : Nat) (s : State) : State × Nat :=
  if 8 ≤ e then (s, 6)
  else if s.get GIRTH_STAT_STATE = 0 then (s, 1)
  else if !s.elOn e || bitOf (s.get GIRTH_INST_PICK) e then (s, 5)
  else
    let s := s.emit 0x600D [e]
    let s := if s.elLatch e then (s.setElement e {}).setOperated e false 0 else s
    (if s.elLossTrip e && bitOf (s.get GIRTH_INST_LOST) e then s.setOperated e true 0 else s, 0)

def execInstrst (t cseq : Nat) (index : Fin 16) (s : State) : Host.Outcome State Fault Refusal :=
  .next ((s.advance t).girthCommand cseq (girthInstrst index))

/-- CLROUT (08 R295). -/
def girthClrout (index : Nat) (s : State) : State × Nat :=
  if index = 0 ∨ 4 < index then (s, 6)
  else if s.get GIRTH_STAT_STATE = 0 then (s, 1)
  else
    let i := index - 1
    if s.bit (GIRTH_SOUT_REQ i) || s.bit (GIRTH_SOUT_RB i) then (s, 5)
    else
      let s := s.setSafetyOut i { s.safetyOut i with driven := false }
      (((s.setBit (GIRTH_SOUT_FAULT i) false).emit 0x600B [index]).driveSafety i, 0)

/-- CLROUT with the readback that Girth samples at it. -/
def execGirthClrout (t cseq : Nat) (index : Fin 16) (readback : Bool) (s : State) : Host.Outcome State Fault Refusal :=
  let s := s.advance t
  let n := index.val
  let s := if 1 ≤ n ∧ n ≤ 4 then s.setReadback n readback else s
  .next (s.girthCommand cseq (girthClrout n))

/-! ### SAFE and silence -/

/-- The demands on their way to Girth arrive, oldest first (08 R283). -/
def execGirthSafeLatch (t : Nat) (s : State) : Host.Outcome State Fault Refusal :=
  let s := s.advance t
  let demands := s.sys.demands
  let s := { s with sys := { s.sys with demands := [] } }
  .next (demands.foldl (fun s d => s.latchSafe d.1 d.2) s)

def execGirthChannelMismatch (t : Nat) (group : BitVec 8) (s : State) : Host.Outcome State Fault Refusal :=
  .next ((s.advance t).latchSafe 7 group.toNat)

/-- A driver loses its dynamic enable (08 R282): 0 to 3 a safety output's, 4 the trip driver. -/
def execDynamicEnableLoss (t : Nat) (driver : Fin 5) (s : State) : Host.Outcome State Fault Refusal :=
  let s := s.advance t
  if s.girth.enableLost.contains driver.val then .next s
  else
    let s := s.withGirth fun g => { g with enableLost := driver.val :: g.enableLost }
    if driver.val = 4 then .next (s.withGirth fun g => { g with glPulse := g.glCopied, glAt := s.mono })
    else .next (s.driveSafety driver.val)

/-- The driver's pulse of 200 ms ± 10 % ends (08 R282). -/
def execGltripPulseEnd (t : Nat) (s : State) : Host.Outcome State Fault Refusal :=
  let s := s.advance t
  if s.girth.glPulse ≠ 0 ∧ s.girth.glAt + 180000000 ≤ s.mono then .next (s.withGirth fun g => { g with glPulse := 0 })
  else .next s

/-! ### Watchdog -/

/-- WDMAX and WDMIN in ns (08 R286, R315). -/
def State.wdMax (s : State) : Nat := s.gp 33 0 14 * 10000
def State.wdMin (s : State) : Nat := s.gp 33 14 14 * 10000

/-- A correct response: the next challenge (08 R285). -/
def State.nextChallenge (s : State) : State :=
  (s.set GIRTH_WDCHAL_CHAL (crcWords [s.rd GIRTH_WDCHAL])).withGirth fun g => { g with wdAt := s.gx }

/-- A response (08 R285, R286). -/
def State.watchdogResponse (s : State) (v : Word) : State :=
  if s.get GIRTH_STAT_STATE ≠ 1 ∨ s.bit GIRTH_STAT_HALT then s
  else
    let c := s.rd GIRTH_WDCHAL
    let correct := v == ~~~ c
    if !s.bit GIRTH_STAT_WDRUN then
      if correct then ((s.nextChallenge.setBit GIRTH_STAT_WDRUN true).emit 0x6004 [c.toNat]).girthDrive else s
    else
      let d := s.gx - s.girth.wdAt
      if s.wdMax < d then s.latchSafe 4 0
      else if d < s.wdMin then s.latchSafe 5 0
      else if !correct then s.latchSafe 6 0
      else s.nextChallenge.set GIRTH_WDLAST_INT (d / 10000)

def execWatchdogResponse (t : Nat) (v : Word) (s : State) : Host.Outcome State Fault Refusal :=
  .next ((s.advance t).watchdogResponse v)

def execWatchdogTimeout (t : Nat) (s : State) : Host.Outcome State Fault Refusal :=
  let s := s.advance t
  if s.get GIRTH_STAT_STATE = 1 ∧ s.bit GIRTH_STAT_WDRUN ∧ s.wdMax < s.gx - s.girth.wdAt then .next (s.latchSafe 4 0)
  else .next s

/-! ### Pairs and safety outputs -/

/-- The count reaches K (08 R289): never at a disagreement of T - 100 µs or less, agreements between two instants apart. -/
def execDiscrepancyFault (t : Nat) (pair : Fin 4) (s : State) : Host.Outcome State Fault Refusal :=
  let s := s.advance t
  let p := pair.val
  let s := s.lateSample p
  if s.pairOn p && s.bit (GIRTH_SIN_DISC p) && !s.bit (GIRTH_SIN_FAULT p) &&
      decide (s.pairT p < s.gx - (s.pairTimes p).since + 100000) then
    .next (s.discrepancy p).driveSafetyOutputs
  else .next s

def execRefreshTimeout (t : Nat) (out : Fin 4) (s : State) : Host.Outcome State Fault Refusal :=
  let s := s.advance t
  let i := out.val
  match (s.safetyOut i).refreshAt with
  | some r =>
    if s.get GIRTH_STAT_STATE ≠ 0 ∧ s.gp (29 + i) 0 1 = 1 ∧ !s.bit (GIRTH_SOUT_REFTO i)
        ∧ r + s.gp (29 + i) 5 10 * 100000 ≤ s.gx then
      let s := (s.setBit (GIRTH_SOUT_REFTO i) true).set GIRTH_FAULT_REFR (Nat.lor (s.get GIRTH_FAULT_REFR) (2 ^ i))
      .next ((s.emit 0x6008 [i + 1]).driveSafety i)
    else .next s
  | none => .next s

/-- Readback on for more than 2 ms while commanded off (08 R295), in every state of Girth; none while the group is lost (R297). -/
def execSafetyExternalDrive (t : Nat) (out : Fin 4) (s : State) : Host.Outcome State Fault Refusal :=
  let s := s.advance t
  let i := out.val
  let commanded := s.bit (GIRTH_SOUT_PERMIT i) && s.bit (GIRTH_SOUT_REQ i)
  if !commanded ∧ !(s.safetyOut i).driven ∧ s.get FIO_STAT_FS1 ≤ 1 then
    let s := s.setSafetyOut i { s.safetyOut i with driven := true }
    .next ((s.setReadback (i + 1) true).outputFault i GIRTH_FAULT_EXTD 0x6009 [i + 1])
  else .next s

/-- A switch test opens one switch of a conducting output (08 R295): the high side once every DARKPER, then the low side. -/
def execSwitchTestStart (t : Nat) (out : Fin 4) (s : State) : Host.Outcome State Fault Refusal :=
  let s := s.advance t
  let i := out.val
  let x := s.safetyOut i
  let due := x.lowNext || decide (x.testBase + s.gp (29 + i) 15 12 * 1000000000 ≤ s.gx)
  if bitOf (s.get GIRTH_STAT_SOUTON) i && s.girth.test.isNone && decide (s.girth.testEnd + 10000000 ≤ s.gx) && due then
    let x := if x.lowNext then { x with lowNext := false } else { x with testBase := s.gx, lowNext := true }
    let low := (s.safetyOut i).lowNext
    let s := (s.setSafetyOut i x).withGirth fun g => { g with test := some ⟨i, low, s.gx⟩ }
    .next (s.driveSafety i)
  else .next s

/-- What a switch test shows at `t` (08 R295): whether the readback showed off within 150 µs of the opening, judged from then on, and the
outputs whose readback has changed in the test so far. The switch closes again 200 µs after the opening, or with a fault. -/
def execSwitchTestCheck (t : Nat) (off : Bool) (changed : BitVec 4) (s : State) : Host.Outcome State Fault Refusal :=
  let s := s.advance t
  match s.girth.test with
  | none => .next s
  | some x =>
    let i := x.out
    let o := s.safetyOut i
    let lostSupply := decide (2 ≤ s.get FIO_STAT_FS1)
    let stuck := !off && decide (x.at_ + 150000 ≤ s.gx)
    let others := (List.range 4).filter fun j => j != i && changed.getLsbD j && !lostSupply
    if !stuck ∧ others.isEmpty ∧ s.gx < x.at_ + 200000 then .next s
    else
      let s := s.withGirth fun g => { g with test := none, testEnd := s.gx }
      let s := if stuck then (s.setReadback (i + 1) true).outputFault i GIRTH_FAULT_SWT 0x600A [i + 1, x.low.toNat, 0] else s
      let s := others.foldl (fun s j =>
        let s := s.outputFault i GIRTH_FAULT_SWT 0x600A [i + 1, 2, j + 1]
        s.outputFault j GIRTH_FAULT_SWT 0x600A [j + 1, 2, i + 1]) s
      .next ((s.driveSafety i).setSafetyOut i o)

/-! ### Raw path and elements -/

/-- A raw word's fields (06 R206). -/
def rawSample (w : Word) : Int := signedOf 24 (fieldGet w 0 24)
def rawChannelOf (w : Word) : Nat := fieldGet w 24 5
def rawOvr (w : Word) : Bool := w.getLsbD 29
def rawFt (w : Word) : Bool := w.getLsbD 30

/-- Number of ones in a word is even: the parity of a raw word. -/
def evenParity (w : Word) : Bool := onesBelow 32 w.toNat % 2 == 0

/-- Why Girth discards a raw word: 1 parity, 3 channel field, 2 repeated FT (08 R306, R316). -/
def State.rawDiscard (s : State) (w : Word) : Option Nat :=
  if !evenParity w then some 1
  else if 23 < rawChannelOf w then some 3
  else if (s.rawChannel (rawChannelOf w)).ft == some (rawFt w) then some 2
  else none

/-- A discarded word: counted, reported at most once per ms (08 R306). -/
def State.discardRaw (s : State) (w : Word) (reason : Nat) : State :=
  let ch := rawChannelOf w
  let s := (s.inc GIRTH_RAWERR_COUNT).setBit GIRTH_FAULT_RAWERR true
  let s := if (s.rawChannel ch).lost then s.setRawChannel ch { s.rawChannel ch with run := 0 } else s
  let due := match s.girth.rawErrAt with
    | none => true
    | some t => decide (t + 1000000 ≤ s.gx)
  if due then (s.withGirth fun g => { g with rawErrAt := some s.gx }).emit 0x6013 [ch, w.toNat, reason] else s

/-- An accepted word (08 R304 to R306). -/
def State.acceptRaw (s : State) (w : Word) : State :=
  let ch := rawChannelOf w
  let x := s.rawChannel ch
  let run := if s.gx < x.at_ + 125000 then x.run + 1 else 1
  let els := s.watchers ch
  let above := fun (e : Nat) => rawOvr w || decide (s.elThresh e ≤ (rawSample w).natAbs)
  let s := els.foldl (fun s e => s.setInstBit GIRTH_INST_PICK e (above e)) s
  let x := { x with ft := some (rawFt w), at_ := s.gx }
  if x.lost then
    if 32 ≤ run then
      let s := s.setRawChannel ch { x with lost := false, run := 0 }
      let s := els.foldl (fun s e => (s.setInstBit GIRTH_INST_LOST e false).setElement e {}) s
      s.emit 0x6014 [ch, 0]
    else s.setRawChannel ch { x with run }
  else els.foldl (fun s e => s.elementWord e (above e) w.toNat) (s.setRawChannel ch x)

/-- A raw word at Girth, in every state of Girth; in UNLOADED no element is enabled (08 R277, R306). -/
def execGirthRawWordReceive (t : Nat) (w : Word) (s : State) : Host.Outcome State Fault Refusal :=
  let s := s.advance t
  match s.rawDiscard w with
  | some r => .next (s.discardRaw w r)
  | none => .next (s.acceptRaw w)

/-- A watched channel without an accepted word for 4 intervals (08 R306). DEDUCED: an unlatched element with LOSSTRIP = 0
drops out, log entry 14. -/
def execRawLost (t : Nat) (ch : Fin 24) (s : State) : Host.Outcome State Fault Refusal :=
  let s := s.advance t
  let c := ch.val
  let x := s.rawChannel c
  let els := s.watchers c
  if s.get GIRTH_STAT_STATE ≠ 0 ∧ !els.isEmpty ∧ !x.lost ∧ max x.at_ s.girth.armedAt + 125000 ≤ s.gx then
    let s := (s.setRawChannel c { x with lost := true, run := 0 }).setBit GIRTH_FAULT_RAWLOST true
    let s := s.emit 0x6014 [c, 1]
    .next (els.foldl (fun (s : State) e =>
      let s := (s.setInstBit GIRTH_INST_LOST e true).setElement e {}
      if s.elLossTrip e then s.setOperated e true 0
      else if s.elLatch e then s else s.setOperated e false 0) s)
  else .next s

/-- PE falls silent or is no longer silent, in every state of Girth (08 R298). -/
def execPeSilentChange (t : Nat) (s : State) : Host.Outcome State Fault Refusal :=
  let s := s.advance t
  if !s.bit GIRTH_STAT_PESIL ∧ s.girth.strobeAt + 250000 ≤ s.gx then
    let s := (s.setBit GIRTH_STAT_PESIL true).setBit GIRTH_FAULT_PESIL true
    .next ((s.withGirth fun g => { g with strobes := 0 }).emit 0x6015 [1]).driveTrips
  else if s.bit GIRTH_STAT_PESIL ∧ 64 ≤ s.girth.strobes then
    .next ((s.setBit GIRTH_STAT_PESIL false).emit 0x6015 [0]).driveTrips
  else .next s

/-! ### Trip outputs -/

/-- All sources 0 and TMIN passed (08 R299). -/
def execTripRelease (t : Nat) (trip : Fin 4) (s : State) : Host.Outcome State Fault Refusal :=
  let s := (s.advance t).driveTrips
  let n := trip.val
  let on := s.gx - (s.tripOut n).onAt
  if s.bit (GIRTH_TOUT_ON n) ∧ s.sources n = 0 ∧ s.tripMin n ≤ on then
    .next ((s.tripOff n).emit 0x600F [n + 1, on / 1000000])
  else .next s

/-- Current above 2.4 A for 300 ms (08 R300). -/
def execTripOverloadCutoff (t : Nat) (trip : Fin 4) (s : State) : Host.Outcome State Fault Refusal :=
  let s := s.advance t
  let n := trip.val
  if s.bit (GIRTH_TOUT_ON n) ∧ (s.tripOut n).onAt + 300000000 ≤ s.gx then
    let s := ((s.tripOff n).setBit (GIRTH_TOUT_OVL n) true).set GIRTH_FAULT_TOVL (Nat.lor (s.get GIRTH_FAULT_TOVL) (2 ^ n))
    .next (s.emit 0x6011 [n + 1]).driveTrips
  else .next s

/-- The output current after energising (08 R303): 50 mA within 5 ms confirm it; the current measured at 5 ms otherwise tells of its
failure. Of a current first read after 5 ms the one at 5 ms is not known, but was below 50 mA: a free value, log entry 14. -/
def execTripConfirmCheck (t : Nat) (trip : Fin 4) (ma : Nat) (s : State) : Host.Outcome State Fault Refusal :=
  let s := s.advance t
  let n := trip.val
  let x := s.tripOut n
  if s.bit (GIRTH_TOUT_ON n) ∧ x.confirm then
    if 50 ≤ ma ∧ s.gx ≤ x.onAt + 5000000 then .next ((s.setTripOut n { x with confirm := false }).setBit (GIRTH_TOUT_CONF n) true)
    else if x.onAt + 5000000 ≤ s.gx then
      let s := s.setTripOut n { x with confirm := false }
      let (at5, s) := if s.gx = x.onAt + 5000000 then (ma, s) else (s.drawFree.1.toNat % 50, s.drawFree.2)
      .next ((s.set GIRTH_FAULT_TFAIL (Nat.lor (s.get GIRTH_FAULT_TFAIL) (2 ^ n))).emit 0x6010 [n + 1, at5])
    else .next s
  else .next s

/-- The class of a trip circuit, the rows of the table in order (08 R302). -/
def tcsClass (supplyMv currentUa acrossMv : Nat) : Nat :=
  if supplyMv < 16800 then 3
  else if 1200 ≤ currentUa ∧ currentUa ≤ 1800 then 1
  else if currentUa < 300 then 2
  else if acrossMv < 2000 then 4
  else 5

/-- A class has held for 400 ms (08 R302). -/
def execTcsStateChange (t : Nat) (trip : Fin 4) (supplyMv currentUa acrossMv : Nat) (s : State) :
    Host.Outcome State Fault Refusal :=
  let s := s.advance t
  let n := trip.val
  let c := tcsClass supplyMv currentUa acrossMv
  let old := s.get (GIRTH_TCS_STATE n)
  if s.tripOn n ∧ s.gp (21 + n) 13 1 = 1 ∧ !s.bit (GIRTH_TOUT_ON n) ∧ !s.bit (GIRTH_TCS_SUSP n) ∧ c ≠ old then
    .next ((s.set (GIRTH_TCS_STATE n) c).emit 0x6012 [n + 1, old, c])
  else .next s

/-- Supervision resumes 1 s after the release (08 R302). -/
def execTcsResume (t : Nat) (trip : Fin 4) (s : State) : Host.Outcome State Fault Refusal :=
  let s := s.advance t
  let n := trip.val
  if s.bit (GIRTH_TCS_SUSP n) ∧ !s.bit (GIRTH_TOUT_ON n) ∧ (s.tripOut n).releasedAt + 1000000000 ≤ s.gx then
    .next (s.setBit (GIRTH_TCS_SUSP n) false)
  else .next s

end Sys2Proof.Machine
end

