-- ==== Sys2Proof/Machine/Net.lean ====
section
/-!
DEFINITION. The commands and events of NET (11 R379 to R409), the maintenance tool channel apart (Maint.lean).
-/

namespace Sys2Proof.Machine

open Reg

/-! ### Receiving process data -/

/-- A PD frame passes its header checks at a port that is not off, else it is discarded and counted (11 R383). -/
def State.headerRefused (s : State) (h : PdHeader) (data : List Byte) : Bool :=
  !h.ok data || topoRefused (s.get NET_ETBTOPO_COUNT) h.etb || topoRefused (s.get NET_OPTOPO_COUNT) h.opt

/-- A copy of flow `f` (11 R384; 14 R478). A dataset of another length is discarded: log entry 20. -/
def State.receiveCopy (s : State) (f port : Nat) (h : PdHeader) (data : List Byte) : State :=
  let x := s.flow f
  let paired := s.bit (NET_FD0_PAIRSEQ.at f)
  let mine := if paired then word32At data (data.length - 4) else h.counter
  let last := if paired then x.pairSeq else s.get (NET_FLAST_SEQ.at f)
  let checked := paired || (s.flowPort f 0 && s.flowPort f 1)
  if data.length ≠ s.flowLen f then s
  else if x.first ∨ !checked ∨ after32 mine last then
    let s := s.setFlow f { x with pairSeq := if paired then mine else x.pairSeq }
    (s.set (NET_FLAST_SEQ.at f) h.counter).flowBlock f (s.arrival port) data
  else if mine = last then s
  else s.inc (NET_FCNT_SEQERR.at f)

/-- A received process-data message (11 R383, R384). One of no flow is no business of this row (R386). -/
def execPdReceive (t : Nat) (port : Fin 3) (h : PdHeader) (data : List Byte) (s : State) : Host.Outcome State Fault Refusal :=
  let s := s.advance t
  let p := port.val
  if s.get (NET_PnCFG_SPEED p) = 0 then .next s
  else if s.headerRefused h data then .next (s.badHeader p h.comId)
  else match s.receiveFlow false p h.src h.comId with
    | some f => .next (s.receiveCopy f p h data)
    | none => .next s

/-! ### Safe telegrams -/

/-- A copy whose SCRC is wrong (11 R402): discarded, counted, and a fault beyond 8 within 1 s. -/
def State.scrcError (s : State) (f p : Nat) : State :=
  let s := s.inc (NET_FCNT_CRCERR.at f)
  let s := s.emit 0x8004 [f, p, s.get (NET_FCNT_CRCERR.at f)]
  let recent := (s.mono :: (s.flow f).crcFails).filter fun m => decide (s.mono < m + 1000000000)
  let s := s.setFlow f { s.flow f with crcFails := recent }
  if 8 < recent.length then s.telegramFault f 3 else s

/-- A further copy of the last accepted telegram (11 R403; 14 R478). Of one discarded under R402 there is no telegram to compare. -/
def State.secondCopy (s : State) (f p sseq : Nat) (head : List Byte) : State :=
  match (s.flow f).window.filter (·.sseq == sseq) with
  | some x =>
    if x.data ≠ head then s.copiesDiffer f sseq
    else if x.port ≠ p then s.deliverTelegram f x
    else s
  | none =>
    match (s.flow f).delivered with
    | some x => if x.sseq = sseq ∧ x.data ≠ head then s.copiesDiffer f sseq else s
    | none => s

/-- The window of flow `f` has ended by MONO `m`: its telegram goes as a single copy (11 R403). -/
def State.closeWindow (s : State) (f m : Nat) : State :=
  match (s.flow f).window with
  | some x => if x.at_ + s.get (NET_FD8_SKEW.at f) * 10000 ≤ m then s.singleCopy f x else s
  | none => s

/-- A copy that passed its checks is judged by its SSEQ (11 R402). A window that ended before it has ended first (R403). -/
def State.judgeCopy (s : State) (f p : Nat) (data : List Byte) : State :=
  let s := s.closeWindow f (s.mono - 1)
  let d := s.safeLen f
  let head := data.take (d + 8)
  let sseq := word32At data d
  let last := s.get (NET_FLAST_SEQ.at f)
  let diff := (sseq + 2 ^ 32 - last) % 2 ^ 32
  let open_ := (s.flow f).first || s.bit (NET_FSTAT_LOST.at f)
  if diff = 0 then s.secondCopy f p sseq head
  else if open_ ∨ diff ≤ s.get (NET_FD8_SEQWIN.at f) then
    let s := match (s.flow f).window with
      | some x => s.singleCopy f x
      | none => s
    (s.setFlow f { s.flow f with window := some ⟨sseq, p, s.mono, head⟩, first := false }).set (NET_FLAST_SEQ.at f) sseq
  else
    let s := (s.inc (NET_FCNT_SEQERR.at f)).telegramFault f 1
    (s.emit 0x8005 [f, p, sseq, last]).set (NET_FLAST_SEQ.at f) sseq

/-- A received copy of a safe telegram (11 R401, R402). -/
def execSafeCopyReceive (t : Nat) (port : Fin 2) (h : PdHeader) (data : List Byte) (unitsAgree : Bool) (s : State) :
    Host.Outcome State Fault Refusal :=
  let s := s.advance t
  let p := port.val
  if s.get (NET_PnCFG_SPEED p) = 0 then .next s
  else if s.headerRefused h data then .next (s.badHeader p h.comId)
  else match s.receiveFlow true p h.src h.comId with
    | none => .next s
    | some f =>
      if !unitsAgree then .next ((s.telegramFault f 4).emit 0x800A [f, 0])
      else if s.telegramOk f data then .next (s.judgeCopy f p data)
      else .next (s.scrcError f p)

/-- The window of a telegram ends SKEW after its first copy (11 R403). -/
def execSkewWindowEnd (t : Nat) (flow : Fin 256) (s : State) : Host.Outcome State Fault Refusal :=
  let s := s.advance t
  .next (s.closeWindow flow.val s.mono)

/-- No copy or delivery for TMO ms (11 R385, R404): the flow is lost under 05 R179. DEDUCED: a flow that has accepted nothing since reset
is declared lost TMO after the reset, log entry 21. -/
def execFlowTimeout (t : Nat) (flow : Fin 256) (s : State) : Host.Outcome State Fault Refusal :=
  let s := s.advance t
  let f := flow.val
  let x := s.flow f
  let due := s.configured && s.flowOn f && !s.flowTransmits f && decide (x.lastAt + s.get (NET_FD5_TIME.at f) * 1000000 ≤ s.mono)
  if due && s.bit (NET_FSTAT_LOST.at f) && s.bit (stLost 5 f) then
    .next (if s.flowSafe f && !s.bit (NET_FSTAT_FAULT.at f) then s.telegramFault f 5 else s)
  else if due then
    let s := (s.setBit (NET_FSTAT_LOST.at f) true).setFlow f { x with first := true }
    let s := s.stationLost 5 f
    .next (if s.flowSafe f then s.telegramFault f 5 else s)
  else .next s

/-- The telegrams of safe flow `f` that have not left port `p`. -/
def State.safeWaiting (s : State) (f p : Nat) : List TxFrame :=
  (s.portQueue p ++ (s.net.sending.filter fun e => e.1 == p).map (·.2)).filter fun y => y.kind == .safe && y.claimant == 0x5000 + f

/-- A copy of a safe telegram has not left its port by its deadline (11 R400, R401): one break for the send edge. The
spec states no shortfall for it; `benef` and `shortfall` are what the port found, log entry 60. The beneficiary is no claimant of a
lower tier (01 R33): a claimant that cannot be it stands for none, and the victim is named. -/
def execSafeDeadlineMiss (t : Nat) (flow : Fin 256) (port : Fin 2) (benef shortfall : Nat) (s : State) :
    Host.Outcome State Fault Refusal :=
  let s := s.advance t
  let f := flow.val
  let p := port.val
  let x := s.flow f
  let deadline := fun (e : Nat) => e + s.get (NET_FD5_TIME.at f) * 1000
  let left := fun (q : Nat) => (s.safeWaiting f q).map (·.at_)
  match (left p ++ x.withheld).find? fun e => decide (deadline e ≤ s.mono) && !x.missed.contains e with
  | none => .next s
  | some e =>
    let missed := (e :: x.missed).filter fun k => (left 0).contains k || (left 1).contains k
    let s := s.setFlow f { x with missed, withheld := x.withheld.filter (· != e) }
    let s := s.emit 0x8009 [f, p, s.mono - deadline e]
    let b := if s.mayBenefit 4 benef then benef else 0x5000 + f
    .next (s.guaranteeBreak (0x5000 + f) b 4 (s.claimantTier b) (0x0008 + p) shortfall)

/-! ### Rings, ports, links -/

/-- A frame received is no longer than the largest frame (11 R380); `frame`: from destination address to last data byte. -/
def frameFits (tagged : Bool) (frame : List Byte) : Bool := decide (frame.length + 4 ≤ largestFrame tagged)

def execRingFrameReceive (t : Nat) (port : Fin 3) (kind : RingFrameKind) (tagged : Bool) (frame : List Byte) (s : State) :
    Host.Outcome State Fault Refusal :=
  let s := s.advance t
  if s.get (NET_PnCFG_SPEED port.val) = 0 ∨ kind = .other ∨ !frameFits tagged frame then .next s else .next (s.ringFrame port.val tagged frame)

/-- An ARP or ICMP echo request to the module is answered; an ARP request is placed in the ring as well (11 R381,
R386). The answer carries the request's bytes; its form is the protocols'. -/
def execArpIcmpReceive (t : Nat) (port : Fin 3) (arp tagged : Bool) (frame : List Byte) (s : State) :
    Host.Outcome State Fault Refusal :=
  let s := s.advance t
  let p := port.val
  if s.get (NET_PnCFG_SPEED p) = 0 ∨ !frameFits tagged frame then .next s
  else
    let s := if arp then s.ringFrame p tagged frame else s
    .next (s.queueFrame p { kind := if arp then .arpReply else .echoReply, pcp := s.get (NET_PnCFG_PCP p)
                            len := max 64 (frame.length + 4), data := frame, at_ := s.mono })

/-- Hand one slot of the transmit ring to NET (11 R386): length, port and VLAN bit from its descriptor, PCP from the
tag. A frame beyond the largest one is not sent (R380): DESIGN CHOICE, log entry 22. -/
def State.takeSlot (s : State) (slot : Nat) : State :=
  let off := slotOffset (s.get NET_TXCFG_BASE) slot
  let w := (s.bufferWord off).toNat
  let n := min (w % 65536) 2032
  let p := w / 65536 % 256
  let tagged := w / 0x1000000 % 2 == 1
  let bytes := (unpackWords (s.bufferWords (off + 16) ((n + 3) / 4))).take n
  let pcp := if tagged then ((bytes[14]?).getD 0#8).toNat / 32 else s.get (NET_PnCFG_PCP (p % 3))
  if 3 ≤ p ∨ !frameFits tagged bytes then s
  else s.queueFrame p { kind := .ring, claimant := 0x6000 + s.get NET_TXCFG_PART, pcp, len := max 64 (n + 4), data := bytes, at_ := s.mono }

/-- Hand over slots from TAIL to HEAD. -/
def takeSlots : Nat → State → State
  | 0, s => s
  | k + 1, s =>
    let n := s.get NET_TXCFG_SLOTS + 1
    let tail := s.get NET_TXPTR_TAIL
    if tail = s.get NET_TXPTR_HEAD then s
    else takeSlots k ((s.takeSlot tail).set NET_TXPTR_TAIL ((tail + 1) % n))

/-- Software writes NET_TXPTR.HEAD (11 R386). DESIGN CHOICE: NET takes the slots over at once, log entry 22. -/
def State.postRing (s : State) (head : Nat) : State :=
  let n := s.get NET_TXCFG_SLOTS + 1
  let s := s.set NET_TXPTR_HEAD head
  if s.bit NET_TXCFG_EN ∧ head < n then takeSlots n s else s

def execTxRingPost (t : Nat) (head : Fin 1024) (s : State) : Host.Outcome State Fault Refusal :=
  .next ((s.advance t).postRing head.val)

/-- A frame has ended at a port, or the port is idle: it sends the first eligible frame (11 R387, R388). While a frame is being sent
nothing is. Frames queued before a mode that withholds them do not leave in it (R390). -/
def execFrameBoundary (t : Nat) (port : Fin 3) (s : State) : Host.Outcome State Fault Refusal :=
  let s := s.advance t
  let p := port.val
  let up := s.get NET_STAT_LINK / 2 ^ p % 2 == 1
  let idle := fun (s : State) => s.withNet fun b => { b with sending := CMap.drop b.sending p }
  if !up then .next (idle s)
  else if !s.frameGone p then .next s
  else
    let s := idle s
    let s := s.setQueue p ((s.portQueue p).filter fun x => s.mayLeave x.kind)
    let s := s.reportThrottled p
    match s.firstEligible p with
    | some i => .next (s.sendFrame p i)
    | none => .next s

/-- The speed field of a port in NET_STAT. -/
def State.setSpeed (s : State) (p v : Nat) : State :=
  let w := s.get NET_STAT_SPD
  s.set NET_STAT_SPD (w - w / 4 ^ p % 4 * 4 ^ p + v * 4 ^ p)

/-- A link goes up or down (11 R380, R389, R409). -/
def execLinkChange (t : Nat) (port : Fin 3) (speed : LinkSpeed) (s : State) : Host.Outcome State Fault Refusal :=
  let s := s.advance t
  let p := port.val
  let cfg := s.get (NET_PnCFG_SPEED p)
  let w := s.get NET_STAT_LINK
  let up := w / 2 ^ p % 2 == 1
  match speed with
  | .down =>
    if up then .next (((s.set NET_STAT_LINK (w - 2 ^ p)).setSpeed p 0).emit 0x8002 [p]) else .next s
  | speed =>
    let v := if speed = .mbit1000 then 2 else 1
    if cfg = 0 ∨ cfg < v ∨ (up ∧ s.get NET_STAT_SPD / 4 ^ p % 4 = v) then .next s
    else
      let mbit := if v = 2 then 1000 else 100
      let s := ((s.set NET_STAT_LINK (if up then w else w + 2 ^ p)).setSpeed p v).emit 0x8001 [p, mbit]
      if cfg = 2 ∧ v = 1 then .next (s.emit 0x8003 [p, mbit]) else .next s

/-! ### Mailbox -/

def State.netMailbox (s : State) (cseq : Nat) (act : State → State × Nat) : State :=
  s.mailbox NET_SEQ_LASTCMD NET_RES_RESULT cseq act

/-- ACKSAFE (11 R405): from the executive, once the count is met. -/
def ackSafe (f : Nat) (executive : Bool) (s : State) : State × Nat :=
  if !s.flowOn f ∨ s.flowTransmits f ∨ !s.flowSafe f then (s, 6)
  else if executive ∧ s.bit (NET_FSTAT_ACKWAIT.at f) then ((s.emit 0x8010 [f]).recoverFlow f, 0)
  else (s, 5)

def execAcksafe (cseq : Nat) (flow : Fin 256) (executive : Bool) (s : State) : Host.Outcome State Fault Refusal :=
  .next (s.netMailbox cseq (ackSafe flow.val executive))

/-- CLRCNT (11 R409). -/
def clearFlowCounts (f : Nat) (s : State) : State × Nat :=
  if s.flowOn f then (s.wr (bank NET_FCNT f) 0, 0) else (s, 6)

def execNetClrcnt (cseq : Nat) (flow : Fin 256) (s : State) : Host.Outcome State Fault Refusal :=
  .next (s.netMailbox cseq (clearFlowCounts flow.val))

/-! ### The 1 ms window (01 R35, R37; 11 R388) -/

/-- The claimant to whose benefit flow `f` was short at port `p`: an offender of this window (01 R37), else the claimant that sent
most, else the victim itself. R34 does not say who it is where R37 names none: DESIGN CHOICE, log entry 60. -/
def State.shortBenefit (s : State) (f p : Nat) : Nat :=
  let others := s.net.sent.filter fun e => e.1 == p && e.2.1 != 0x3000 + f && s.mayBenefit 5 e.2.1
  match s.net.throttled.find? fun e => e.1 == p && e.2 != f with
  | some e => 0x3000 + e.2
  | none => (others.foldl (fun (m : Nat × Nat) e => if m.2 < e.2.2 then (e.2.1, e.2.2) else m) (0x3000 + f, 0)).1

/-- Flow `f` at port `p` at the end of a window: short with traffic waiting is a break (01 R35). Two DESIGN CHOICES, log entry 60: traffic
was waiting where one frame was queued through the whole window; the shortfall in Mbit/s is rounded down. -/
def State.bandwidthBreak (s : State) (s0 : State) (f p : Nat) : State :=
  let sent := ((s0.net.sent.find? fun e => e.1 == p && e.2.1 == 0x3000 + f).map (·.2.2)).getD 0
  let waiting := (s0.portQueue p).any fun x => x.kind == .flow && x.flowIndex == f && decide (x.at_ + 1000000 ≤ s0.mono)
  let due := s0.resv f * 100
  if waiting ∧ sent < due then
    let b := s0.shortBenefit f p
    s.guaranteeBreak (0x3000 + f) b 5 (s0.claimantTier b) (0x0008 + p) ((due - sent) / 1000)
  else s

/-- A declared tier 6 share of an arbiter, or reserved bandwidth of the pair link, delivered short (01 R29, R35): a break. -/
def State.shortBreak (s : State) (e : ShortShare) : State :=
  let declared := s.sys.shares.any fun x => x.resource == e.resource && x.claimant == e.victim
  let tier := s.claimantTier e.victim
  if declared ∧ (tier = 6 ∨ e.resource = 0x000E) ∧ s.mayBenefit tier e.benef then
    s.guaranteeBreak e.victim e.benef tier (s.claimantTier e.benef) e.resource e.shortfall
  else s

/-- A claimant that exceeded its share of a memory arbiter or of the pair link is reported (01 R37; 04 R164; 14 R486). -/
def State.reportExcess (s : State) : ShareExcess → State
  | .memory arbiter master claimant =>
    s.when (decide (arbiter < 5) && decide (1 ≤ master) && decide (master ≤ 8)) fun s => s.emit 0x2011 [arbiter, master, claimant]
  | .pairLink claimant shortfall => s.when (s.get PAIR_CFG_MODE != 0) fun s => s.emit 0xB00F [claimant, shortfall]

/-- The end of a 1 ms window of MONO, once each (01 R35, R37): reserved bandwidth of flows, the tier 6 shares of other arbiters that
were delivered short, the shares of memory arbiters and of the pair link that were exceeded. -/
def execBandwidthWindowEnd (t : Nat) (shorts : WindowReport) (s : State) : Host.Outcome State Fault Refusal :=
  let s0 := s.advance t
  if s0.mono % 1000000 ≠ 0 ∨ s0.mono ≤ s0.net.windowEnd then .next s0
  else
    let flows := s0.transmitFlows.filter fun f => !s0.flowSafe f && s0.resv f != 0
    let s := flows.foldl (fun s f => [0, 1, 2].foldl (fun (s : State) p =>
      if s0.flowPort f p then s.bandwidthBreak s0 f p else s) s) s0
    let s := shorts.excess.foldl State.reportExcess (shorts.shorts.foldl State.shortBreak s)
    .next (s.withNet fun b => { b with sent := [], throttled := [], windowEnd := s.mono })

end Sys2Proof.Machine
end

