-- ==== Sys2Proof/Machine/Oct.lean ====
section
/-!
DEFINITION. The commands and events of OCT (12 R421 to R440).
-/

namespace Sys2Proof.Machine

open Reg

/-! ### Basic periods as master -/

/-- Send START with an index and a macrocycle count on every enabled channel, 1.00 µs after this edge (12 R415, R421). With a new macrocycle
the grants made before it are served (R431). -/
def State.sendStart (s : State) (index count : Nat) : State :=
  let s := if index = 0 then s.withOct fun b => { b with grantFrom := [] } else s
  [0, 1].foldl (fun (s : State) c =>
    if s.octEnabled c then
      let st := s.mono + 1000
      let w := [index + count % 2 ^ 16 * 2 ^ 16, s.octAddr, s.get OCT_SCHID_CRC, 0].map (BitVec.ofNat 32)
      (s.noteStart c st index count).octSend c st 0x1 0 0 0 w
    else s) s

/-- The master's next basic period (12 R418, R421, R433, R437). -/
def State.masterPeriod (s : State) : State :=
  let s := (s.settlePoll 0).settlePoll 1
  if s.oct.first then
    if s.mono < s.oct.masterFrom then s
    else (s.withOct fun b => { b with first := false }).sendStart 0 (s.get OCT_MCNT_COUNT)
  else
    let i := (s.get OCT_MCNT_INDEX + 1) % s.octM
    let n := s.get OCT_MCNT_COUNT
    match s.oct.target, s.oct.lastMacro with
    | some a, some m =>
      if i = 0 ∧ m = n then
        let s := (s.withOct fun b => { b with target := none, lastMacro := none }).setBit OCT_STAT_HOPEND false
        (s.follow a false).emit 0x900B [0, a]
      else s.sendStart i (if i = 0 then n + 1 else n)
    | _, _ => s.sendStart i (if i = 0 then n + 1 else n)

/-- The target of a hand-over sends its first START (12 R437). -/
def State.takeMastership (s : State) : State :=
  match s.oct.heardHand with
  | some (m, a) =>
    if a = s.octAddr ∧ s.bit OCT_CFG_MCAP ∧ !s.bit OCT_STAT_IDMIS ∧ s.get OCT_MCNT_COUNT = m ∧ s.get OCT_MCNT_INDEX + 1 = s.octM ∧ s.oct.startAt + 500000 ≤ s.mono then
      let s := (s.set OCT_MCNT_COUNT (m + 1)).withOct fun b => { b with heardHand := none, first := false }
      let s := s.becomeMaster 2
      (s.emit 0x900B [0, a]).sendStart 0 (m + 1)
    else s
  | none => s

/-- A tick edge whose tick number is a multiple of 4 (12 R421). -/
def execOctBasicPeriodStart (t : Nat) (s : State) : Host.Outcome State Fault Refusal :=
  let s := s.advance t
  if s.mono % 500000 ≠ 0 then .next s
  else match s.octRole with
    | 3 => .next s.masterPeriod
    | 2 => .next s.takeMastership
    | _ => .next s

/-- Poll an address for a port (12 R419, R422). -/
def State.poll (s : State) (c i addr port start : Nat) : State :=
  let s := s.setOctCh c { s.octCh c with poll := some { entry := i, ask := .poll, addr, port, start } }
  s.octSend c start 0x2 addr port 0 [s.pollStatus c addr]

/-- The next address an ADMIT goes to (12 R431). -/
def State.nextAdmit (s : State) (c : Nat) : Option Nat :=
  ((List.range 126).map fun k => ((s.octCh c).admitted + k) % 126 + 1).find? fun a =>
    a != s.octAddr && !s.bit (OCT_NSTAT_ADM.at a)

/-- A SPARE entry without a GRANT or a hand-over to send (12 R431): the POLL of a granted one, else ADMIT. -/
def State.servePoll (s : State) (c i start : Nat) : State :=
  if s.edGranted i then
    if CMap.lookup (fun _ => 0) s.oct.grantFrom i = 0 then s.poll c i (s.get (OCT_ED2_GADDR.at i)) (s.edPort i) start else s
  else match s.nextAdmit c with
    | some a =>
      let s := s.setOctCh c { s.octCh c with admitted := a, poll := some { entry := i, ask := .admission, addr := a, port := 0, start } }
      s.octSend c start 0x6 a 0 0 [s.pollStatus c a]
    | none => s

/-- An active SPARE entry (12 R419, R431, R437). In SAFE no HANDOVER is sent, the other frames are (R429). -/
def State.serveSpare (s : State) (c i start : Nat) : State :=
  match (s.octCh c).grant with
  | some (addr, l) =>
    let s := s.setOctCh c { s.octCh c with grant := none }
    let w := s.get (OCT_NSTAT_RTD.at addr) :: l.map fun g => g.1 + g.2 * 2 ^ 12 + 2 ^ 31
    s.octSend c start 0x8 addr 0 0 (w.map (BitVec.ofNat 32))
  | none =>
    match s.oct.target, s.oct.lastMacro with
    | some a, none =>
      if s.mode = .safe then s.servePoll c i start
      else
        let s := s.setOctCh c { s.octCh c with poll := some { entry := i, ask := .handover, addr := a, port := 0, start } }
        s.octSend c start 0x9 a 0 0 [BitVec.ofNat 32 (s.get OCT_MCNT_COUNT)]
    | _, _ => s.servePoll c i start

/-- A DATA entry: the master sends a port it sources (12 R419, R429). -/
def State.serveData (s : State) (c i start : Nat) : State :=
  let port := s.edPort i
  match s.octPortIndex port true with
  | some d => (s.octCount d).octSend c start 0x4 0 port 0 (s.octData port (s.edLenw i))
  | none => s.octSend c start 0x4 0 port 0 (s.octData port (s.edLenw i))

/-- An active entry's time has come, once in the basic period; the entries of a channel follow one another (12 R420, R421). -/
def State.octDue (s : State) (c i delay : Nat) : Bool :=
  decide (s.octT0 c + s.edS i + min delay 1000 ≤ s.mono) && match (s.octCh c).served with
    | some x => decide (x < s.edS i)
    | none => true

/-- An active entry is due: the line is quiet `delay` ns after S, frame starts having 10 ns resolution (12 R412); a frame that began in the span of `intruder`, if in any,
held it (12 R421). -/
def execOctEntryDue (t : Nat) (entry : Fin 4096) (delay : Nat) (intruder : Option (Fin 4096)) (s : State) :
    Host.Outcome State Fault Refusal :=
  let s := s.advance t
  let i := entry.val
  let c := s.edCh i
  if s.octRole ≠ 3 ∨ !s.octEnabled c ∨ !s.octActive i ∨ (s.octCh c).start.isNone ∨ !s.octDue c i delay then .next s
  else
    let s := s.settlePoll c
    let s := s.setOctCh c { s.octCh c with served := some (s.edS i) }
    let kind := s.edKind i
    if kind = 3 ∨ (kind = 2 ∧ s.octSilent) then .next s
    else if 1000 < delay then
      let b := (intruder.map (·.val)).getD i
      .next ((s.guaranteeBreak (0x4000 + i) (0x4000 + b) 4 4 (0x000B + c) 1).emit 0x9008 [i, delay])
    else
      let start := s.octT0 c + s.edS i + delay / 10 * 10
      match kind with
      | 1 => .next (s.poll c i (s.edAddr i) (s.edPort i) start)
      | 2 => .next (s.serveData c i start)
      | 4 => .next (s.serveSpare c i start)
      | _ => .next s

/-! ### Receiving -/

/-- Carrier is heard: a listening or waiting candidate begins step 1 again (12 R433). -/
def State.carrier (s : State) : State :=
  let s := s.withOct fun b => { b with carrierAt := s.mono }
  if s.octRole = 1 ∧ s.get OCT_STAT_CSSTEP ≤ 2 then s.listen s.mono else s

/-- The payload lengths of a frame type (12 R415). -/
def octLengthOk (type n : Nat) : Bool :=
  if type = 0x1 then n == 4
  else if type = 0x2 ∨ type = 0x6 ∨ type = 0x9 ∨ type = 0xA then n == 1
  else if type = 0x7 then decide (n ≤ 4)
  else if type = 0x8 then decide (1 ≤ n) && decide (n ≤ 5)
  else decide (n ≤ 64)

/-- Why a received frame is discarded: the cause of event 0x9007, if any (12 R415, R427). DEDUCED: a payload of another
length than the port descriptor's is a LENW mismatch, log entry 24. -/
def State.frameError (s : State) (f : OctFrame) : Option Nat :=
  let ty := octType f.header
  let known : Bool := match s.octPortIndex (octPort f.header) false with
    | some d => decide (3 ≤ ty) && decide (ty ≤ 5) && s.get (OCT_PCFG_LENW.at d) != f.payload.length
    | none => false
  if !f.codeOk then some 2
  else if f.fcs.toNat ≠ crcWords (f.header :: f.payload) then some 1
  else if ty = 0 ∨ 10 < ty then some 3
  else if octLenw f.header ≠ f.payload.length ∨ !octLengthOk ty f.payload.length ∨ known then some 4
  else none

/-- Count a discarded frame; event 0x9007 at most once per ms and channel (12 R427). -/
def State.countError (s : State) (c cause : Nat) : State :=
  let s := s.inc (if cause = 1 then OCT_CHnCNT_FCS c else if cause = 4 then OCT_CHnCNT_LENW c else OCT_CHnCNT_CODE c)
  let due := match (s.octCh c).errorAt with
    | some m => decide (m + 1000000 ≤ s.mono)
    | none => true
  if due then (s.setOctCh c { s.octCh c with errorAt := some s.mono }).emit 0x9007 [c, cause] else s

/-- The master's window of an answer: its bounds and E (12 R423). -/
def State.window (s : State) (p : OctPoll) : Nat × Nat × Nat :=
  let rtd := s.get (OCT_NSTAT_RTD.at p.addr)
  if rtd = 4095 then (p.start + 2560, p.start + 4560 + s.rtdMax, p.start + 3560)
  else (p.start + 2560 + rtd, p.start + 4560 + rtd, p.start + 3560 + rtd)

/-- The master discards an answer or an event frame outside its window (12 R425). -/
def State.outsideWindow (s : State) (c addr entry : Nat) (dev : Int) : State :=
  (s.judgeDiscard c addr 1).emit 0x9005 [addr, entry, patternOf 32 dev]

/-- The poll of channel `c` has been answered, be the answer accepted or discarded: no run of unanswered polls goes on (12 R427). -/
def State.markAnswered (s : State) (c : Nat) : State :=
  match (s.octCh c).poll with
  | some p => (s.setOctCh c { s.octCh c with poll := some { p with answered := true } }).set (OCT_NSTAT_NOREP.at p.addr) 0
  | none => s

/-- A REPLY for a port to no poll of this moment (12 R425): it lies outside the window of its entry, where it has one. -/
def State.unasked (s : State) (c start addr port : Nat) : State :=
  let own := fun (i : Nat) => s.octActive i && s.edCh i == c && s.edPort i == port &&
    ((s.edKind i == 1 && s.edAddr i == addr) || (s.edKind i == 4 && s.edGranted i && s.get (OCT_ED2_GADDR.at i) == addr))
  match s.octEntries.find? own with
  | some i =>
    let rtd := s.get (OCT_NSTAT_RTD.at addr)
    s.outsideWindow c addr i ((start : Int) - (s.octT0 c + s.edS i + 3560 + (if rtd = 4095 then 0 else rtd) : Nat))
  | none => s.judgeDiscard c addr 1

/-- The master hears an answer of a kind to its last frame on channel `c` and, if it lies in its window, acts on it. -/
def State.masterAnswer (s : State) (c start addr port : Nat) (ask : OctAsk) (act : State → OctPoll → State) : State :=
  match (s.octCh c).poll with
  | none => s.unasked c start addr port
  | some p =>
    let (lo, hi, e) := s.window p
    if p.ask ≠ ask ∨ p.addr ≠ addr ∨ p.answered ∨ start < lo ∨ hi < start then
      (s.markAnswered c).outsideWindow c addr p.entry ((start : Int) - e)
    else
      let s := (s.markAnswered c).judge c addr 0
      act (s.admitNode addr (start - (p.start + 3560))) p

/-- Grant the ports of a CLAIM (12 R431): the pairs of port and entry, and the ports left out. -/
def State.grantPorts (s : State) (c addr : Nat) : List Word → State × List (Nat × Nat) × Nat
  | [] => (s, [], 0)
  | w :: r =>
    if fieldGet w 31 1 = 0 then s.grantPorts c addr r
    else
      let port := fieldGet w 0 12
      let lenw := fieldGet w 12 7
      match s.octEntries.find? fun i => s.edKind i == 4 && s.edCh i == c && !s.edGranted i && decide (lenw ≤ s.edLenw i) with
      | some i =>
        let s := s.wr (bank OCT_ED2 i) (BitVec.ofNat 32 (port + addr * 2 ^ 16 + 2 ^ 31))
        let s := s.withOct fun b => { b with grantFrom := CMap.put (fun _ => 0) b.grantFrom i 1 }
        let (s, l, n) := s.grantPorts c addr r
        (s, (port, i) :: l, n)
      | none =>
        let (s, l, n) := s.grantPorts c addr r
        (s, l, n + 1)

/-- An accepted CLAIM (12 R431). -/
def State.claimed (s : State) (c addr : Nat) (payload : List Word) : State :=
  let (s, l, n) := s.grantPorts c addr (payload.take 4)
  let s := s.setBit (OCT_NSTAT_GRANT.at addr) (s.bit (OCT_NSTAT_GRANT.at addr) || !l.isEmpty)
  (s.setOctCh c { s.octCh c with grant := some (addr, l) }).emit 0x9009 [addr, l.length, n]

/-- The active EVENT entry of an event frame and the frame's deviation from its S (12 R424): the one in whose window it lies, else the
first. -/
def State.eventEntry (s : State) (c start addr port : Nat) : Option (Nat × Int) :=
  let all := (s.octEntries.filter fun i =>
    s.octActive i && s.edKind i == 3 && s.edCh i == c && s.edAddr i == addr && s.edPort i == port).map fun i =>
      (i, (start : Int) - (s.octT0 c + s.edS i : Nat))
  match all.find? fun e => decide (e.2.natAbs ≤ 1000) with
  | some e => some e
  | none => all.head?

/-- A frame with an error at the master (12 R417, R425, R427): an answer or an event frame outside its window is judged so whatever its
FCS, in its window by its error. DEDUCED: its header says who sent it; log entry 24. -/
def State.masterError (s : State) (c start : Nat) (f : OctFrame) (cause : Nat) : State :=
  let addr := octDest f.header
  let port := octPort f.header
  let ty := octType f.header
  let last := if cause = 4 then 4 else 2
  if ty = 0x5 then
    match s.eventEntry c start addr port with
    | some (i, dev) => if dev.natAbs ≤ 1000 then s.judgeDiscard c addr last else s.outsideWindow c addr i dev
    | none => s
  else match (s.octCh c).poll with
    | none => if ty = 0x3 then s.unasked c start addr port else s
    | some p =>
      let (lo, hi, e) := s.window p
      if !p.answered ∧ lo ≤ start ∧ start ≤ hi then (s.markAnswered c).judgeDiscard c p.addr last
      else if ty = 0x3 ∨ ty = 0x7 then (s.markAnswered c).outsideWindow c addr p.entry ((start : Int) - e)
      else s

/-- A frame of a master-side channel that answers or reports (12 R422 to R425, R431, R437). -/
def State.masterReceive (s : State) (c start : Nat) (f : OctFrame) : State :=
  let addr := octDest f.header
  let port := octPort f.header
  match octType f.header with
  | 0x3 => s.masterAnswer c start addr port .poll fun s p => if p.port = port then s.octAccept port start f.payload else s
  | 0x7 => s.masterAnswer c start addr port .admission fun s _ => s.claimed c addr f.payload
  | 0xA =>
    if (f.payload.head?).map (fun w => fieldGet w 0 16) = some (s.get OCT_MCNT_COUNT) then
      s.masterAnswer c start addr port .handover fun s _ => s.withOct fun b => { b with lastMacro := some (s.get OCT_MCNT_COUNT) }
    else s
  | 0x5 =>
    match s.eventEntry c start addr port with
    | some (i, dev) =>
      if dev.natAbs ≤ 1000 then (s.judge c addr 0).octAccept port start f.payload else s.outsideWindow c addr i dev
    | none => s.judgeDiscard c addr 1
  | _ => s

/-- The bounds of the master's window for a REPLY in entry `i`, from T0 (12 R421, R423, R426): by the frame start of the entry's POLL and
the RTD it names, where the consumer heard it; else as wide as any of them. -/
def State.replyWindow (s : State) (c i : Nat) : Int × Int :=
  let x := s.octCh c
  let addr := if s.edKind i = 4 then s.get (OCT_ED2_GADDR.at i) else s.edAddr i
  if x.heardFor = (addr, s.edPort i) ∧ s.octT0 c + s.edS i ≤ x.heardAt then
    let b : Int := (x.heardAt : Int) - s.octT0 c
    if x.heardRtd = 4095 then (b + 2560, b + 4560 + s.rtdMax) else (b + 2560 + x.heardRtd, b + 4560 + x.heardRtd)
  else (s.edS i + 2560, s.edS i + 5560 + s.rtdMax)

/-- A frame falls in a consumer's window of an entry (12 R426). -/
def State.consumes (s : State) (c start type port : Nat) : Bool :=
  let off : Int := (start : Int) - s.octT0 c
  let half := s.rtdMax / 2
  let within := fun (w : Int × Int) => decide (w.1 - half ≤ off) && decide (off ≤ w.2 + half)
  s.octEntries.any fun i =>
    s.octActive i && s.edCh i == c && s.edPort i == port && match type with
      | 0x3 => (s.edKind i == 1 || (s.edKind i == 4 && s.edGranted i)) && within (s.replyWindow c i)
      | 0x4 => s.edKind i == 2
      | _ => s.edKind i == 3 && within (s.edS i - 1000, s.edS i + 1000)

/-- A poll status for this node (12 R417, R425). -/
def State.takeStatus (s : State) (c : Nat) (w : Word) : State :=
  let last := fieldGet w 12 4
  let s := (s.set OCT_OWN_LAST last).set OCT_OWN_RTD (fieldGet w 0 12)
  match (s.octCh c).own with
  | some i =>
    let s := s.setOctCh c { s.octCh c with own := none }
    if last ≠ 0 ∧ last ≠ 15 then (s.inc OCT_OWN_DISC).emit 0x9006 [i, last, fieldGet w 16 8] else s
  | none => s

/-- A follower notes the grants of a GRANT (12 R431). -/
def State.noteGrants (s : State) (c addr : Nat) (payload : List Word) : State :=
  let s := if addr = s.octAddr then
      (s.set OCT_OWN_RTD (((payload.map fun w => fieldGet w 0 12).head?).getD 4095)).setOctCh c { s.octCh c with claim := none }
    else s
  (payload.drop 1).foldl (fun (s : State) w =>
    if fieldGet w 31 1 = 1 ∧ s.edKind (fieldGet w 12 12) = 4 then
      s.wr (bank OCT_ED2 (fieldGet w 12 12)) (BitVec.ofNat 32 (fieldGet w 0 12 + addr * 2 ^ 16 + 2 ^ 31))
    else s) s

/-- A follower answers an ADMIT unless its CLAIM is less than 2 macrocycles old (12 R431). -/
def State.mayClaim (s : State) (c : Nat) : Bool :=
  match (s.octCh c).claim with
  | none => true
  | some n => decide (2 ≤ (s.get OCT_MCNT_COUNT + 2 ^ 16 - n) % 2 ^ 16)

/-- A frame at a follower (12 R416, R422, R426, R431, R437). -/
def State.followerReceive (s : State) (c start : Nat) (f : OctFrame) : State :=
  let addr := octDest f.header
  let port := octPort f.header
  let mine := addr == s.octAddr
  let w := (f.payload.head?).getD 0#32
  let fin := start + octTf f.payload.length
  match octType f.header with
  | 0x2 =>
    let s := s.setOctCh c { s.octCh c with heardRtd := fieldGet w 0 12, heardAt := start, heardFor := (addr, port) }
    if mine then
      let s := s.takeStatus c w
      s.setOctCh c { s.octCh c with answer := some ⟨.poll, port, w, fin⟩ }
    else s
  | 0x6 =>
    if mine then
      let s := s.takeStatus c w
      if s.mayClaim c then s.setOctCh c { s.octCh c with answer := some ⟨.admission, 0, w, fin⟩ } else s
    else s
  | 0x8 => s.noteGrants c addr f.payload
  | 0x9 =>
    let s := s.withOct fun b => { b with heardHand := some (fieldGet w 0 16, addr) }
    if mine ∧ s.bit OCT_CFG_MCAP then s.setOctCh c { s.octCh c with answer := some ⟨.handover, 0, w, fin⟩ } else s
  | 0x3 => if s.consumes c start 0x3 port then s.octAccept port start f.payload else s
  | 0x4 => if s.consumes c start 0x4 port then s.octAccept port start f.payload else s
  | 0x5 => if s.consumes c start 0x5 port then s.octAccept port start f.payload else s
  | _ => s

/-- A valid START (12 R430, R433, R437, R438). -/
def State.startReceive (s : State) (c start : Nat) (f : OctFrame) : State :=
  let word := fun (i : Nat) => (f.payload[i]?).getD 0#32
  let other := fieldGet (word 1) 0 7
  let cold := octFlag f.header
  if s.octRole = 3 ∧ s.octAddr ≤ other then s
  else
    let yields := s.octRole == 3
    let s := s.follow other cold
    let s := if yields then
        (s.withOct fun b => { b with target := none, lastMacro := none, first := false }).setBit OCT_STAT_HOPEND false |>.emit 0x900D [other]
      else s
    let s := s.noteStart c start (fieldGet (word 0) 0 10) (fieldGet (word 0) 16 16)
    let s := match s.oct.heardHand with
      | some (m, _) => if s.get OCT_MCNT_COUNT = m then s else s.withOct fun b => { b with heardHand := none }
      | none => s
    let id := (word 2).toNat
    if id = s.get OCT_SCHID_CRC then (s.setBit OCT_STAT_IDMIS false).withOct fun b => { b with mismatch := none }
    else
      let s := s.setBit OCT_STAT_IDMIS true
      if s.oct.mismatch = some other then s
      else (s.withOct fun b => { b with mismatch := some other }).emit 0x900C [id, s.get OCT_SCHID_CRC]

/-- A received frame, its frame start on MONO with 10 ns resolution (12 R412, R415, R423 to R426). -/
def execOctFrameReceive (t : Nat) (ch : Fin 2) (start : Nat) (f : OctFrame) (s : State) : Host.Outcome State Fault Refusal :=
  let s := s.advance t
  let c := ch.val
  let start := start / 10 * 10
  if s.octRole = 0 ∨ !s.octEnabled c then .next s
  else match s.frameError f with
    | some cause =>
      let s := (s.countError c cause).carrier
      .next (if s.octRole = 3 then s.masterError c start f cause else s)
    | none =>
      if octType f.header = 0x1 then .next (s.startReceive c start f)
      else if s.octRole = 3 then .next (s.masterReceive c start f)
      else if s.octRole = 2 ∧ !s.bit OCT_STAT_IDMIS then .next (s.followerReceive c start f)
      else .next s

/-! ### Sending as follower -/

/-- The entry in which an own frame for a port falls. -/
def State.ownEntry (s : State) (c port : Nat) : Nat :=
  (s.octEntries.find? fun i => s.octActive i && s.edCh i == c && s.edPort i == port &&
    ((s.edKind i == 1 && s.edAddr i == s.octAddr) || (s.edKind i == 4 && s.edGranted i))).getD 0

/-- The SPARE entry in which an ADMIT that was heard from `start` falls, 0 where the schedule has none. -/
def State.spareEntry (s : State) (c start : Nat) : Nat :=
  (s.octEntries.find? fun i => s.octActive i && s.edCh i == c && s.edKind i == 4 &&
    decide (s.octT0 c + s.edS i ≤ start + 1000) && decide (start ≤ s.octT0 c + s.edS i + 2000)).getD 0

/-- Ports claimed: up to 4 output ports that have no POLL entry for this address (12 R431). -/
def State.claimWords (s : State) : List Word :=
  let free := s.octOutputs.filter fun d =>
    let port := s.get (OCT_PCFG_PORT.at d)
    !(s.octEntries.any fun i => s.edKind i == 1 && s.edAddr i == s.octAddr && s.edPort i == port)
  (free.take 4).map fun d => BitVec.ofNat 32 (s.get (OCT_PCFG_PORT.at d) + s.get (OCT_PCFG_LENW.at d) * 2 ^ 12 + 2 ^ 31)

/-- The answer due on a channel goes out 1.00 µs after the end of the frame it answers (12 R422, R429; 14 R471). -/
def execOctReplySend (t : Nat) (ch : Fin 2) (s : State) : Host.Outcome State Fault Refusal :=
  let s := s.advance t
  let c := ch.val
  match (s.octCh c).answer with
  | none => .next s
  | some a =>
    if s.mono < a.at_ + 1000 then .next s
    else
      let s := s.setOctCh c { s.octCh c with answer := none }
      let start := a.at_ + 1000
      if s.octRole ≠ 2 ∨ s.bit OCT_STAT_IDMIS then .next s
      else match a.ask with
        | .poll =>
          match s.octPortIndex a.port true with
          | some d =>
            if s.octSilent then .next s
            else
              let s := s.setOctCh c { s.octCh c with own := some (s.ownEntry c a.port) }
              let data := s.octData a.port (s.get (OCT_PCFG_LENW.at d))
              let s := s.withOct fun b => { b with events := CMap.put (fun _ => []) b.events a.port data }
              .next ((s.octCount d).octSend c start 0x3 s.octAddr a.port 0 data)
          | none => .next s
        | .admission =>
          let s := s.setOctCh c { s.octCh c with claim := some (s.get OCT_MCNT_COUNT), own := some (s.spareEntry c (a.at_ - octTf 1)) }
          .next (s.octSend c start 0x7 s.octAddr 0 0 s.claimWords)
        | .handover => .next (s.octSend c start 0xA s.octAddr 0 0 [a.word])

/-- An EVENT entry of this node: its frame goes out at its own time if the data changed since the port was last sent (12 R419, R424,
R429). -/
def execOctEventSend (t : Nat) (entry : Fin 4096) (s : State) : Host.Outcome State Fault Refusal :=
  let s := s.advance t
  let i := entry.val
  let c := s.edCh i
  let port := s.edPort i
  let rtd := s.get OCT_OWN_RTD
  let start := s.octT0 c + s.edS i - rtd
  match s.octPortIndex port true with
  | none => .next s
  | some d =>
    let data := s.octData port (s.edLenw i)
    let last := CMap.lookup (fun _ => []) s.oct.events port
    if s.octRole ≠ 2 ∨ s.bit OCT_STAT_IDMIS ∨ s.octSilent ∨ rtd = 4095 ∨ !s.octEnabled c ∨ s.edKind i ≠ 3 ∨ !s.octActive i
        ∨ s.edAddr i ≠ s.octAddr ∨ s.mono < start ∨ start + 1000 < s.mono ∨ data = last then .next s
    else
      let s := s.withOct fun b => { b with events := CMap.put (fun _ => []) b.events port data }
      let s := s.setOctCh c { s.octCh c with own := some i }
      .next ((s.octCount d).octSend c start 0x5 s.octAddr port 0 data)

/-! ### Timeouts, loss of the master, cold start -/

/-- No accepted frame for TMO basic periods (12 R428): the port is lost under 05 R179. DEDUCED: one that has accepted none since reset is
declared lost TMO after the reset, log entry 24. -/
def execOctPortTimeout (t : Nat) (port : Fin 512) (s : State) : Host.Outcome State Fault Refusal :=
  let s := s.advance t
  let d := port.val
  let last := CMap.lookup (fun _ => 0) s.oct.accepted d
  if s.bit (OCT_PCFG_EN.at d) && !s.bit (OCT_PCFG_DIR.at d)
      && !(s.bit (OCT_PSTAT_LOST.at d) && s.bit (stLost 4 (s.get (OCT_PCFG_PORT.at d))))
      && decide (last + s.get (OCT_PCFG_TMO.at d) * 500000 ≤ s.mono) then
    .next ((s.setBit (OCT_PSTAT_LOST.at d) true).stationLost 4 (s.get (OCT_PCFG_PORT.at d)))
  else .next s

/-- No valid START for two consecutive basic periods (12 R436); after a hand-over heard, 1.0 ms from the expected start
(R437). DEDUCED: a candidate that has heard no carrier since the last START enters step 1 now; log entry 53. -/
def execOctMasterLoss (t : Nat) (s : State) : Host.Outcome State Fault Refusal :=
  let s := s.advance t
  let master := s.get OCT_STAT_MASTER
  let limit := match s.oct.heardHand with
    | some (m, _) => if s.get OCT_MCNT_COUNT = m ∧ s.get OCT_MCNT_INDEX + 1 = s.octM then 1500000 else 1002000
    | none => 1002000
  if s.octRole ≠ 2 ∨ master = 0 ∨ s.mono < s.oct.startAt + limit then .next s
  else
    let s := (s.emit 0x9002 [master]).set OCT_STAT_MASTER 0
    let s := s.withOct fun b => { b with heardHand := none }
    if s.bit OCT_CFG_MCAP ∧ !s.bit OCT_STAT_IDMIS then .next (s.listen (if s.oct.startAt < s.oct.carrierAt then s.oct.carrierAt else s.mono)) else .next s

/-- A time of the cold start ends (12 R433). -/
def execColdStartTimerEnd (t : Nat) (s : State) : Host.Outcome State Fault Refusal :=
  let s := s.advance t
  let a := s.octAddr
  if s.octRole ≠ 1 then .next s
  else match s.get OCT_STAT_CSSTEP with
    | 1 =>
      if s.oct.stepAt + 2000000 ≤ s.mono then
        .next ((s.set OCT_STAT_CSSTEP 2).withOct fun b => { b with stepAt := s.oct.stepAt + 2000000 })
      else .next s
    | 2 =>
      if s.oct.stepAt + a * 20000 ≤ s.mono then
        let s := (s.set OCT_STAT_CSSTEP 3).withOct fun b => { b with frameAt := s.mono }
        let w := [s.get OCT_MCNT_COUNT * 2 ^ 16, a, s.get OCT_SCHID_CRC, 0].map (BitVec.ofNat 32)
        let s := (s.set OCT_MCNT_INDEX 0).withOct fun b => { b with startAt := s.mono }
        .next ([0, 1].foldl (fun (s : State) c => if s.octEnabled c then s.octSend c s.mono 0x1 0 0 1 w else s) s)
      else .next s
    | 4 => if s.oct.frameAt + 5000000 + a * 40000 ≤ s.mono then .next (s.listen s.mono) else .next s
    | _ => .next s

/-- The cold START ends without a collision (12 R433). -/
def execColdStartFrameEnd (t : Nat) (s : State) : Host.Outcome State Fault Refusal :=
  let s := s.advance t
  if s.octRole = 1 ∧ s.get OCT_STAT_CSSTEP = 3 ∧ s.oct.frameAt + 4480 ≤ s.mono then
    let fin := s.oct.frameAt + 4480
    .next ((s.withOct fun b => { b with first := true, masterFrom := fin + 10000 }).becomeMaster 1)
  else .next s

/-- Carrier on an enabled channel (12 R433). -/
def execCarrier (t : Nat) (ch : Fin 2) (s : State) : Host.Outcome State Fault Refusal :=
  let s := s.advance t
  if s.octRole ≠ 0 ∧ s.octEnabled ch.val then .next s.carrier else .next s

/-- A sending candidate sees a collision (12 R434). -/
def execOctCollision (t : Nat) (ch : Fin 2) (s : State) : Host.Outcome State Fault Refusal :=
  let s := s.advance t
  if s.octRole = 1 ∧ s.get OCT_STAT_CSSTEP = 3 ∧ s.octEnabled ch.val ∧ s.mono ≤ s.oct.frameAt + 4480 then
    .next (((s.inc (OCT_CHnCNT_COLL ch.val)).emit 0x9003 [ch.val, s.octAddr, 3]).set OCT_STAT_CSSTEP 4)
  else .next s

/-! ### Mailbox -/

def State.octMailbox (s : State) (cseq : Nat) (act : State → State × Nat) : State :=
  s.mailbox OCT_SEQ_LASTCMD OCT_RES_RESULT cseq act

/-- An address of the bus (12 R411). -/
def octAddressOk (a : Nat) : Bool := decide (1 ≤ a) && decide (a ≤ 126)

/-- HANDOVER (12 R437). -/
def handOver (a : Nat) (s : State) : State × Nat :=
  if !octAddressOk a then (s, 6)
  else if s.octRole = 3 ∧ s.bit (OCT_NSTAT_ADM.at a) then
    ((s.withOct fun b => { b with target := some a, lastMacro := none }).setBit OCT_STAT_HOPEND true, 0)
  else (s, 5)

def execHandover (cseq : Nat) (addr : BitVec 7) (s : State) : Host.Outcome State Fault Refusal :=
  .next (s.octMailbox cseq (handOver addr.toNat))

/-- REVOKE (12 R432, R440). -/
def revokeGrants (a : Nat) (s : State) : State × Nat :=
  if !octAddressOk a then (s, 6) else if (s.grantsOf a).isEmpty then (s, 5) else (s.revokeAll a, 0)

def execRevoke (cseq : Nat) (addr : BitVec 7) (s : State) : Host.Outcome State Fault Refusal :=
  .next (s.octMailbox cseq (revokeGrants addr.toNat))

/-- CLRCNT (12 R440). -/
def octClear (s : State) : State × Nat := ((s.wr (OCT_CHnCNT 0) 0).wr (OCT_CHnCNT 1) 0, 0)

def execOctClrcnt (cseq : Nat) (s : State) : Host.Outcome State Fault Refusal := .next (s.octMailbox cseq octClear)

/-- A read of OCT_TST_LO (12 R440). -/
def State.readStart (s : State) : State × Word :=
  (s.wr OCT_TST_HI (BitVec.ofNat 32 (s.oct.startAt / 2 ^ 32)), BitVec.ofNat 32 s.oct.startAt)

def execOctStartTimeRead (s : State) : Host.Outcome State Fault Refusal := .next (State.answerRead s.readStart)

end Sys2Proof.Machine
end

