-- ==== Sys2Proof/Machine/Pair.lean ====
section
/-!
DEFINITION. The commands of PAIR (14): heartbeats and the live line, what comes over the cross-link, joins, the mailbox; and
the external drive of outputs 5 to 16 (10 R354, R355), which depends on the partner.
-/

namespace Sys2Proof.Machine

open Reg

/-! ### Heartbeats -/

/-- Change a path's state: 0 cross-link, 1 network A, 2 network B. -/
def PairBlock.onPath (b : PairBlock) (p : Nat) (f : PairPath → PairPath) : PairBlock :=
  match p with
  | 0 => { b with xl := f b.xl }
  | 1 => { b with na := f b.na }
  | _ => { b with nb := f b.nb }

def PairBlock.path (b : PairBlock) : Nat → PairPath
  | 0 => b.xl
  | 1 => b.na
  | _ => b.nb

/-- What an accepted heartbeat tells (14 R464). -/
def partnerOf (data : List Byte) (at_ : Nat) : PartnerState :=
  let st := word32At data 0
  { slot := st / 2 ^ 8 % 32, role := st / 2 ^ 13 % 4, mode := st / 2 ^ 16 % 16, ready := bitOf st 20, tick := word32At data 16
    psn := word32At data 20, program := word32At data 24, requests := word32At data 28 % 2 ^ 16, at_
    mono := word32At data 8 + word32At data 12 * 2 ^ 32 }

/-- What a joining unit measures on a cross-link heartbeat (14 R466, R480 phase 3): the first one fixes DTICK and the offset, each
later one tells whether the offset has held. -/
def State.joinHeartbeat (s : State) (data : List Byte) (delay : Nat) (j : PairJoin) : State :=
  let tick := word32At data 16
  if !j.configuration then s
  else
    let held := decide ((s.lagOf tick delay - s.get PAIR_OFFS_NS).natAbs ≤ 2000)
    match j.heldFrom with
    | none =>
      (s.fixTime tick (word32At data 8 + word32At data 12 * 2 ^ 32) delay).withPair fun b =>
        { b with join := some { j with heldFrom := some s.mono } }
    | some _ =>
      (s.setBit PAIR_OFFS_HELD held).when (!held) fun s => s.withPair fun b => { b with join := some { j with heldFrom := some s.mono } }

/-- The standby's checks on a cross-link heartbeat (14 R466, R478): the measured lag of its edges, the partner's CRC. -/
def State.standbyHeartbeat (s : State) (data : List Byte) (delay : Nat) : State :=
  let tick := word32At data 16
  let s := s.when s.pair.refix fun s => s.refixTime tick (word32At data 8 + word32At data 12 * 2 ^ 32) delay
  let lag := s.lagOf tick delay
  let out := decide (lag < 40000) || decide (165000 < lag)
  let s := s.setBit PAIR_OFFS_HELD (decide ((lag - s.get PAIR_OFFS_NS).natAbs ≤ 2000))
  let s := (s.withPair fun b => { b with offsetOut := out }).when out fun s => s.dropReady 3
  if s.pairMode = 2 then
    (s.withPair fun b => { b with toCompare := some (s.ownEdge (tick + 2 ^ 32 - 1), word32At data 32) }).compareCrcs
  else s

/-- A heartbeat of the partner (14 R465), `delay` ns after the edge of the partner at which it left. -/
def execHeartbeatReceive (t : Nat) (path : Fin 3) (data : List Byte) (delay : Nat) (s : State) :
    Host.Outcome State Fault Refusal :=
  let s := s.advance t
  let good := data.length == 48 && word32At data 44 == crcBytes (data.take 44)
  let serial := word32At data 4
  let tick := word32At data 16
  let after : Option Nat → Bool := fun o => match o with
    | some k => after32 tick k
    | none => true
  if s.pairMode = 0 ∨ !good then .next s
  else if serial ≠ s.get PAIR_PSER_SERIAL then .next (s.emit 0xB00E [path.val, serial])
  else if !after (s.pair.path path.val).last then .next s
  else
    let s := s.withPair fun b => b.onPath path.val fun p => { p with last := some tick, got := true }
    let s := if after (s.pair.partner.map (·.tick)) then
        let x := partnerOf data s.mono
        ((s.withPair fun b => { b with partner := some x }).set PAIR_STAT_PSLOT x.slot).set PAIR_PPSN_PSN x.psn
      else s
    if path.val ≠ 0 then .next s
    else
      let s := match s.pair.join with
        | some j => s.joinHeartbeat data delay j
        | none => s
      let s := s.when (decide (2 ≤ s.role)) fun s => s.withPair fun b => { b with psns := ((s.ownEdge tick, word32At data 20) :: b.psns).take 4 }
      .next (s.when (s.role == 2) fun s => s.standbyHeartbeat data delay)

/-- The partner's live line is silent, or toggles again (14 R463). -/
def execLiveLineLoss (t : Nat) (s : State) : Host.Outcome State Fault Refusal :=
  .next ((s.advance t).setBit PAIR_STAT_LIVE false)

def execLiveLineReturn (t : Nat) (s : State) : Host.Outcome State Fault Refusal :=
  .next ((s.advance t).setBit PAIR_STAT_LIVE true)

/-! ### The cross-link -/

/-- The active's forces replace the standby's (14 R472); their places come from the own variable table. -/
def State.takeForces (s : State) (l : List ForceImage) : State :=
  let fs := l.filterMap fun f => (s.variable f.vid).map fun v => (⟨f.vid, f.type, v.entry, v.bit, f.value⟩ : Force)
  (s.withCyc fun c => { c with forces := fs }).showForces

/-- A message of the active (14 R472, R473, R480, R482, R483). During the bulk copy a block goes to memory, afterwards to the
staging buffer. -/
def execPairBlockReceive (t : Nat) (m : PairMessage) (s : State) : Host.Outcome State Fault Refusal :=
  let s := s.advance t
  if !s.crossLink then .next s
  else match m with
  | .block key words =>
    if s.pairMode = 2 ∧ s.role = 2 then .next s
    else if s.role = 3 ∧ !((s.pair.join.map (·.copied)).getD false) then .next (s.writeBlock (key, words))
    else if 2 ≤ s.role then .next (s.withPair fun b => { b with staging := b.staging ++ [(key, words)] })
    else .next s
  | .forces l => .next (s.when (decide (2 ≤ s.role)) fun s => s.takeForces l)
  | .switch tick => .next (s.when (s.role == 2) fun s => s.withPair fun b => { b with switchAt := some (s.ownEdge tick) })
  | .prepared identity => .next (s.withPair fun b => { b with prepared := some identity })
  | .change tick revert => .next (s.when (s.role == 2) fun s => s.withPair fun b => { b with changeAt := some (s.ownEdge tick, revert) })
  | .starting => .next (s.withPair fun b => { b with partnerStarts := true })
  | .bulk forces timers shift =>
    .next (s.when (s.role == 3) fun s =>
      timers.foldl State.setTimerImage ((s.withPair fun b => { b with partnerShift := shift }).takeForces forces))
  | .held tick => .next (s.withPair fun b => { b with partnerHeld := some (s.ownEdge tick) })

/-- A task joins in gapless mode: it starts at its pair entry point at its next period start (14 R480). -/
def State.joinTask (s : State) (n : Nat) : State :=
  if s.pairMode = 2 then
    let s := s.withPair fun b => { b with shift := b.dtick + b.partnerShift }
    let entry := ((s.sys.program.pairEntries.find? fun e => e.1 == n).map (·.2)).getD 0#32
    let s := ((s.wr (CYC_TnENTRY n) (entry &&& 0xFFFFFFFC#32)).setBit (CYC_TnSTAT_NEW n) true).setBit (CYC_TnSTAT_WAIT n) true
    (((s.set (CYC_TnWV_STARTS n) 0).setBit (CYC_TnWV_OVR n) false).setTask n {}).setBit CYC_STAT_RUN true
  else s

/-- A commit record (14 R473): complete and with a correct CRC, it puts the staged blocks of its task into effect. In phase 5 of
a join the task joins (R480). A gapless standby computes its own state and takes none. -/
def execCommitRecordReceive (t : Nat) (r : CommitRecord) (good : Bool) (s : State) : Host.Outcome State Fault Refusal :=
  let s := s.advance t
  if s.role < 2 ∨ !s.crossLink ∨ !good ∨ (s.pairMode = 2 ∧ s.role = 2) then .next s
  else
    let own := fun (b : Nat × List Word) => s.goesWith r.task b.1
    let mine := s.pair.staging.filter own
    let s := mine.foldl State.writeBlock (s.withPair fun b => { b with staging := b.staging.filter fun x => !own x })
    let s := r.timers.foldl State.setTimerImage s
    let since := s.ownEdge ((s.pair.partner.map (·.tick)).getD 0)
    let s := s.noteCommit r.task ⟨since, s.ownEdge r.release, r.sseqs, s.pair.dtick + s.pair.partnerShift⟩
    match s.pair.join with
    | some j =>
      if j.copied ∧ !j.joined.contains r.task then
        .next ((s.withPair fun b => { b with join := some { j with joined := j.joined ++ [r.task] } }).joinTask r.task)
      else .next s
    | none => .next s

/-- The active's input snapshot for an edge of its own (14 R477): image entries and their words. It stays until the own edge that
corresponds; the last four are enough, since the own edge lags by less than two ticks. -/
def execSnapshotReceive (t tick : Nat) (entries : List (Nat × List Word)) (s : State) : Host.Outcome State Fault Refusal :=
  let s := s.advance t
  .next (s.when (s.pairMode == 2 && decide (2 ≤ s.role) && s.crossLink) fun s =>
    s.withPair fun b => { b with snapshots := ((s.ownEdge tick, entries) :: b.snapshots).take 4 })

/-- The partner's kind 7 block (14 R484), with the arrival time of its heartbeat. -/
def execPartnerBlockReceive (t : Nat) (words : List Word) (s : State) : Host.Outcome State Fault Refusal :=
  let s := s.advance t
  let arrival := ((s.pair.partner).map (·.at_)).getD s.mono
  .next (s.when (s.pairMode != 0 && s.crossLink) fun s => s.deliver 7 0 words s.mono arrival false)

/-! ### Joins -/

/-- JOIN (14 R480, R482); refused while the complex is halted (02 R73). -/
def pairJoin (s : State) : State × Nat :=
  if s.role = 3 then (s, 8)
  else if s.mode ≠ .stop then (s, 1)
  else if !s.mayJoin ∨ s.bit CORE_STAT_HALTED then (s, 5)
  else (s.startJoin, if s.changeOpen then 5 else 0)

/-- A command at PAIR_CMD. -/
def State.pairMailbox (s : State) (cseq : Nat) (act : State → State × Nat) : State :=
  s.mailbox PAIR_SEQ_LASTCMD PAIR_RES_RESULT cseq act

def execJoin (t cseq : Nat) (s : State) : Host.Outcome State Fault Refusal := .next ((s.advance t).pairMailbox cseq pairJoin)

/-- Every task has joined: STANDBY, READY (14 R480); a gapless standby takes the active's numbers (R478). -/
def State.joinEnds (s : State) : State :=
  let s := ((s.set PAIR_STAT_ROLE 2).setBit PAIR_STAT_READY true).withPair fun b => { b with join := none }
  let s := if s.pairMode = 2 then (s.takeOverFlows (s.tick + 1)).withPair fun b => { b with align := true } else s
  (s.toMode .standby 10).emit 0xB008 [s.get PAIR_DTICK_DTICK, s.get PAIR_OFFS_NS]

/-- The own program is the partner's (14 R480). -/
def State.sameProgram (s : State) : Bool := ((s.pair.partner).map (·.program)) == some s.sys.program.identity

/-- A phase of the join completes (14 R480), once each, in the table's order; phases 3 and 4 run side by side. One that completes past
its limit fails the join. Phase 3 ends when the offset has held for 10 s. -/
def execJoinPhaseComplete (t : Nat) (p : JoinPhase) (s : State) : Host.Outcome State Fault Refusal :=
  let s := s.advance t
  match s.pair.join with
  | none => .next s
  | some j =>
    let put := fun (s : State) (j : PairJoin) => s.withPair fun b => { b with join := some j }
    let late := fun (limit : Nat) => decide (j.since + limit < s.mono)
    match p with
    | .identity =>
      if j.identity ∨ !s.crossLink then .next s
      else .next (if late 20000000 then s.joinFail 1 else put s { j with identity := true, since := s.mono })
    | .configuration partner mode =>
      if !j.identity ∨ j.configuration then .next s
      else if late 1000000 ∨ partner ≠ s.sys.identity ∨ mode ≠ s.pairMode then .next (s.joinFail 2)
      else if !s.sameProgram then .next (s.joinFail 3)
      else if s.slot = s.partnerSlot then .next (s.joinFail 4)
      else .next (put s { j with configuration := true, since := s.mono })
    | .time =>
      match j.heldFrom with
      | some from_ =>
        if j.timed ∨ s.mono < from_ + 10000000000 then .next s
        else if late 120000000000 then .next (s.joinFail 5)
        else .next (put s { j with timed := true })
      | none => .next s
    | .copy => .next (if j.configuration then put s { j with copied := true } else s)
    | .tasks => .next (if j.timed && s.allJoined then s.joinEnds else s)

/-- A phase fails or overruns its limit (14 R480): reasons 1 to 6. -/
def execJoinFail (t : Nat) (reason : Fin 7) (s : State) : Host.Outcome State Fault Refusal :=
  let s := s.advance t
  .next (if s.pair.join.isSome then s.joinFail reason.val else s)

/-! ### SWITCH and LEAVE -/

/-- SWITCH (14 R483): taken on the active at its next tick edge. -/
def pairSwitch (s : State) : State × Nat :=
  let ready := s.anyPath && ((s.pair.partner).map (·.ready)).getD false
  if s.role = 1 ∧ ready ∧ s.get PAIR_STAT_COND = 0 ∧ s.ocState ≠ ocArmed ∧ s.ocState ≠ ocRevertArmed then
    ((s.withPair fun b => { b with switching := true }).tellPartner (.switch ((s.tick + 1) % 2 ^ 32)), 0)
  else (s, 5)

def execSwitch (cseq : Nat) (s : State) : Host.Outcome State Fault Refusal := .next (s.pairMailbox cseq pairSwitch)

/-- LEAVE (14 R483): a standby goes to STOP. -/
def pairLeave (s : State) : State × Nat :=
  match s.role with
  | 2 =>
    let s := (s.setBit PAIR_STAT_READY false).dropOutputs
    ((((s.set PAIR_STAT_ROLE 0).withPair fun b => { b with staging := [], commits := [], rejoin := false }).stopDispatch).toMode .stop 10, 0)
  | 3 => (s, 8)
  | _ => (s, 5)

def execLeavePair (t cseq : Nat) (s : State) : Host.Outcome State Fault Refusal :=
  .next ((s.advance t).pairMailbox cseq pairLeave)

/-! ### Diode-OR outputs -/

/-- Latch EXTD of an output (10 R354). -/
def State.externalDrive (s : State) (n detail : Nat) : State :=
  ((s.setBit (FIO_OnSTAT_EXTD n) true).emit 0x7006 [n, detail]).driveOutput n

/-- An output 5 to 16 commanded off has read on for 2 ms, or off (10 R354, R355). With DIODEOR the partner's released request decides. -/
def execOutputExternalDrive (t : Nat) (out : ReadbackHeld) (s : State) : Host.Outcome State Fault Refusal :=
  let s := s.advance t
  let n := out.out.val + 1
  if n < 5 ∨ s.requested n then .next s
  else
    let s := s.setReadback n out.on
    if !out.on ∨ s.get (supplyField (groupOf n)) = 2 then .next s
    else if !s.bit (FIO_OnCFG_DIODEOR n) then .next (s.externalDrive n 0)
    else
      match s.pair.partner with
      | some x => .next (if s.anyPath && !bitOf x.requests (n - 1) then s.externalDrive n 1 else s)
      | none => .next s

end Sys2Proof.Machine
end

