-- ==== Sys2Proof/Machine/PeVerify.lean ====
section
/-!
DEFINITION. PE's verifier (06 R227 to R229).
-/

namespace Sys2Proof.Machine

open Reg

/-- A program range as the verifier reads it: bundles FIRST to LAST, none where a bundle is not a defined encoding. -/
structure PeProgram where
  first : Nat
  last : Nat
  meas : Nat
  logic : Nat
  bundles : List (Option (PeVectorSlot × PeSlot))
deriving DecidableEq, Repr

/-- Bundle `b` of the range. -/
def PeProgram.at_ (p : PeProgram) (b : Nat) : Option (PeVectorSlot × PeSlot) :=
  if b < p.first ∨ p.last < b then none else ((p.bundles[b - p.first]?).getD none)

def PeProgram.slot (p : PeProgram) (b : Nat) : Option PeSlot := (p.at_ b).map (·.2)

/-- The data words of a bundle in program memory, low word first. -/
def State.bundleWords (s : State) (b : Nat) : Word × Word := (s.peData (bundleAt b), s.peData (bundleAt b + 4))

/-- Bundle `b` as program memory holds it; none: undefined or uncorrectable. -/
def State.peBundleAt (s : State) (b : Nat) : Option (PeVectorSlot × PeSlot) :=
  match peDecode (s.peMem (bundleAt b)), peDecode (s.peMem (bundleAt b + 4)) with
  | some (lo, _), some (hi, _) => decodeBundle hi lo
  | _, _ => none

/-- The bundles of a range. -/
def rangeOf (first last : Nat) : List Nat := (List.range (last + 1 - first)).map (first + ·)

def State.peProgram (s : State) (c : Nat) : PeProgram :=
  let first := s.get (PE_CXnRANGE_FIRST c)
  let last := s.get (PE_CXnRANGE_LAST c)
  { first, last, meas := s.get (PE_CXnPROG_MEAS c), logic := s.get (PE_CXnPROG_LOGIC c)
    bundles := (rangeOf first last).map s.peBundleAt }

/-- The first END at or after `b` within the range. -/
def PeProgram.endFrom (p : PeProgram) (b : Nat) : Option Nat :=
  if b < p.first then none else (rangeOf b p.last).find? fun i => p.slot i == some .end_

/-- The loops of the program: the LOOP's bundle, and the last bundle of its body. -/
def PeProgram.loops (p : PeProgram) : List (Nat × Nat) :=
  (rangeOf p.first p.last).filterMap fun b =>
    match p.slot b with
    | some (.loop _ m) => some (b, b + m.toNat)
    | _ => none

/-- The loops whose body contains `b`. -/
def PeProgram.around (p : PeProgram) (b : Nat) : List (Nat × Nat) :=
  p.loops.filter fun l => decide (l.1 < b) && decide (b ≤ l.2)

/-- The end of the innermost loop body that contains `b`. -/
def PeProgram.innermost (p : PeProgram) (b : Nat) : Option Nat :=
  (p.around b).foldl (fun (m : Option (Nat × Nat)) l => match m with
    | none => some l
    | some x => if x.1 ≤ l.1 then some l else some x) none |>.map (·.2)

/-- Rule 1: a defined encoding; TRP and TRG not within the MEAS entry (06 R227; 07 R245, R256). -/
def PeProgram.rule1 (p : PeProgram) (b : Nat) : Bool :=
  match p.at_ b with
  | none => false
  | some (_, o) =>
    let inMeas := decide (p.meas ≤ b) && (match p.endFrom p.meas with
      | some e => decide (b ≤ e)
      | none => true)
    match o with
    | .trp _ _ => !inMeas
    | .trg _ _ => !inMeas
    | _ => true

/-- Rule 3: transfers other than LOOP. -/
def PeProgram.rule3 (p : PeProgram) (b : Nat) : Bool :=
  let ok (off : Nat) : Bool :=
    let target := b + off
    (match p.endFrom b with
      | some e => decide (target ≤ e)
      | none => false)
    && (match p.innermost b with
      | some last => decide (target ≤ last)
      | none => true)
  match p.slot b with
  | some (.brf _ _ off) => ok off.toNat
  | some (.bra off) => ok off.toNat
  | _ => true

/-- Rule 4: loops. -/
def PeProgram.rule4 (p : PeProgram) (b : Nat) : Bool :=
  match p.slot b with
  | some (.loop _ m) =>
    let last := b + m.toNat
    decide (1 ≤ m.toNat) && decide (last ≤ p.last) && decide ((p.around b).length < 4)
      && (rangeOf (b + 1) last).all fun i => p.slot i != some .end_
  | _ => true

/-- Rule 5 for one memory operand: `words` for the S-slot, 16-byte units for the V-slot. -/
def State.rule5Mem (s : State) (c : Nat) (m : PeMem) (vector store : Bool) (words : Nat) : Bool :=
  let off := m.off.toNat
  let w := if vector then 4 * off else off
  let n := if vector then 4 else words
  match m.space.val with
  | 0 => decide (w + n ≤ s.dataWords c) && !(store && decide (w < 4))
  | 1 => bitOf (s.get (PE_CXnCHM_CHMASK c)) (off / 2048)
  | 2 => decide (w + n ≤ 64) && !(store && w == 0)
  | _ => true

/-- Rule 5 for a bundle. -/
def State.rule5 (s : State) (c : Nat) (p : PeProgram) (b : Nat) : Bool :=
  match p.at_ b with
  | none => true
  | some (v, o) =>
    (match vectorMem v with
      | some (m, st) => s.rule5Mem c m true st 4
      | none => true)
    && (match slotMem o with
      | some (m, st, n) => s.rule5Mem c m false st n
      | none => true)

/-- Worst case of 06 R228 from `b` to `stop`. -/
def PeProgram.wcet (p : PeProgram) : Nat → Nat → Nat → Nat
  | 0, _, _ => 0
  | fuel + 1, b, stop =>
    if stop < b then 0
    else match p.slot b with
      | some (.loop k m) =>
        1 + (k.toNat + 1) * p.wcet fuel (b + 1) (b + m.toNat) + p.wcet fuel (b + 1 + m.toNat) stop
      | some .end_ => 1
      | _ => 1 + p.wcet fuel (b + 1) stop

/-- What VERIFY finds: result, rule, bundle, VWCET (06 R227, R228). The bundles of the library items linked into the context are part of
its worst case (07 R257). -/
def State.verifyResult (s : State) (c : Nat) : Nat × Nat × Nat × Nat :=
  let p := s.peProgram c
  let all := rangeOf p.first p.last
  let broken (rule : Nat) (ok : Nat → Bool) : Option (Nat × Nat × Nat × Nat) :=
    (all.find? fun b => !ok b).map fun b => (3, rule, b, 0)
  let rule2 : Option (Nat × Nat × Nat × Nat) :=
    if (p.endFrom p.meas).isNone then some (3, 2, p.meas, 0)
    else if (p.endFrom p.logic).isNone then some (3, 2, p.logic, 0) else none
  let found := (broken 1 p.rule1).orElse fun _ => rule2.orElse fun _ => (broken 3 p.rule3).orElse fun _ =>
    (broken 4 p.rule4).orElse fun _ => broken 5 (s.rule5 c p)
  match found with
  | some r => r
  | none =>
    let fuel := p.last + 2 - p.first
    let w := p.wcet fuel p.meas p.last + p.wcet fuel p.logic p.last + s.schemeBundles c
    let pcrc := s.get (PE_CXnPCRC_CRC c)
    if s.get (PE_CXnBUD_BUD c) < w then (4, 0, 0, w)
    else if pcrc ≠ 0 ∧ crcWords (all.flatMap fun b => [(s.bundleWords b).1, (s.bundleWords b).2]) ≠ pcrc then (6, 0, 0, w)
    else (0, 0, 0, w)

end Sys2Proof.Machine
end

