-- ==== Sys2Proof/Machine/Pe.lean ====
section
/-!
DEFINITION. The commands and events of PE (06) and its instructions (07). PE_SLOT_START evaluates the contexts from
program memory for a number of steps; the rows of PE's instructions execute one operation of the bundle in progress,
whatever stands in program memory (log entry 19).
-/

namespace Sys2Proof.Machine

open Reg

/-! ### Loader and parameter mailboxes (06 R220, R222, R228, R229) -/

/-- The modes in which ENABLE and DISABLE are accepted. -/
def loaderMode (m : Mode) : Bool := m == .load || m == .configure || m == .stop || m == .service

/-- A loader command; VERIFY and ENABLE report a refusal (06 R239). -/
def State.loader (s : State) (cseq : Nat) (act : State → State × Nat) : State :=
  s.mailbox PE_LSEQ_LASTCMD PE_LRES_RESULT cseq act

def refuseLoader (c r : Nat) (s : State) : State × Nat :=
  ((s.emit 0x5007 [c, r, 0]).when (s.mode == .load && r != 10) fun s => s.sysDemand 5 0, r)

/-- VERIFY of a context: accepted in every mode, busy until it completes. -/
def peVerify (c : Nat) (s : State) : State × Nat :=
  if s.pe.verify.isSome then refuseLoader c 10 s
  else ((s.withPe fun p => { p with verify := some (c, s.mono) }).markLate PE_LSEQ_LASTCMD, 10)

def execVerify (t cseq : Nat) (cx : Fin 64) (s : State) : Host.Outcome State Fault Refusal :=
  .next ((s.advance t).loader cseq (peVerify cx.val))

/-- The bytes of a context's program range in words. -/
def State.programWords (s : State) (c : Nat) : List Nat :=
  (rangeOf (s.get (PE_CXnRANGE_FIRST c)) (s.get (PE_CXnRANGE_LAST c))).flatMap fun b => [bundleAt b, bundleAt b + 4]

/-- The result of VERIFY of context `c` (06 R227, R228), which corrects what it reads (R218); a refusal in LOAD demands SAFE (15
R500). -/
def State.verifyDone (s : State) (c : Nat) : State :=
  let s := s.peMend (s.programWords c)
  let (r, rule, bundle, w) := s.verifyResult c
  let s := s.withPe fun p => { p with verify := none }
  let s := (s.answerLate PE_LSEQ_LASTCMD PE_LRES_RESULT r).set PE_LRES_RULE rule |>.set PE_LRES_BUNDLE bundle
  if r = 0 then (s.set (PE_CXnSTAT_VWCET c) w).setBit (PE_CXnSTAT_VOK c) true
  else (s.emit 0x5007 [c, r, bundle]).when (s.mode == .load) fun s => s.sysDemand 5 0

/-- VERIFY completes: one PX cycle per bundle of the range plus 64 (06 R228). -/
def execVerifyComplete (t : Nat) (s : State) : Host.Outcome State Fault Refusal :=
  let s := s.advance t
  match s.pe.verify with
  | none => .next s
  | some (c, at_) =>
    let bundles := s.get (PE_CXnRANGE_LAST c) + 1 - s.get (PE_CXnRANGE_FIRST c)
    if s.mono < at_ + (bundles + 64) * 5 / 2 then .next s
    else .next (s.verifyDone c)

/-- A context is enabled or its ENABLE waits for the next slot. -/
def State.willBeEnabled (s : State) (c : Nat) : Bool := ((s.cxs c).request).getD (s.cxEnabled c)

/-- ENABLE (06 R220, R229). -/
def peEnable (c : Nat) (s : State) : State × Nat :=
  if s.pe.verify.isSome then refuseLoader c 10 s
  else if !loaderMode s.mode then refuseLoader c 1 s
  else if s.willBeEnabled c then (s, 0)
  else if !s.bit (PE_CXnSTAT_VOK c) then refuseLoader c 8 s
  else
    let others := (List.range 64).filter fun k => k != c && s.willBeEnabled k
    let sum := others.foldl (fun v k => v + s.get (PE_CXnSTAT_VWCET k)) (s.get (PE_CXnSTAT_VWCET c))
    if 12000 < sum then refuseLoader c 5 s
    else (s.setCxs c { s.cxs c with request := some true }, 0)

def execEnable (t cseq : Nat) (cx : Fin 64) (s : State) : Host.Outcome State Fault Refusal :=
  .next ((s.advance t).loader cseq (peEnable cx.val))

/-- DISABLE (06 R220). -/
def peDisable (c : Nat) (s : State) : State × Nat :=
  if s.pe.verify.isSome then (s, 10)
  else if !loaderMode s.mode then (s, 1)
  else if !s.willBeEnabled c then (s, 0)
  else if 3 ≤ s.lifeCycle ∧ s.isSafety (s.get (PE_CXnCTL_PART c)) ∧ s.cxState c ≠ cxStopped then (s, 2)
  else (s.setCxs c { s.cxs c with request := some false }, 0)

def execDisable (t cseq : Nat) (cx : Fin 64) (s : State) : Host.Outcome State Fault Refusal :=
  .next ((s.advance t).loader cseq (peDisable cx.val))

/-- The parameter mailbox (06 R222). -/
def peParameter (c : Nat) (go : Bool) (s : State) : State × Nat :=
  let word := s.get PE_PADDR_OFFS
  let count := s.get PE_PADDR_COUNT + 1
  if !go then (s, 6)
  else if s.isSafety (s.get (PE_CXnCTL_PART c)) ∧ s.mode ≠ .stop ∧ s.mode ≠ .service then (s, 1)
  else if word < 4 ∨ s.dataWords c < word + count then (s, 2)
  else
    let values := (List.range count).map fun i => s.rd (PE_PDATAi i)
    (s.withPe fun p => { p with params := p.params ++ [⟨c, word, values⟩] }, 0)

def execParameterCommand (t cseq : Nat) (cx : Fin 64) (go : Bool) (s : State) : Host.Outcome State Fault Refusal :=
  .next ((s.advance t).mailbox PE_PSEQ_LASTCMD PE_PRES_RESULT cseq (peParameter cx.val go))

/-! ### The slot (06 R223 to R226) -/

/-- PE_STAT.RUN and PE_SUM. -/
def State.showEnabled (s : State) : State :=
  let on := (List.range 64).filter s.cxEnabled
  (s.setBit PE_STAT_RUN (!on.isEmpty)).set PE_SUM_SUM (on.foldl (fun v k => v + s.get (PE_CXnSTAT_VWCET k)) 0)

/-- An ENABLE or DISABLE takes effect at the start of a slot (06 R220). -/
def State.applyRequest (s : State) (c : Nat) : State :=
  match (s.cxs c).request with
  | none => s
  | some true =>
    let s := (s.scheme c).foldl (fun (s : State) x => s.initItem c x) ((s.setCxs c {}).showFlags)
    let s := ((s.setBit (PE_CXnCTL_EN c) true).setCxState c cxInit).showEnabled
    (s.set (PE_CXnSTAT_RUN c) 0).emit 0x5008 [c, s.get (PE_CXnSTAT_VWCET c), s.get PE_SUM_SUM]
  | some false =>
    let s := (s.setCxs c {}).showFlags
    (((s.setBit (PE_CXnCTL_EN c) false).setCxState c cxOff).set (PE_CXnSTAT_RUN c) 0).showEnabled.emit 0x5009 [c]

/-- The parameter commands that one slot applies: as many, in their order, as fit into the 16 cycles of 06 R224; the rest. -/
def fitParams : Nat → List ParamWrite → List ParamWrite × List ParamWrite
  | _, [] => ([], [])
  | room, p :: r =>
    if room < p.values.length then ([], p :: r)
    else match fitParams (room - p.values.length) r with
      | (a, b) => (p :: a, b)

/-- A parameter command is applied whole between two slots (06 R222). -/
def State.applyParam (s : State) (p : ParamWrite) : State :=
  let s := (s.peStores (s.dataWordAt p.cx p.word) p.values).withPe fun b => { b with cycles := b.cycles + p.values.length }
  s.emit 0x5018 [p.cx, p.word, p.values.length]

/-- Write the frame record of a frame whose interpolation is over (09 R329). -/
def State.recordFrames (s : State) (n : Nat) : State :=
  let due := s.recb.slots.filter fun f => decide (f.1 + 3 ≤ n)
  let s := s.withRec fun b => { b with slots := b.slots.filter fun f => !decide (f.1 + 3 ≤ n) }
  due.foldl (fun (s : State) f =>
    let s := s.peMend (((List.range 24).filter s.channelOn).map fun ch => historyAt ch f.1)
    let values := (List.range 24).map fun ch => if s.channelOn ch then s.peData (historyAt ch f.1) else 0#32
    s.writeFrame { number := f.1, missing := f.2.1, ovr := f.2.2.1, values, binary := f.2.2.2 }) s

/-- The enabled contexts whose program range or data area holds a byte offset (06 R218). -/
def State.contextsAt (s : State) (off : Nat) : List Nat :=
  (List.range 64).filter fun c =>
    s.cxEnabled c && ((decide (8 * s.get (PE_CXnRANGE_FIRST c) ≤ off) && decide (off < 8 * s.get (PE_CXnRANGE_LAST c) + 8))
      || (decide (s.dataWordAt c 0 ≤ off) && decide (off < s.dataWordAt c (s.dataWords c))))

/-- The scrub of the PE memories at the end of a slot (06 R218). -/
def State.peScrub (s : State) : State :=
  (s.pe.mem.map (·.1)).foldl (fun (s : State) off =>
    match peDecode (s.peMem off) with
    | some (_, none) => s
    | some (d, some syn) => s.peCorrect off d syn
    | none => ((s.contextsAt off).filter fun c => s.cxState c != cxStopped).foldl (fun s c => s.stopContext c off) s) s

/-- The frame of the slot under way, or of the last one. -/
def State.slotNumber (s : State) : Nat := s.pe.slotFrame.getD 0

/-- The slot ends: its use, the strobe to Girth, the binary channels, the scrub (06 R223, R226; 08 R298; 09 R329). -/
def State.endSlot (s : State) : State :=
  let n := s.slotNumber
  let used := min s.pe.cycles 0x3FFF
  let s := (s.set PE_SLOT_LAST used).set PE_SLOT_MAX (max used (s.get PE_SLOT_MAX))
  let s := s.slotStrobe.slotBinary n s.pe.triggers s.pe.slotMissing s.pe.slotOvr
  (s.withPe fun p => { p with slot := false, triggers := 0 }).peScrub

/-- Begin the next contexts until one runs, or end the slot. -/
def peSettle : Nat → State → State
  | 0, s => s
  | k + 1, s =>
    if !s.pe.slot ∨ s.pe.run.isSome then s
    else match s.pe.rest with
      | [] => s.endSlot
      | c :: t => peSettle k ((s.withPe fun p => { p with rest := t }).beginContext c s.slotNumber)

/-- The slot has reached 33.25 µs after its frame start (06 R226). -/
def State.slotOver (s : State) : Bool := decide (s.slotNumber * 31250 + 33250 ≤ s.peNow)

/-- Execute the bundle at the evaluation's pc from program memory (06 R216, R225). -/
def State.peStep (s : State) (r : PeRun) : State :=
  if s.exhausted r then s.cutContext r
  else
    let off := bundleAt r.pc
    match s.peRead off with
    | (s, none) => (s.stopContext r.cx off).finishStopped r
    | (s, some lo) =>
      match s.peRead (off + 4) with
      | (s, none) => (s.stopContext r.cx (off + 4)).finishStopped r
      | (s, some hi) =>
        match decodeBundle hi lo with
        | some (v, o) => s.peBundle r v o
        | none => s.cutContext r

/-- Run the slot for a number of steps, a bundle each. -/
def runSlot : Nat → State → State
  | 0, s => s
  | k + 1, s =>
    let s := peSettle 65 s
    match s.pe.run with
    | none => s
    | some r => if s.slotOver then s else runSlot k (s.peStep r)

/-- Upsets: stored PE memory words that change under an environment's influence, as flip masks (06 R218). -/
def State.peUpsets (s : State) (l : List (Nat × PWord)) : State :=
  l.foldl (fun (s : State) u =>
    if u.1 % 4 = 0 ∧ u.1 < 0xE0000 then
      s.withPe fun p => { p with mem := CMap.put (fun _ => 0#39) p.mem u.1 (s.peMem u.1 ^^^ u.2) }
    else s) s

/-- The slot of the frame begins, its intake being complete (06 R223), and up to `bundles` bundles of it are executed. -/
def execPeSlotStart (t bundles : Nat) (upsets : List (Nat × PWord)) (s : State) : Host.Outcome State Fault Refusal :=
  let s := (s.advance t).peUpsets upsets
  let n := s.pe.frame
  let excess := s.pe.closed || s.intakeComplete || decide (n * 31250 + 2000 ≤ s.mono)
  if !s.afe.started ∨ s.pe.slot ∨ s.pe.slotFrame = some n ∨ !excess then .next s
  else
    let s := s.closeIntake
    let gaps := (List.range 4).map fun g => (s.group g).gap
    let s := s.withPe fun p =>
      { p with slot := true, slotFrame := some n, slotMissing := p.missing, slotOvr := p.ovr, slotGaps := gaps, slotAt := s.mono
               cycles := 48, run := none, rest := [] }
    let (now, later) := fitParams 16 s.pe.params
    let s := now.foldl State.applyParam (s.withPe fun p => { p with params := later })
    let s := ((List.range 64).foldl State.applyRequest s).recordFrames n
    let s := s.withPe fun p => { p with rest := (List.range 64).filter s.cxEnabled }
    .next (peSettle 65 (runSlot bundles s))

/-- The running context has reached VWCET without its END (06 R225). -/
def execContextCut (t : Nat) (s : State) : Host.Outcome State Fault Refusal :=
  let s := s.advance t
  match s.pe.run with
  | some r => if s.exhausted r then .next (peSettle 65 (s.cutContext r)) else .next s
  | none => .next s

/-- A context skips the frame (06 R226): its state before the slot counts a frame without evaluation, its contribution is
that from before the slot. -/
def State.skipContext (s : State) (c n before : Nat) (contrib : Word) (missing : Bool) : State :=
  let s := (((s.inc PE_SKIPCNT_COUNT).inc (PE_CXnCUT_SKIPS c)).setBit PE_STAT_SKIP true).setContrib c contrib
  let s := if missing then s else s.noteMissing c n before
  let s := s.setCxs c { s.cxs c with noLogic := (s.cxs c).noLogic + 1 }
  (s.guaranteeBreak (0x2000 + c) 0x9001 2 1 7 (s.get (PE_CXnSTAT_VWCET c))).publish c n false false

/-- The slot reaches 33.25 µs after its frame start (06 R226). -/
def execSlotDeadline (t : Nat) (s : State) : Host.Outcome State Fault Refusal :=
  let s := s.advance t
  let n := s.slotNumber
  if !s.pe.slot ∨ s.mono < n * 31250 + 33250 then .next s
  else
    let running := (s.pe.run.map (·.cx)).toList
    let all := running ++ s.pe.rest
    let run := s.pe.run
    let s := s.withPe fun p => { p with run := none, rest := [] }
    let s := match run with
      | some r => s.skipContext r.cx n r.before r.contribBefore r.missing
      | none => s
    let waiting := all.drop running.length
    let s := waiting.foldl (fun (s : State) c => s.skipContext c n (s.cxState c) (s.cxs c).contrib false) s
    let s := match all with
      | [] => s
      | c :: _ => s.emit 0x5006 [c, all.length, n]
    .next s.endSlot

/-! ### Instructions (07 R248 to R256) -/

/-- An instruction of the running evaluation; without one nothing happens. -/
def State.peInstruction (s : State) (f : State → PeRun → State) : State :=
  match s.pe.run with
  | none => s
  | some r => peSettle 65 (if s.exhausted r then s.cutContext r else f s r)

/-- The V-slot operation of the bundle in progress: it acts together with the S-slot's (07 R244). -/
def State.peVectorSlot (s : State) (v : PeVectorSlot) : State :=
  s.peInstruction fun s r => s.withRun (some { r with vector := some v })

/-- The S-slot operation of the bundle in progress, which completes it. -/
def State.peScalarSlot (s : State) (o : PeSlot) : State :=
  s.peInstruction fun s r => s.peBundle r (r.vector.getD (.op .vnop)) o

def execPeVectorOp (o : PeVector) (s : State) : Host.Outcome State Fault Refusal := .next (s.peVectorSlot (.op o))
def execVld (vd : PeReg) (m : PeMem) (s : State) : Host.Outcome State Fault Refusal := .next (s.peVectorSlot (.vld vd m))
def execVst (vs : PeReg) (m : PeMem) (s : State) : Host.Outcome State Fault Refusal := .next (s.peVectorSlot (.vst vs m))
def execPeScalarOp (o : PeScalar) (s : State) : Host.Outcome State Fault Refusal := .next (s.peScalarSlot (.scalar o))
def execLds (sd : PeReg) (m : PeMem) (s : State) : Host.Outcome State Fault Refusal := .next (s.peScalarSlot (.lds sd m))
def execSts (ss : PeReg) (m : PeMem) (s : State) : Host.Outcome State Fault Refusal := .next (s.peScalarSlot (.sts ss m))
def execPeAccumulatorOp (o : PeAccumulator) (s : State) : Host.Outcome State Fault Refusal := .next (s.peScalarSlot (.acc o))

def execBrf (fa : PeFlag) (sense : Bool) (off : BitVec 14) (s : State) : Host.Outcome State Fault Refusal :=
  .next (s.peScalarSlot (.brf fa sense off))

def execBra (off : BitVec 14) (s : State) : Host.Outcome State Fault Refusal := .next (s.peScalarSlot (.bra off))

def execLoopBegin (k : BitVec 12) (m : BitVec 14) (s : State) : Host.Outcome State Fault Refusal :=
  .next (s.peScalarSlot (.loop k m))

def execEndEntry (s : State) : Host.Outcome State Fault Refusal := .next (s.peScalarSlot .end_)

def execLidx (sd : PeReg) (level : Fin 4) (s : State) : Host.Outcome State Fault Refusal :=
  .next (s.peScalarSlot (.lidx sd level))

def execTrp (t : Nat) (k : Fin 32) (fa : PeFlag) (s : State) : Host.Outcome State Fault Refusal :=
  .next ((s.advance t).peScalarSlot (.trp k fa))

def execTrg (t : Nat) (j : Fin 8) (fa : PeFlag) (s : State) : Host.Outcome State Fault Refusal :=
  .next ((s.advance t).peScalarSlot (.trg j fa))

end Sys2Proof.Machine
end

