-- ==== Sys2Proof/Machine/Sys.lean ====
section
/-!
DEFINITION. The commands of SYS: SERVICE, LEAVE, RESET, SAFE, the life cycle, images and flash (15 R488 to R495, R503, R511 to
R516); the train mode (15 R502).
-/

namespace Sys2Proof.Machine

open Reg

/-! ### Mode commands (15 R495, R503) -/

/-- SERVICE (15 R495; 05 R190 for a pending start; 02 R73 while halted). -/
def State.serviceCommand (s : State) (cseq : Nat) (tool : Bool) : State :=
  s.sysCommand 1 cseq fun s =>
    if s.mode ≠ .stop then (s, some 1)
    else if s.cyc.pendingStart.isSome ∨ s.bit CORE_STAT_HALTED then (s, some 5)
    else ((s.withSys fun b => { b with serviceByTool := tool }).toMode .service 6, some 0)

/-- LEAVE (15 R495). A RETIRED module stays in SERVICE (15 R488). -/
def State.leaveCommand (s : State) (cseq : Nat) : State :=
  s.sysCommand 2 cseq fun s =>
    if s.mode ≠ .service then (s, some 1)
    else if s.lifeCycle = 5 ∨ s.bit CORE_STAT_HALTED then (s, some 5)
    else ((s.withSys fun b => { b with serviceByTool := false }).toMode .stop 6, some 0)

/-- The complex is halted in STOP or SERVICE, which no command leaves then (02 R73; its result 5, log entry 35). -/
def State.haltedHere (s : State) : Bool := s.bit CORE_STAT_HALTED && (s.mode == .stop || s.mode == .service)

/-- RESET (15 R495, R546 cause 11; 02 R73). -/
def State.resetRequest (s : State) (cseq : Nat) (tool : Bool) : State :=
  s.sysCommand 3 cseq fun s =>
    if s.mode ≠ .stop ∧ s.mode ≠ .service ∧ s.mode ≠ .safe then (s, some 1)
    else if s.mode = .safe ∧ !tool then (s, some 2)
    else if s.haltedHere then (s, some 5)
    else ((s.emit 0xE001 [s.mode.code, 0, 11]).withSys fun b => { b with resetting := true }, some 0)

/-- SAFE (15 R503; 02 R73). -/
def State.safeRequest (s : State) (cseq : Nat) : State :=
  s.sysCommand 4 cseq fun s => if s.haltedHere then (s, some 5) else (s.sysDemand 8 0, some 0)

def execService (t cseq : Nat) (tool : Bool) (s : State) : Host.Outcome State Fault Refusal :=
  .next ((s.advance t).serviceCommand cseq tool)

def execLeave (t cseq : Nat) (s : State) : Host.Outcome State Fault Refusal := .next ((s.advance t).leaveCommand cseq)

def execResetCommand (t cseq : Nat) (tool : Bool) (s : State) : Host.Outcome State Fault Refusal :=
  .next ((s.advance t).resetRequest cseq tool)

def execSafeCommand (t cseq : Nat) (s : State) : Host.Outcome State Fault Refusal := .next ((s.advance t).safeRequest cseq)

/-! ### The maintenance session (11 R406) -/

/-- The session closes for a reason of event 0x800F; a session that gave SERVICE takes it back (15 R495), but not while the complex
is halted (02 R73) and not in RETIRED (15 R488). -/
def State.endSession (s : State) (reason : Nat) : State :=
  match s.net.session with
  | .open_ _ _ key _ _ =>
    let s := { s with net := { s.net with session := .closed } }
    let s := ((s.setBit NET_STAT_SESS false).set NET_STAT_KEY 0).emit 0x800F [reason, key]
    let gave := s.sys.serviceByTool && s.mode == .service && s.lifeCycle != 5 && !s.bit CORE_STAT_HALTED
    s.when gave fun s => (s.withSys fun b => { b with serviceByTool := false }).toMode .stop 6
  | _ => s

/-- ENDSESS (11 R406). DEDUCED: done without an open session too, log entry 34. -/
def endSessionCommand (s : State) : State × Nat := (s.endSession 4, 0)

def execEndsess (cseq : Nat) (s : State) : Host.Outcome State Fault Refusal :=
  .next (s.mailbox NET_SEQ_LASTCMD NET_RES_RESULT cseq endSessionCommand)

/-! ### Life cycle (15 R489, R490) -/

/-- What a move of the life cycle needs beside the serial number: none where the move does not exist, else its refusal. -/
def State.moveRefused (s : State) (old new : Nat) : Option Nat :=
  match old, new with
  | 0, 1 | 1, 2 | 3, 4 => if s.sys.authorised then none else some 4
  | 2, 3 => if s.bit SYS_STAT_CFGOK ∧ s.sys.bound then none else some 5
  | 2, 5 | 3, 5 | 4, 5 => none
  | _, _ => some 5

/-- LCADV (15 R489): the fuse write starts. -/
def State.lcAdvance (s : State) (cseq : Nat) (tool : Bool) : State :=
  s.sysCommand 11 cseq fun s =>
    if !tool then (s, some 2)
    else if s.mode ≠ .stop ∧ s.mode ≠ .service then (s, some 1)
    else if s.sys.advancing.isSome then (s, some 8)
    else if s.rd SYS_CARG1 ≠ s.rd SYS_SER then (s, some 5)
    else
      let old := s.lifeCycle
      let new := s.get SYS_CARG0_VALUE
      match s.moveRefused old new with
      | some r => (s, some r)
      | none => ((s.emit 0xD006 [old, new]).withSys fun b => { b with advancing := some new }, some 0)

def execLcadv (t cseq : Nat) (tool : Bool) (s : State) : Host.Outcome State Fault Refusal :=
  .next ((s.advance t).lcAdvance cseq tool)

/-- What the move to FIELD fuses beside the state (15 R490). -/
def State.fuseField (s : State) : State :=
  let s := s.set GIRTH_FCRC_CRC (s.get GIRTH_PCRC_CRC)
  s.withSys fun b => { b with fused := { b.fused with parts := b.parts, regions := s.mapValues, digest := s.digest } }

/-- What the move to RETIRED fuses beside the state: the device key is blown to all ones (15 R488). -/
def State.fuseRetired (s : State) : State := s.withSys fun b => { b with fused := { b.fused with deviceKey := 2 ^ 384 - 1 } }

/-- The fuse write of LCADV completes (15 R489). A halt ends with a state that has no halting debug (02 R66; 08 R287). -/
def execFuseWriteComplete (t : Nat) (s : State) : Host.Outcome State Fault Refusal :=
  let s := s.advance t
  match s.sys.advancing with
  | none => .next s
  | some new =>
    let s := (s.when (new == 3) State.fuseField).when (new == 5) State.fuseRetired
    let s := (s.set SYS_LC_STATE new).withSys fun b => { b with advancing := none, authorised := false }
    .next (s.when (s.bit CORE_STAT_HALTED && s.debugRefused.isSome) fun s => s.endHalt.takeDeferred .cx)

/-! ### Staging (15 R514) -/

/-- A byte of a word, 0 the lowest. -/
def byteOf (w : Word) (i : Nat) : Nat := w.toNat / 256 ^ i % 256

/-- A word of the staging region. -/
def SysBlock.stagedWord (b : SysBlock) (off : Nat) : Word := CMap.lookup (fun _ => 0xFFFFFFFF#32) b.staging off

/-- A byte of the staging region. -/
def State.stagedByte (s : State) (off : Nat) : Nat := byteOf (s.sys.stagedWord (off - off % 4)) (off % 4)

/-- `n` bytes of the staging region as a number, the first lowest. -/
def State.stagedNum (s : State) (off : Nat) : Nat → Nat
  | 0 => 0
  | n + 1 => s.stagedByte off + 256 * s.stagedNum (off + 1) n

/-- Place a byte in the staging region. -/
def SysBlock.stageByte (b : SysBlock) (off v : Nat) : SysBlock :=
  let k := off - off % 4
  { b with staging := CMap.put (fun _ => 0xFFFFFFFF#32) b.staging k (fieldPut (b.stagedWord k) (off % 4 * 8) 8 v) }

/-- Words of the staging region, renumbered from 0. -/
def State.stagedWords (s : State) (i : StagedImage) : List (Nat × Word) :=
  (List.range ((i.len + 3) / 4)).foldl (fun l n =>
    CMap.put (fun _ => 0xFFFFFFFF#32) l (4 * n) (BitVec.ofNat 32 (s.stagedNum (i.at_ + 4 * n) 4))) []

/-- Read DRAM words for the flash controller; none where one cannot be read. -/
def State.readDram (s : State) : List Nat → State × Option (List Word)
  | [] => (s, some [])
  | k :: r =>
    if !s.wordReachable k then (s, none)
    else match s.readWord k (.block 0 0) with
      | (s, .data d) =>
        match s.readDram r with
        | (s, some l) => (s, some (d :: l))
        | (s, none) => (s, none)
      | (s, _) => (s, none)

/-- The copy of STAGE: bytes of DRAM to staging, or result 5 where they cannot be read. -/
def State.stageCopy (s : State) (dst src len : Nat) : State × Nat :=
  if 0xC0000000 < src + len then (s, 5)
  else if len = 0 then (s, 0)
  else
    let first := src / 4
    match s.readDram ((List.range ((src + len - 1) / 4 + 1 - first)).map fun i => dramBase + 4 * (first + i)) with
    | (s, none) => (s, 5)
    | (s, some words) =>
      let bytes := ((words.flatMap fun w => (List.range 4).map (byteOf w)).drop (src % 4)).take len
      (s.withSys fun b => (bytes.mapIdx fun i v => (i, v)).foldl (fun b e => b.stageByte (dst + e.1) e.2)
        { b with verified := none }, 0)

/-! ### Image checks (15 R511 to R513) -/

/-- The fields of an image header (15 R511). -/
structure ImageHeader where
  magic : Nat
  hver : Nat
  kind : Nat
  flags : Nat
  len : Nat
  hw : Nat
  serial : Nat
  svn : Nat
  keyIdx : Nat
  nkey : Nat
  pid : Nat
  sid2 : Nat
deriving DecidableEq, Repr

/-- The header of the image at an offset of staging. -/
def State.imageHeader (s : State) (o : Nat) : ImageHeader :=
  { magic := s.stagedNum o 4, hver := s.stagedNum (o + 4) 2, kind := s.stagedByte (o + 6), flags := s.stagedByte (o + 7)
    len := s.stagedNum (o + 8) 4, hw := s.stagedNum (o + 12) 4, serial := s.stagedNum (o + 16) 4, svn := s.stagedByte (o + 20)
    keyIdx := s.stagedByte (o + 21), nkey := s.stagedByte (o + 22), pid := s.stagedNum (o + 24) 4
    sid2 := s.stagedNum (o + 28) 4 }

/-- The ASCII bytes "RN94". -/
def imageMagic : Nat := 0x34394E52

/-- The length of an image: header, key table, payload. -/
def ImageHeader.size (h : ImageHeader) : Nat := 256 + 160 * h.nkey + h.len

/-- An image that its slot or its half of the configuration region cannot hold (15 R515). DEDUCED: its LEN is not consistent, log entry
33. -/
def ImageHeader.tooLong (h : ImageHeader) : Bool :=
  (h.kind == 1 && decide (0x6000000 < h.size)) || (h.kind == 2 && decide (0x800000 < h.size))

/-- The life-cycle state takes images of the kind (15 R488). Owner images: COMMISSION and FIELD; BLANK, MANUFACTURE and RMA take
Efmitas test images with their authorisation. DEDUCED for kinds 4 and 5, log entry 33. -/
def State.kindAccepted (s : State) (kind : Nat) : Bool :=
  let lc := s.lifeCycle
  if lc = 5 then false
  else if 1 ≤ kind ∧ kind ≤ 3 then lc == 2 || lc == 3 || s.sys.authorised
  else kind == 4 || kind == 5

/-- The key and signature of an image are good (15 R491, R513). -/
def State.keyGood (s : State) (h : ImageHeader) (c : ImageCrypto) : Bool :=
  if h.kind = 4 then c.signature
  else
    let live := fun k => bitOf (s.get SYS_LC_FUSED) k && !bitOf (s.get SYS_LC_REVOKED) k
    decide (h.keyIdx < 4) && live h.keyIdx && c.signature && (h.kind != 5 || c.revokes.val != h.keyIdx)

/-- The SVN of an image is no lower than the fused SVN of its kind. -/
def State.svnGood (s : State) (h : ImageHeader) : Bool :=
  match h.kind with
  | 1 => decide (s.get SYS_SVN_FW ≤ h.svn)
  | 2 => decide (s.get SYS_SVN_CFG ≤ h.svn)
  | _ => true

/-- The check of a staged image in the order of R513: 0 or the reason. `kinds`: those the command takes; `base`: the program
identity a kind 2 image must name. -/
def State.imageReason (s : State) (h : ImageHeader) (c : ImageCrypto) (kinds : List Nat) (base : Nat) : Nat :=
  if h.magic ≠ imageMagic ∨ h.hver ≠ 1 ∨ 8 < h.nkey ∨ h.tooLong ∨ !c.digest then 1
  else if !kinds.contains h.kind ∨ !s.kindAccepted h.kind then 2
  else if h.hw % 0x10000 ≠ 0x9304 ∨ s.get SYS_ID_ISSUE < h.hw / 0x10000 % 256 then 3
  else if bitOf h.flags 1 ∧ h.serial ≠ s.get SYS_SER_SERIAL then 4
  else if !s.keyGood h c then 5
  else if !s.svnGood h then 6
  else if (bitOf h.flags 0 ∧ !c.key) ∨ (!bitOf h.flags 0 ∧ !s.bit SYS_CFG_PLAIN) then 7
  else if !c.tag then 8
  else if (h.kind = 2 ∧ h.pid ≠ base) ∨ (h.kind = 3 ∧ h.sid2 ≠ s.sys.program.identity) then 9
  else 0

/-- The key table of the image at an offset has an entry for this unit or for the fleet (15 R512). -/
def State.keyEntry (s : State) (o : Nat) (h : ImageHeader) : Bool :=
  (List.range h.nkey).any fun i =>
    let n := s.stagedNum (o + 256 + 160 * i) 4
    n == s.get SYS_SER_SERIAL || n == 0xFFFFFFFF

/-- Check the image at an offset: events 0xD007, 0xD008, 0xD00C and SYS_RES.REASON; its header and reason. -/
def State.checkImage (s : State) (o : Nat) (c : ImageCrypto) (kinds : List Nat) (base : Nat) : State × ImageHeader × Nat :=
  let h := s.imageHeader o
  let r := s.imageReason h { c with key := c.key && s.keyEntry o h } kinds base
  if r = 0 then (s.emit 0xD007 [h.kind, h.svn, h.pid], h, 0)
  else
    let s := (s.set SYS_RES_REASON r).emit 0xD008 [h.kind, r]
    (s.when (r == 4) fun s => s.emit 0xD00C [h.serial], h, r)

/-- The contents of a slot: false A, true B. -/
def State.slotContent (s : State) (b : Bool) : SlotContent := ((if b then s.sys.slotB else s.sys.slotA)).getD {}

/-- Replace the contents of a slot. -/
def State.putSlot (s : State) (slot : Bool) (c : SlotContent) : State :=
  s.withSys fun b => if slot then { b with slotB := some c } else { b with slotA := some c }

/-- VERIFY (15 R514): a firmware image, optionally followed by a configuration image, or a configuration image alone. DEDUCED: it
takes the authorisation and revocation images too, and a second image follows at the next byte, log entry 33. -/
def State.verifySet (s : State) (checks : List ImageCrypto) : State × Nat :=
  let s := s.withSys fun b => { b with verified := none }
  let bad : ImageCrypto := { digest := false, signature := false, key := false, tag := false, revokes := 0 }
  let (s, h, r) := s.checkImage 0 ((checks[0]?).getD bad) [1, 2, 4, 5] (s.slotContent (s.bit SYS_BOOT_ACT)).pid
  let first : StagedImage := ⟨0, h.size, h.svn, h.pid⟩
  if r ≠ 0 then (s, 3)
  else match h.kind with
    | 1 =>
      if (s.imageHeader h.size).magic ≠ imageMagic then
        (s.withSys fun b => { b with verified := some { firmware := some first } }, 0)
      else
        let (s, h2, r2) := s.checkImage h.size ((checks[1]?).getD bad) [2] h.pid
        if r2 ≠ 0 then (s, 3)
        else (s.withSys fun b => { b with verified := some { firmware := some first
                                                             configuration := some ⟨h.size, h2.size, h2.svn, h2.pid⟩ } }, 0)
    | 2 => (s.withSys fun b => { b with verified := some { configuration := some first } }, 0)
    | 4 => (s.withSys fun b => { b with authorised := h.serial == s.get SYS_SER_SERIAL }, 0)
    | _ => (s.set SYS_LC_REVOKED (Nat.lor (s.get SYS_LC_REVOKED) (2 ^ ((checks[0]?).getD bad).revokes.val)), 0)

/-- INSTALL (15 R515): the staged set goes to the inactive slot; a configuration alone takes the active firmware along. -/
def State.installSet (s : State) : State × Nat :=
  match s.sys.verified with
  | none => (s, 5)
  | some set =>
    let act := s.bit SYS_BOOT_ACT
    let old := s.slotContent act
    let c : SlotContent := match set.firmware with
      | some i => { firmware := s.stagedWords i, fwSvn := i.svn, pid := i.pid }
      | none => { firmware := old.firmware, fwSvn := old.fwSvn, pid := old.pid }
    let c := match set.configuration with
      | some i => { c with configuration := s.stagedWords i, cfgSvn := i.svn }
      | none => c
    (s.putSlot (!act) c, 0)

/-- PKGLOAD (15 R516): the package goes to its range of DRAM or SRAM, decrypted (`plain`) where it is encrypted. -/
def State.loadPackage (s : State) (addr len : Nat) (checks : List ImageCrypto) (plain : List Word) : State × Nat :=
  let bad : ImageCrypto := { digest := false, signature := false, key := false, tag := false, revokes := 0 }
  let (s, h, r) := s.checkImage 0 ((checks[0]?).getD bad) [3] 0
  if r ≠ 0 then (s, 3)
  else
    let payload := if bitOf h.flags 0 then plain else (List.range ((h.len + 3) / 4)).map fun i => BitVec.ofNat 32 (s.stagedNum (256 + 160 * h.nkey + 4 * i) 4)
    let keys := (List.range payload.length).filterMap fun i => memoryKey (s.get MEM_DBANK_CX) (addr + 4 * i)
    let fits := keys.length == payload.length && keys.all fun k => spaceOf k != .mram && s.wordReachable k
    if addr % 4 ≠ 0 ∨ len < h.len ∨ len + 3 < 4 * payload.length ∨ !fits then (s, 5)
    else
      let s := (keys.zip payload).foldl (fun (s : State) e => s.agentWrite e.1 15#4 e.2 0 0) s
      let s := (s.set SYS_PKGA_VALUE addr).set SYS_PKGL_VALUE len
      (s.emit 0xD00D [h.pid, len], 0)

/-! ### Flash commands (15 R514 to R516) -/

/-- What every flash command meets first (15 R514): the mode, a command in progress. -/
def State.flashRefused (s : State) : Option Nat :=
  if s.mode = .safe ∨ s.mode = .powerup then some 1 else if s.sys.job.isSome then some 8 else none

/-- A flash command that starts its work. -/
def State.flashCommand (s : State) (cmd cseq : Nat) (refused : State → Option Nat) (job : State → FlashJob) : State :=
  s.sysCommand cmd cseq fun s =>
    match s.flashRefused, refused s with
    | some r, _ => (s, some r)
    | none, some r => (s, some r)
    | none, none => (s.withSys fun b => { b with job := some (job s) }, none)

/-- STAGE (15 R514). -/
def State.stageCommand (s : State) (cseq : Nat) : State :=
  s.flashCommand 5 cseq (fun _ => none) fun s => .stage (s.get SYS_CARG0_VALUE) (s.get SYS_CARG1_VALUE) (s.get SYS_CARG2_VALUE)

/-- VERIFY (15 R514). -/
def State.verifyCommand (s : State) (cseq : Nat) : State := s.flashCommand 6 cseq (fun _ => none) fun _ => .verify

def execStage (t cseq : Nat) (s : State) : Host.Outcome State Fault Refusal := .next ((s.advance t).stageCommand cseq)

def execSysVerify (t cseq : Nat) (s : State) : Host.Outcome State Fault Refusal := .next ((s.advance t).verifyCommand cseq)

/-- INSTALL needs a passed VERIFY and no trial slot (15 R515). -/
def State.installRefused (s : State) : Option Nat :=
  if s.bit SYS_BOOT_TRIALV ∨ s.sys.verified.isNone then some 5 else none

/-- INSTALL (15 R515). -/
def State.installCommand (s : State) (cseq : Nat) : State := s.flashCommand 7 cseq State.installRefused fun _ => .install

/-- PKGLOAD (15 R516). -/
def State.pkgloadCommand (s : State) (cseq : Nat) : State :=
  s.flashCommand 10 cseq (fun _ => none) fun s => .pkgload (s.get SYS_CARG1_VALUE) (s.get SYS_CARG2_VALUE)

def execInstall (t cseq : Nat) (s : State) : Host.Outcome State Fault Refusal := .next ((s.advance t).installCommand cseq)

def execPkgload (t cseq : Nat) (s : State) : Host.Outcome State Fault Refusal := .next ((s.advance t).pkgloadCommand cseq)

/-- ACTIVATE (15 R515). -/
def State.activate (s : State) (cseq : Nat) : State :=
  s.sysCommand 8 cseq fun s =>
    match s.flashRefused with
    | some r => (s, some r)
    | none =>
      let s := s.putBoot true 0 false
      (s.emit 0xD009 [(!s.bit SYS_BOOT_ACT).toNat], some 0)

def execActivate (t cseq : Nat) (s : State) : Host.Outcome State Fault Refusal := .next ((s.advance t).activate cseq)

/-- A start that has reached STOP or RUN. -/
def Mode.started : Mode → Bool
  | .stop | .run | .runDegraded | .standby | .resync | .service => true
  | _ => false

/-- CONFIRM (15 R515): the trial slot becomes active and the fused security versions advance. -/
def State.confirm (s : State) (cseq : Nat) : State :=
  s.sysCommand 9 cseq fun s =>
    if !s.mode.started then (s, some 1)
    else if s.sys.job.isSome then (s, some 8)
    else if !s.bit SYS_STAT_TRIAL ∨ !s.bit SYS_BOOT_TRIALV then (s, some 5)
    else
      let slot := s.bit SYS_STAT_SLOT
      let c := s.slotContent slot
      let s := ((s.setBit SYS_BOOT_ACT slot).putBoot false 0 false).setBit SYS_STAT_TRIAL false
      let s := s.set SYS_SVN_FW (max (s.get SYS_SVN_FW) (min c.fwSvn 63))
      let s := s.set SYS_SVN_CFG (max (s.get SYS_SVN_CFG) (min c.cfgSvn 63))
      (s.emit 0xD00A [slot.toNat, c.fwSvn, c.cfgSvn], some 0)

def execConfirm (t cseq : Nat) (s : State) : Host.Outcome State Fault Refusal := .next ((s.advance t).confirm cseq)

/-- The code of a flash command. -/
def FlashJob.code : FlashJob → Nat
  | .stage _ _ _ => 5
  | .verify => 6
  | .install => 7
  | .pkgload _ _ => 10

/-- A flash command completes (15 R514 to R516); `checks`: what the cryptographic checks of the staged images say, in order;
`payload`: the decrypted package. -/
def execSysFlashCommandDone (t : Nat) (checks : List ImageCrypto) (payload : List Word) (s : State) :
    Host.Outcome State Fault Refusal :=
  let s := s.advance t
  match s.sys.job with
  | none => .next s
  | some j =>
    let s := s.withSys fun b => { b with job := none }
    let (s, r) := match j with
      | .stage dst src len => s.stageCopy dst src len
      | .verify => s.verifySet checks
      | .install => s.installSet
      | .pkgload addr len => s.loadPackage addr len checks payload
    let s := s.when (r != 0) fun s => s.emit 0xE00A [j.code, r]
    .next (s.answerLate SYS_SEQ_LASTCMD SYS_RES_RESULT r)

/-! ### Train mode (15 R502) -/

/-- A write of SYS_OVSEL.TMODE requests the mask of the table at the next step 6 (01 R32). -/
def State.writeTrainMode (s : State) (tmode : Nat) : State :=
  (s.set SYS_OVSEL_TMODE tmode).withSys fun b => { b with asked := true }

def execOvselWrite (tmode : Fin 8) (s : State) : Host.Outcome State Fault Refusal := .next (s.writeTrainMode tmode.val)

end Sys2Proof.Machine
end

