-- ==== Sys2Proof/Machine/RegBus.lean ====
section
/-!
DEFINITION. The register window (00 R3 to R6): reads with their side effects, writes by access type, what a write of a mailbox or
of a register with an action does. The debug mailbox stands in Debug.lean.
-/

namespace Sys2Proof.Machine

open Reg

/-! ### Which copy a select register shows -/

/-- The copy of the register at `a` that its select register names: 0 where it has none. -/
def State.shownIndex (s : State) (a : Nat) : Nat :=
  if a = MEM_ARBDAT then s.get MEM_ARBSEL_ARB * 64 + s.get MEM_ARBSEL_SLOT
  else if CYC_IMD0 ≤ a ∧ a ≤ CYC_IMD2 then s.get CYC_IMSEL_INDEX
  else if a = CYC_STINFO then s.get CYC_STSEL_KIND + s.get CYC_STSEL_STATION * 16
  else if a = GIRTH_PDATA then s.get GIRTH_PIDX_IDX
  else if NET_FD0 ≤ a ∧ a ≤ NET_FCNT then s.get NET_FSEL_FLOW
  else if OCT_ED0 ≤ a ∧ a ≤ OCT_ED2 then s.get OCT_ESEL_ENTRY
  else if a = OCT_PCFG ∨ a = OCT_PSTAT then s.get OCT_PSEL_INDEX
  else if a = OCT_NSTAT then s.get OCT_NSEL_ADDR
  else if a = BRG_PWSTAT ∨ a = BRG_PWTRK ∨ a = BRG_PWFAIL then s.get BRG_PWSEL_PART
  else if a = BRG_CRDAT then s.get BRG_CRSEL_PART
  else if BRG_SD0 ≤ a ∧ a ≤ BRG_SSTAT then s.get BRG_SSEL_INDEX
  else if BRG_RD0 ≤ a ∧ a ≤ BRG_RD2 then s.get BRG_RSEL_INDEX
  else if a = REC_RLDAT0 ∨ a = REC_RLDAT1 then s.get REC_RLSEL_ENTRY
  else if a = REC_SSADDR then s.get REC_SSSEL_SET + s.get REC_SSSEL_SLOT * 32
  else 0

/-- The key of the register that an access to `a` reaches. -/
def State.regKey (s : State) (a : Nat) : Nat := bank a (s.shownIndex a)

/-! ### Reads -/

/-- The calibration channel of an AFE_CHnCAL address. -/
def calChannel (a : Nat) : Option Nat := (List.range 24).find? fun ch => AFE_CHnCAL ch == a

/-- The task of a CYC_TnREL address. -/
def relTask (a : Nat) : Option Nat := (List.range 16).find? fun n => CYC_TnREL n == a

/-- CYC_STINFO.NEVER (05 R202): a configured station of which no block has been received since reset. -/
def State.stationNever (s : State) (kind index : Nat) : Bool :=
  decide (3 ≤ kind) && decide (kind ≤ 7) && (s.station kind index).cur.isNone
    && s.imageEntries.any fun i => !s.imOut i && s.imKind i == kind && s.imStation i == index

/-- The value the register at `a` shows, without side effect: held values, and those that are views of other state. -/
def State.shown (s : State) (a : Nat) : Word :=
  if a = CORE_RIC_LO then s.cx.ric.setWidth 32
  else if a = TIME_MONO_LO then s.readMono.2
  else if a = TIME_SYNC_NS then s.readSync.2
  else if a = OCT_TST_LO then s.readStart.2
  else if a = REC_OPSEC then BitVec.ofNat 32 s.opsec
  else if a = NET_STAT then fieldPut (s.rd NET_STAT) NET_STAT_SENDOFF.lo 1 s.sendOff.toNat
  else if a = OCT_PSTAT then
    fieldPut (s.rd (s.regKey a)) OCT_PSTAT_MISS.lo OCT_PSTAT_MISS.w (s.octMiss (s.get OCT_PSEL_INDEX))
  else if a = MEM_ARBDAT ∧ s.get MEM_ARBSEL_SLOT = 63 then fieldPut (s.rd (s.regKey a)) MEM_ARBDAT_MASTER.lo MEM_ARBDAT_MASTER.w 8
  else if a = GIRTH_TOUT then ((List.range 4).foldl (fun (s : State) t => s.showTrip t) s).rd a
  else if a = GIRTH_PDATA ∧ 35 ≤ s.get GIRTH_PIDX_IDX then 0
  else if a = CYC_STINFO then fieldPut (s.rd (s.regKey a)) CYC_STINFO_NEVER.lo 1 (s.stationNever (s.get CYC_STSEL_KIND) (s.get CYC_STSEL_STATION)).toNat
  else if let some n := relTask a then fieldPut (s.rd a) (CYC_TnREL_SAFETY n).lo 1 (s.taskSafety n).toNat
  else match calChannel a with
    | some ch => s.calWord ch
    | none => s.rd (s.regKey a)

/-- A register as a snapshot reads it (09 R324): none for an error response. -/
def State.peek (s : State) (a : Nat) : Option Word := if (regInfo a).isSome then some (s.shown a) else none

/-- A read of CORE_RIC_LO latches the high word (02 R80). -/
def State.readRic (s : State) : State × Word :=
  (s.wr CORE_RIC_HI (BitVec.ofNat 32 (s.cx.ric.toNat / 2 ^ 32)), s.cx.ric.setWidth 32)

def execRicLoRead (s : State) : Host.Outcome State Fault Refusal := .next (State.answerRead s.readRic)

/-- The task of a CYC_TnWV address. -/
def wvTask (a : Nat) : Option Nat := (List.range 16).find? fun n => CYC_TnWV n == a

/-- Whether the register at `a` has fields of access RS (00 R5). -/
def hasSideEffect (a : Nat) : Bool := maskOf (fun x => x == .rs) a != 0

/-- A read of the register at `a` with its side effect (00 R5). -/
def State.readRegister (s : State) (a : Nat) : State × Word :=
  if a = CORE_RIC_LO then s.readRic
  else if a = MEM_PQINFO then s.readPqinfo
  else if a = CYC_DISP then s.readDisp
  else if a = CYC_EDGEINF then s.readEdge
  else if a = TIME_MONO_LO then s.readMono
  else if a = TIME_SYNC_NS then s.readSync
  else if a = OCT_TST_LO then s.readStart
  else if a = BRG_WEFINFO then s.readWefinfo
  else if a = BRG_PFLINFO then s.readPflinfo
  else match wvTask a with
    | some n => s.readWv n
    | none => (s, s.shown a)

/-! ### Writes -/

/-- Who writes, with what privilege, and the change package a PREPARE finds at CYC_OCPKG. -/
structure Writer where
  tool : Bool
  priv : Nat
  pkg : Option ChangePackage
deriving DecidableEq, Repr

/-- The mailbox registers of SYS: commands 1 to 11, the others refused with result 6. -/
def State.writeSysCmd (s : State) (w : Writer) (cmd cseq : Nat) : State :=
  match cmd with
  | 1 => s.serviceCommand cseq w.tool
  | 2 => s.leaveCommand cseq
  | 3 => s.resetRequest cseq w.tool
  | 4 => s.safeRequest cseq
  | 5 => s.stageCommand cseq
  | 6 => s.verifyCommand cseq
  | 7 => s.installCommand cseq
  | 8 => s.activate cseq
  | 9 => s.confirm cseq
  | 10 => s.pkgloadCommand cseq
  | 11 => s.lcAdvance cseq w.tool
  | _ => s.sysCommand cmd cseq fun s => (s, some 6)

def State.writeCycCmd (s : State) (cmd cseq : Nat) : State :=
  s.restartMailbox cseq (match cmd with
    | 1 => pairStart false
    | 2 => pairStart true
    | 3 => stopTasks
    | _ => fun s => (s, 6))

def State.writeForceCmd (s : State) (w : Writer) (cmd type cseq : Nat) : State :=
  s.forceMailbox cseq (match cmd with
    | 1 => setForce type w.tool
    | 2 => removeForce w.tool
    | 3 => removeForces w.tool
    | 4 => readForce
    | _ => fun s => (s, 6))

/-- CYC_OCCMD (05 R193, R194). Where no package descriptor stands at CYC_OCPKG its base identity is not the running program's:
result 4. -/
def State.writeChangeCmd (s : State) (w : Writer) (cmd cseq : Nat) : State :=
  s.changeMailbox cseq (match cmd with
    | 1 => match w.pkg with
      | some p => prepareChange p
      | none => fun s => if s.ocState ≠ ocIdle then (s, 3) else (s, 4)
    | 2 => armChange
    | 3 => revertChange
    | 4 => confirmChange
    | 5 => abandonChange
    | _ => fun s => (s, 12))

def State.writeLoaderCmd (s : State) (cmd cx cseq : Nat) : State :=
  s.loader cseq (match cmd with
    | 1 => peVerify cx
    | 2 => peEnable cx
    | 3 => peDisable cx
    | _ => fun s => (s, if s.pe.verify.isSome then 10 else 9))

def State.writeGirthCmd (s : State) (cmd index cseq : Nat) : State :=
  s.girthCommand cseq (match cmd with
    | 1 => girthLoadCommand
    | 2 => girthInstrst index
    | 3 => girthClrout index
    | _ => fun s => (s, 6))

def State.writeRecCmd (s : State) (w : Writer) (cmd cseq : Nat) : State :=
  s.recCommand cmd cseq (match cmd with
    | 1 => fun s => (s.frost (if w.tool then 2 else 1), some 0)
    | 2 => recThaw w.tool
    | 3 => recCoreTrigger
    | 4 => recExport
    | 5 => recRead
    | _ => fun s => (s, some 6))

def State.writeFioCmd (s : State) (cmd index cseq : Nat) : State :=
  s.fioCommand cseq (match cmd with
    | 1 => fioClrout index
    | 2 => fioClrfs index
    | _ => fun s => (s, 6))

def State.writeNetCmd (s : State) (w : Writer) (cmd flow cseq : Nat) : State :=
  s.netMailbox cseq (match cmd with
    | 1 => ackSafe flow (!w.tool && w.priv != 0)
    | 2 => clearFlowCounts flow
    | 3 => endSessionCommand
    | _ => fun s => (s, 6))

def State.writeOctCmd (s : State) (cmd addr cseq : Nat) : State :=
  s.octMailbox cseq (match cmd with
    | 1 => handOver addr
    | 2 => revokeGrants addr
    | 3 => octClear
    | _ => fun s => (s, 6))

def State.writeBrgCmd (s : State) (cmd win cseq : Nat) : State :=
  s.brgMailbox cseq (match cmd with
    | 1 => brgResume win
    | 2 => brgConfig false
    | 3 => brgConfig true
    | _ => fun s => (s, some 6))

def State.writePairCmd (s : State) (cmd cseq : Nat) : State :=
  s.pairMailbox cseq (match cmd with
    | 1 => pairJoin
    | 2 => pairSwitch
    | 3 => pairLeave
    | _ => fun s => (s, 6))

/-- The HART channel of an ALP_HnCTL address. -/
def hartControl (a : Nat) : Option Nat := (List.range 8).find? fun n => ALP_HnCTL n == a

/-- A write of a mailbox command register (00 R9); none where `a` is none. A HART write without GO gives no command. -/
def State.writeMailbox (s : State) (w : Writer) (a : Nat) (v : Word) : Option State :=
  let f := fun lo n => fieldGet v lo n
  let cseq := f 16 16
  if a = SYS_CMD then some (s.writeSysCmd w (f 0 4) cseq)
  else if a = MEM_CLRCMD then some (s.rangeClear cseq (f 0 1 == 1))
  else if a = CYC_CMD then some (s.writeCycCmd (f 0 2) cseq)
  else if a = CYC_FCMD then some (s.writeForceCmd w (f 0 3) (f 4 3) cseq)
  else if a = CYC_OCCMD then some (s.writeChangeCmd w (f 0 3) cseq)
  else if a = TIME_CMD then some (s.timeMailbox cseq (if f 0 2 = 1 then timeStep else fun s => (s, 6)))
  else if a = PE_LCMD then some (s.writeLoaderCmd (f 0 2) (f 8 6) cseq)
  else if a = PE_PCMD then some (s.mailbox PE_PSEQ_LASTCMD PE_PRES_RESULT cseq (peParameter (f 8 6) (f 0 1 == 1)))
  else if a = GIRTH_CMD then some (s.writeGirthCmd (f 0 3) (f 4 4) cseq)
  else if a = FIO_CMD then some (s.writeFioCmd (f 0 2) (f 4 5) cseq)
  else if a = ALP_CMD then some (s.mailbox ALP_SEQ_LASTCMD ALP_RES_RESULT cseq
    (if f 0 2 = 1 then alpClrtrim (f 4 3) else fun s => (s, 6)))
  else if a = NET_CMD then some (s.writeNetCmd w (f 0 2) (f 8 8) cseq)
  else if a = OCT_CMD then some (s.writeOctCmd (f 0 2) (f 8 7) cseq)
  else if a = BRG_CMD then some (s.writeBrgCmd (f 0 3) (f 4 4) cseq)
  else if a = PAIR_CMD then some (s.writePairCmd (f 0 2) cseq)
  else if a = REC_CMD then some (s.writeRecCmd w (f 0 3) cseq)
  else if a = BIST_MCMD then some (s.manualTest cseq (f 0 4) (f 8 1 == 1))
  else match hartControl a with
    | some ch =>
      some (if f 12 1 = 1 then s.hartCommand ch cseq (f 0 9) else s)
    | none => none

/-- A count whose W1C field any 1 clears. -/
def clearsWhole (a : Nat) : Option Fld :=
  if a = CYC_EDGESTAT then some CYC_EDGESTAT_LOSTCNT else if a = BRG_PFLSTAT then some BRG_PFLSTAT_LOSTCNT else none

/-- The bits a write of `a` sets now (00 R5; 15: fields marked configuration, in CONFIGURE only). MEM_ARBDAT.MASTER is such a field
(04 R165); OCT_ED2.PORT is read-only for a SPARE entry (12 R440). -/
def State.settable (s : State) (a : Nat) : Word :=
  let m := maskOf (fun x => x == .rw || (x == .lc && s.lcWritable) || (x == .cfg && s.mode == .configure)) a
  if a = MEM_ARBDAT ∧ s.mode ≠ .configure then m &&& ~~~fieldMask MEM_ARBDAT_MASTER.lo MEM_ARBDAT_MASTER.w
  else if a = OCT_ED2 ∧ s.get (OCT_ED0_KIND.at (s.get OCT_ESEL_ENTRY)) = 4 then m &&& ~~~fieldMask OCT_ED2_PORT.lo OCT_ED2_PORT.w
  else m

/-- A write by access type (00 R5, R6): reserved and read-only bits keep their value. -/
def State.writeFields (s : State) (a : Nat) (v : Word) : State :=
  let key := s.regKey a
  let s := s.setMasked key (s.settable a) v
  match clearsWhole a with
  | some f => if fieldGet v f.lo f.w ≠ 0 then s.set f 0 else s
  | none => s.wr key (s.rd key &&& ~~~(v &&& maskOf (fun x => x == .w1c) a))

/-- Start or stop a service core as CORE_SCCTL.EN says; a watchdog switched on counts from now (02 R77). The manual says only that the
core runs while its EN is 1: that a change of EN puts it into its reset state at once is a DESIGN CHOICE, log entry 76. -/
def State.writeScctl (s : State) (v : Word) : State :=
  let old0 := s.bit CORE_SCCTL_EN0
  let old1 := s.bit CORE_SCCTL_EN1
  let oldW := s.get CORE_SCCTL_WDT
  let s := s.writeFields CORE_SCCTL v
  let s := if s.bit CORE_SCCTL_EN0 = old0 then s else s.resetService .sc0
  let s := if s.bit CORE_SCCTL_EN1 = old1 then s else s.resetService .sc1
  if oldW = 0 then { s with core := { s.core with kick0 := s.mono, kick1 := s.mono } } else s

/-- A write of CORE_SCKICKn (02 R77). -/
def State.kick (s : State) (n : Nat) (v : Word) : State :=
  if v ≠ 0xA5 then s
  else if n = 0 then { s with core := { s.core with kick0 := s.mono } } else { s with core := { s.core with kick1 := s.mono } }

/-- The timer of a CYC_TMnCTL address. -/
def timerControl (a : Nat) : Option Nat := (List.range 32).find? fun n => CYC_TMnCTL n == a

/-- A write of CYC_TMnCTL (05 R182): MODE, which switches the timer off at 0 or 3, then START, then STOP. -/
def State.writeTimer (s : State) (n : Nat) (v : Word) : State :=
  let s := s.expireTimer n
  let s := s.writeFields (CYC_TMnCTL n) v
  let s := if s.get (CYC_TMnCTL_MODE n) % 3 = 0 then s.stopTimer n else s
  let s := if fieldGet v 4 1 = 1 then s.startTimer n s.mono else s
  if fieldGet v 5 1 = 1 then s.stopTimer n else s

/-- A write of MEM_FLIPCTL (04 R158): W1C bits, then ARM. -/
def State.writeFlip (s : State) (v : Word) : State :=
  let s := s.wr MEM_FLIPCTL (s.rd MEM_FLIPCTL &&& ~~~(v &&& maskOf (fun x => x == .w1c) MEM_FLIPCTL))
  if fieldGet v 0 1 = 1 then s.armFlip else s.disarmFlip

/-- A write to a HART buffer is ignored while a command is pending (10 R372). -/
def State.hartBusy (s : State) (a : Nat) : Bool :=
  (List.range 8).any fun n => decide (ALP_HnBUFi n 0 ≤ a) && decide (a < ALP_HnBUFi n 0 + 68 * 4) && (s.loop n).hart.isSome

/-- A write of a register that is no mailbox: its action where it has one, else its fields by access type. -/
def State.writePlain (s : State) (a : Nat) (v : Word) : State :=
  if a = CORE_SCCTL then s.writeScctl v
  else if a = CORE_SCKICK0 then s.kick 0 v
  else if a = CORE_SCKICK1 then s.kick 1 v
  else if a = MEM_FLIPCTL then s.writeFlip v
  else if a = CYC_RUN then s.writeRun (fieldGet v 0 4) (fieldGet v 31 1 == 1)
  else if a = GIRTH_PDATA then s.writeGirthData v
  else if a = GIRTH_WDRESP then s.watchdogResponse v
  else if a = NET_TXPTR then s.postRing (fieldGet v 0 10)
  else if a = SYS_OVSEL then s.writeTrainMode (fieldGet v 0 3)
  else if s.hartBusy a then s
  else match timerControl a with
    | some n => s.writeTimer n v
    | none => s.writeFields a v

/-- A whole-word write to the register window, the debug mailbox apart: false for an error response. A write to CYC_FCMD at
partition privilege is not taken (05 R186). -/
def State.writeRegister (s : State) (w : Writer) (a : Nat) (v : Word) : State × Bool :=
  if (regInfo a).isNone then (s, false)
  else if a = CYC_FCMD ∧ w.priv = 0 ∧ !w.tool then (s, false)
  else match s.writeMailbox w a v with
    | some s => (s, true)
    | none => (s.writePlain a v, true)

end Sys2Proof.Machine
end

