-- ==== Sys2Proof/Machine/Access.lean ====
section
/-!
DEFINITION. Data accesses at their targets (01 R19, R20; 00 R3): what a load or a store of a core, or of the debugger on its
behalf, does at memory, registers, the PE memories and the network buffers. The backplane window is Bridle's (BrgOps).
-/

namespace Sys2Proof.Machine

open Reg

/-- How a target answers a read. -/
inductive ReadAnswer where
  | data (w : Word)
  /-- Cause 6 with this subcause (03 R115). -/
  | error (sub : Nat)
  /-- The answer comes later. -/
  | held
  /-- No response at all (04 R143). -/
  | gone
deriving DecidableEq, Repr

/-! ### The PE memories (06 R217, R220, R222) -/

/-- Contexts whose program range holds bundle `b`. -/
def State.programOwners (s : State) (b : Nat) : List Nat :=
  (List.range 64).filter fun c => decide (s.get (PE_CXnRANGE_FIRST c) ≤ b) && decide (b ≤ s.get (PE_CXnRANGE_LAST c))

/-- A core write to program memory: false where an enabled context holds the bundle; others lose VOK, and with new code the library
items linked into the old (log entry 73). -/
def State.writeProgram (s : State) (off : Nat) (v : Word) : State × Bool :=
  let l := s.programOwners (off / 8)
  if l.any s.cxEnabled then (s, false)
  else (l.foldl (fun (s : State) c => (s.setBit (PE_CXnSTAT_VOK c) false).withPe fun p =>
    { p with schemes := CMap.put (fun _ => []) p.schemes c [] }) (s.peStore off v), true)

/-- A core write to data memory: false for the back buffers and the data area of an enabled context. -/
def State.writePeData (s : State) (off : Nat) (v : Word) : State × Bool :=
  let unit := off / 256
  let held := (List.range 64).any fun c =>
    s.cxEnabled c && decide (s.get (PE_CXnDATA_BASE c) ≤ unit) && decide (unit ≤ s.get (PE_CXnDATA_LIMIT c))
  if 0x3C000 ≤ off ∨ held then (s, false) else (s.peStore (0x40000 + off) v, true)

/-- A word of a PE memory as a core reads it: an uncorrectable word gives an error response, log entry 36. -/
def State.readPe (s : State) (off : Nat) : State × ReadAnswer :=
  (s.peMend [off], match peDecode (s.peMem off) with
    | some (w, _) => .data w
    | none => .error 2)

/-! ### Registers -/

/-- The CORE block answers a service core only for what 02 R80 lets it do, and takes a write of CORE_DBGCMD from no core. -/
def registerOpen (c : Master) (r : Right) (a : Nat) : Bool :=
  !(r == .wr && a == CORE_DBGCMD) &&
    (c == .cx || !(decide (0x40100000 ≤ a) && decide (a < 0x40200000)) || serviceGrant c r a)

/-! ### Reads and writes at the target -/

/-- Read at a target: `size` 0 byte, 1 halfword, 2 word, 3 double word. The word that holds the address is returned. -/
def State.readTarget (s : State) (r : Reader) (c : Master) (priv : Nat) (addr size : Nat) : State × ReadAnswer :=
  match s.target c addr with
  | .word k =>
    match s.readWord k r with
    | (s, .data w) => (s, .data w)
    | (s, .strict) => (s, .error 3)
    | (s, .failed) => (s, .error 4)
    | (s, .held) => (s, .held)
    | (s, .noResponse) => (s, .gone)
  | .flash off => if s.flashBad.contains (off - off % 4) then (s, .error 2) else (s, .data (s.flashWord off))
  | .register a =>
    if size ≠ 2 ∨ !registerOpen c .rd a then (s, .error 2)
    else match s.readRegister a with
      | (s, w) => (s, .data w)
  | .peProgram off => if size ≠ 2 then (s, .error 2) else s.readPe off
  | .peData off => if size ≠ 2 ∨ 0x3C000 ≤ off then (s, .error 2) else s.readPe (0x40000 + off)
  | .peHistory off => if size ≠ 2 then (s, .error 2) else s.readPe (0x80000 + off)
  | .buffer off => (s, .data (s.bufferWord off))
  | .rom off => if priv = 2 then (s, .data (Config.bootRom (off / 4))) else (s, .error 2)
  | .backplane _ => (s, .error 2)
  | .nothing => (s, .error 2)

/-- Write at a target. -/
def State.writeTarget (s : State) (w : Writer) (c : Master) (part addr size : Nat) (v : Word) : State × WriteAnswer :=
  let answer := fun (r : State × Bool) => (r.1, if r.2 then WriteAnswer.done else .error 2)
  match s.target c addr with
  | .word k => s.storeWord c w.priv part k addr size v
  | .register a => if size ≠ 2 ∨ !registerOpen c .wr a then (s, .error 2) else answer (s.writeRegister w a v)
  | .peProgram off => if size ≠ 2 then (s, .error 2) else answer (s.writeProgram off v)
  | .peData off => if size ≠ 2 then (s, .error 2) else answer (s.writePeData off v)
  | .buffer off =>
    (s.putBuffer (off / 4 * 4) [mergeBytes (s.bufferWord off) (storeLanes addr v) (byteEnables addr size)], .done)
  | .flash _ | .peHistory _ | .rom _ | .backplane _ | .nothing => (s, .error 2)

end Sys2Proof.Machine
end

