-- ==== Sys2Proof/Machine/Debug.lean ====
section
/-!
DEFINITION. Halting debug and the service cores' watchdogs (02 R66 to R73, R77).
-/

namespace Sys2Proof.Machine

open Reg

/-! ### Halting -/

/-- The complex halts: at a retired-instruction count, with a cause (02 R67, R79; 08 R287). Causes, log entry 35: 1 command, 2
comparator, 3 BRK, 4 step. -/
def State.haltNow (s : State) (cause : Nat) : State :=
  let lo := s.cx.ric.toNat % 2 ^ 32
  let hi := s.cx.ric.toNat / 2 ^ 32
  let s := ((s.set CORE_DBGHRIC_LO_COUNT lo).set CORE_DBGHRIC_HI_COUNT hi).set CORE_DBGSTAT_STATE 2
  let s := (s.withCore fun b => { b with step := none, haltCause := 0 }).setBit CORE_STAT_HALTED true
  (s.emit 0x100A [lo, hi, cause]).haltedLine true

/-- A halt is requested: it is taken at the next boundary that allows it (02 R67). One that is still pending when the mode leaves STOP
or SERVICE waits until halting debug is available again (02 R66), DESIGN CHOICE, log entry 35. -/
def State.requestHalt (s : State) (cause : Nat) : State :=
  (s.withCore fun b => { b with haltCause := cause }).set CORE_DBGSTAT_STATE 1

/-- The first boundary that allows a pending halt (02 R67): not while an access of the complex is under way. -/
def execDebugHaltTaken (t : Nat) (s : State) : Host.Outcome State Fault Refusal :=
  let s := s.advance t
  if s.haltDue ∧ s.coreFree .cx ∧ s.atBoundary then .next (s.haltNow s.core.haltCause) else .next s

/-- A comparator matches (02 R72; 03 R118): instruction comparators 0 to 3 match the PC, data comparators 4 and 5 the word that
`access` names. -/
def execBreakpointMatch (t : Nat) (index : Fin 6) (access : Word) (s : State) : Host.Outcome State Fault Refusal :=
  let s := s.advance t
  let at_ := if index.val < 4 then s.cx.pc else access
  let hit := s.core.cmpSet.contains index.val && s.cx.special (0x200 + index.val) == at_
  if hit ∧ s.debugRefused.isNone ∧ s.executes .cx then
    .next (if s.haltOpen then s.haltNow 2 else s.requestHalt 2)
  else .next s

/-! ### The debug mailbox -/

/-- CORE_DBGSTAT.LOGUSED. -/
def State.showLog (s : State) : State := s.set CORE_DBGSTAT_LOGUSED s.core.dbgLog.length

/-- A refusal under R66: event 0x100C. -/
def State.debugRefusal (s : State) (cmd r : Nat) : State × Nat := (s.emit 0x100C [cmd, r, s.mode.code, s.lifeCycle], r)

/-- A command that needs the complex halted; one that writes needs halting debug available too (02 R66). DEDUCED: a running complex
refuses it by mode, log entry 35. -/
def State.whileHalted (s : State) (cmd : Nat) (writes : Bool) (act : State → State × Nat) : State × Nat :=
  match s.debugRefused with
  | some r => if writes then s.debugRefusal cmd r else if s.bit CORE_STAT_HALTED then act s else (s, 1)
  | none => if s.bit CORE_STAT_HALTED then act s else (s, 1)

/-- A command that changes core state: appended to the action log, unless it is full (02 R70). -/
def State.logged (s : State) (cmd index cseq : Nat) (value : DWord) (act : State → State) : State × Nat :=
  if 256 ≤ s.core.dbgLog.length then (s.emit 0x100D [cseq], 3)
  else
    let s := act s
    ((s.withCore fun b => { b with dbgLog := b.dbgLog ++ [⟨s.cx.ric, cmd, index, value⟩] }).showLog, 0)

/-- The debug data registers. -/
def State.debugData (s : State) : DWord := s.rd CORE_DBGDATA_HI ++ s.rd CORE_DBGDATA_LO

def State.returnData (s : State) (v : DWord) : State :=
  (s.wr CORE_DBGDATA_LO (v.setWidth 32)).wr CORE_DBGDATA_HI ((v >>> 32).setWidth 32)

/-- HALT. -/
def debugHalt (s : State) : State × Nat :=
  match s.debugRefused with
  | some r => s.debugRefusal 1 r
  | none => if s.bit CORE_STAT_HALTED then (s, 0) else (s.requestHalt 1, 0)

/-- The cores run again after a replay in which the signatures agree or one core is found odd (02 R71): event 0x100B; an exception that
the halt preceded is taken (03 R123). -/
def State.runAgain (s : State) : State :=
  let s := s.emit 0x100B [s.core.dbgLog.length, s.cx.ric.toNat % 2 ^ 32]
  let s := (s.withCore fun b => { b with dbgLog := [] }).showLog
  (((s.setBit CORE_STAT_HALTED false).set CORE_DBGSTAT_STATE 0).haltedLine false).takeDeferred .cx

/-- The replay of the action log before a resume or a step (02 R71): whether the cores run. DEDUCED: the disagreement of signatures
has no transaction, CORE_LASTA 0, log entry 35. -/
def State.replay (s : State) (o : ReplayOutcome) : State × Bool :=
  if s.get CORE_STAT_VOTE = 0 then
    match o with
    | .agree => (s.runAgain, true)
    | .differs c => (s.runAgain.outvote c.val 2 0 false none, true)
    | .allDiffer => (s.safeByVoter 5 0 false none, false)
  else
    match o with
    | .agree => (s.runAgain, true)
    | _ => (s.safeByVoter 6 0 false none, false)

/-- RESUME. -/
def debugResume (o : ReplayOutcome) (s : State) : State × Nat := s.whileHalted 2 false fun s => ((s.replay o).1, 0)

/-- STEP (02 R72): one instruction retires, then the cores halt again. A step lets the cores run and so emits event 0x100B as a resume
does, DESIGN CHOICE, log entry 35. -/
def debugStep (o : ReplayOutcome) (s : State) : State × Nat :=
  s.whileHalted 3 true fun s =>
    match s.replay o with
    | (s, true) => ((s.withCore fun b => { b with step := some s.cx.ric }).requestHalt 4, 0)
    | (s, false) => (s, 0)

/-- Register reads of the lead core (02 R68). The special registers an index of 5 bits names are 0x000 to 0x006 and 0x011 to 0x016. -/
def debugReadGp (i : RegNo) (s : State) : State × Nat := s.whileHalted 4 false fun s => (s.returnData ((s.cx.gpr i).setWidth 64), 0)

def debugReadFp (i : RegNo) (s : State) : State × Nat := s.whileHalted 6 false fun s => (s.returnData (s.cx.fpr i), 0)

def debugReadSpecial (i : RegNo) (s : State) : State × Nat :=
  s.whileHalted 8 false fun s =>
    if sprListed i.val then (s.returnData ((s.cx.special i.val).setWidth 64), 0) else (s, 6)

/-- Register writes (02 R70). -/
def debugWriteGp (i : RegNo) (cseq : Nat) (s : State) : State × Nat :=
  s.whileHalted 5 true fun s =>
    s.logged 5 i.val cseq s.debugData fun s => s.onCore .cx fun x => x.setGpr i (s.rd CORE_DBGDATA_LO)

def debugWriteFp (i : RegNo) (cseq : Nat) (s : State) : State × Nat :=
  s.whileHalted 7 true fun s => s.logged 7 i.val cseq s.debugData fun s => s.onCore .cx fun x => x.setFpr i s.debugData

def debugWriteSpecial (i : RegNo) (cseq : Nat) (s : State) : State × Nat :=
  s.whileHalted 9 true fun s =>
    if !sprListed i.val then (s, 6)
    else s.logged 9 i.val cseq s.debugData fun s => s.onCore .cx fun x => x.writeSpecial i.val (s.rd CORE_DBGDATA_LO)

/-- The address of a debug access touches a field of access RS while CORE_DBGCTL.RSOK = 0 (02 R69). -/
def State.rsRefused (s : State) (a : Nat) : Bool := hasSideEffect a && !s.bit CORE_DBGCTL_RSOK

/-- Debug load of a word (02 R69), at the executive's rights; `bus`: what a backplane window answers. A code word is refetched at
once. -/
def debugLoad (bus : Option Word) (s : State) : State × Nat :=
  s.whileHalted 10 false fun s =>
    let a := (s.rd CORE_DBGADDR).toNat
    if s.rsRefused a then (s, 4)
    else if a % 4 ≠ 0 then (s, 5)
    else match s.target .cx a with
      | .backplane _ => match bus with
        | some w => (s.returnData (w.setWidth 64), 0)
        | none => (s, 5)
      | _ => match s.readTarget (.block 1 s.cx.part) .cx 1 a 2 with
        | (s, .data w) => (s.returnData (w.setWidth 64), 0)
        | (s, _) => (s, 5)

/-- Debug store of a word (02 R69); `bus`: a backplane window takes it. -/
def debugStore (bus : Bool) (pkg : Option ChangePackage) (s : State) : State × Nat :=
  s.whileHalted 11 true fun s =>
    let a := (s.rd CORE_DBGADDR).toNat
    if s.rsRefused a then (s, 4)
    else if a % 4 ≠ 0 then (s, 5)
    else match s.target .cx a with
      | .backplane _ => (s, if bus then 0 else 5)
      | _ => match s.writeTarget ⟨false, 1, pkg⟩ .cx s.cx.part a 2 (s.rd CORE_DBGDATA_LO) with
        | (s, .done) => (s.flushMaster .cx, 0)
        | (s, _) => (s, 5)

/-- Comparators (02 R72). -/
def debugSetCmp (i cseq : Nat) (s : State) : State × Nat :=
  s.whileHalted 12 true fun s =>
    if 5 < i then (s, 6)
    else s.logged 12 i cseq ((s.rd CORE_DBGADDR).setWidth 64) fun s =>
      (s.withCore fun b => { b with cmpSet := i :: b.cmpSet.filter (· != i) }).onCore .cx fun x =>
        x.setSpecial (0x200 + i) (s.rd CORE_DBGADDR)

def debugClearCmp (i cseq : Nat) (s : State) : State × Nat :=
  s.whileHalted 13 true fun s =>
    if 5 < i then (s, 6)
    else s.logged 13 i cseq 0 fun s =>
      (s.withCore fun b => { b with cmpSet := b.cmpSet.filter (· != i) }).onCore .cx fun x => x.setSpecial (0x200 + i) 0

/-- The debug mailbox (02 R66 to R72). -/
def State.debugMailbox (s : State) (cseq : Nat) (act : State → State × Nat) : State :=
  s.mailbox CORE_DBGSEQ_LASTCMD CORE_DBGSTAT_RESULT cseq act

/-- A write of CORE_DBGCMD by the maintenance tool channel (02 R80). What a replay finds and what the backplane answers stand with the rows of their own: here the signatures
agree and a backplane window gives an error response, log entry 35. -/
def State.writeDebugCmd (s : State) (v : Word) (pkg : Option ChangePackage) : State :=
  let cseq := fieldGet v 16 16
  let i : RegNo := Fin.ofNat 32 (fieldGet v 8 5)
  s.debugMailbox cseq (match fieldGet v 0 4 with
    | 1 => debugHalt
    | 2 => debugResume .agree
    | 3 => debugStep .agree
    | 4 => debugReadGp i
    | 5 => debugWriteGp i cseq
    | 6 => debugReadFp i
    | 7 => debugWriteFp i cseq
    | 8 => debugReadSpecial i
    | 9 => debugWriteSpecial i cseq
    | 10 => debugLoad none
    | 11 => debugStore false pkg
    | 12 => debugSetCmp i.val cseq
    | 13 => debugClearCmp i.val cseq
    | _ => fun s => (s, 6))

def execDbgHalt (t cseq : Nat) (s : State) : Host.Outcome State Fault Refusal :=
  .next ((s.advance t).debugMailbox cseq debugHalt)

def execDbgResume (t cseq : Nat) (o : ReplayOutcome) (s : State) : Host.Outcome State Fault Refusal :=
  .next ((s.advance t).debugMailbox cseq (debugResume o))

def execDbgStep (t cseq : Nat) (o : ReplayOutcome) (s : State) : Host.Outcome State Fault Refusal :=
  .next ((s.advance t).debugMailbox cseq (debugStep o))

def execDbgReadGp (t cseq : Nat) (index : RegNo) (s : State) : Host.Outcome State Fault Refusal :=
  .next ((s.advance t).debugMailbox cseq (debugReadGp index))

def execDbgWriteGp (t cseq : Nat) (index : RegNo) (s : State) : Host.Outcome State Fault Refusal :=
  .next ((s.advance t).debugMailbox cseq (debugWriteGp index cseq))

def execDbgReadFp (t cseq : Nat) (index : RegNo) (s : State) : Host.Outcome State Fault Refusal :=
  .next ((s.advance t).debugMailbox cseq (debugReadFp index))

def execDbgWriteFp (t cseq : Nat) (index : RegNo) (s : State) : Host.Outcome State Fault Refusal :=
  .next ((s.advance t).debugMailbox cseq (debugWriteFp index cseq))

def execDbgReadSpecial (t cseq : Nat) (index : RegNo) (s : State) : Host.Outcome State Fault Refusal :=
  .next ((s.advance t).debugMailbox cseq (debugReadSpecial index))

def execDbgWriteSpecial (t cseq : Nat) (index : RegNo) (s : State) : Host.Outcome State Fault Refusal :=
  .next ((s.advance t).debugMailbox cseq (debugWriteSpecial index cseq))

def execDbgLoad (t cseq : Nat) (bus : Option Word) (s : State) : Host.Outcome State Fault Refusal :=
  .next ((s.advance t).debugMailbox cseq (debugLoad bus))

def execDbgStore (t cseq : Nat) (bus : Bool) (pkg : Option ChangePackage) (s : State) : Host.Outcome State Fault Refusal :=
  .next ((s.advance t).debugMailbox cseq (debugStore bus pkg))

def execDbgSetBreakpoint (t cseq : Nat) (index : RegNo) (s : State) : Host.Outcome State Fault Refusal :=
  .next ((s.advance t).debugMailbox cseq (debugSetCmp index.val cseq))

def execDbgClearBreakpoint (t cseq : Nat) (index : RegNo) (s : State) : Host.Outcome State Fault Refusal :=
  .next ((s.advance t).debugMailbox cseq (debugClearCmp index.val cseq))

/-! ### Service-core watchdogs (02 R77) -/

def execScWatchdogKick (t : Nat) (core : Fin 2) (key : Word) (s : State) : Host.Outcome State Fault Refusal :=
  .next ((s.advance t).kick core.val key)

/-- A service core not kicked for WDT ms: reset, CORE_SCSTAT.WDTn, event 0x1010. -/
def execScWatchdogExpiry (t : Nat) (core : Fin 2) (s : State) : Host.Outcome State Fault Refusal :=
  let s := s.advance t
  let n := s.get CORE_SCCTL_WDT
  let c : Master := if core.val = 0 then .sc0 else .sc1
  let since := if core.val = 0 then s.core.kick0 else s.core.kick1
  if n = 0 ∨ (s.coreOf c).stopped ∨ s.mono < since + n * 1000000 then .next s
  else
    let s := s.resetService c
    .next ((s.setBit (if core.val = 0 then CORE_SCSTAT_WDT0 else CORE_SCSTAT_WDT1) true).emit 0x1010 [core.val, n])

end Sys2Proof.Machine
end

