-- ==== Sys2Proof/Machine/ServiceCache.lean ====
section
/-!
DEFINITION. The data caches of the service cores (02 R74; 03 R98, R110). The manual gives which ranges they cache, that they do not
snoop, and CMO; when a word is kept, written back or replaced is a free value, log entry 42. What a fetch finds is CoreOps'.
-/

namespace Sys2Proof.Machine

/-- The word a core finds in its caches: first level, then second. -/
def State.cacheHit (s : State) (c : Master) (k : Nat) : Option CacheWord :=
  match s.cached (scIndex c) k with
  | some e => some e
  | none => s.cached secondLevel k

/-- Another word of a line that is filled: taken where the range is cacheable, the caches have it not and memory answers with data. -/
def State.fillWord (s : State) (r : Reader) (c : Master) (addr : Nat) : State :=
  match s.cacheKey c addr with
  | some k =>
    if (s.cacheHit c k).isSome || !s.wordReachable k then s
    else match s.readWord k r with
      | (s, .data w) => s.takeWord ⟨scIndex c, k, w, false⟩
      | (s, _) => s
  | none => s

/-- The rest of the line that holds `addr` is filled (03 R110; log entry 42). -/
def State.fillLine (s : State) (r : Reader) (c : Master) (addr : Nat) : State :=
  let size := 2 ^ Config.cacheLine
  (List.range size).foldl (fun (s : State) i => s.fillWord r c (addr / (4 * size) * (4 * size) + 4 * i)) s

/-- A load through the caches: a word they hold is not read from memory; one read is held with its line. -/
def State.cacheLoad (s : State) (r : Reader) (c : Master) (priv addr size k : Nat) : State × ReadAnswer :=
  let s := s.replaceCache c
  match s.cacheHit c k with
  | some e => (s, .data e.word)
  | none =>
    match s.readTarget r c priv addr size with
    | (s, .data w) => ((s.takeWord ⟨scIndex c, k, w, false⟩).fillLine r c addr, .data w)
    | answer => answer

/-- A store through the caches: whether it stays in the first level or goes to memory at once is a free value; bytes of a word the
caches do not hold go to memory. -/
def State.cacheStore (s : State) (w : Writer) (c : Master) (part addr size k : Nat) (v : Word) : State × WriteAnswer :=
  let s := s.replaceCache c
  let (f, s) := s.drawFree
  let be := byteEnables addr size
  match s.cacheHit c k with
  | some e =>
    let own : CacheWord := ⟨scIndex c, k, mergeBytes e.word (storeLanes addr v) be, e.dirty || f.getLsbD 0⟩
    let s := (s.uncache e.holder k).takeWord own
    if f.getLsbD 0 then (s, .done) else s.writeTarget w c part addr size v
  | none =>
    if f.getLsbD 0 ∧ be = 15#4 then (s.takeWord ⟨scIndex c, k, v, true⟩, .done) else s.writeTarget w c part addr size v

/-- The words of the line that holds key `k`, in the second level and in a first level of `c`, the second first. -/
def State.lineIn (s : State) (first k : Nat) : List CacheWord :=
  let line := s.core.cache.filter fun e => e.key / 2 ^ (Config.cacheLine + 2) == k / 2 ^ (Config.cacheLine + 2)
  line.filter (fun e => e.holder == secondLevel) ++ line.filter (fun e => e.holder == first)

/-- The data line that holds key `k`. -/
def State.cacheLine (s : State) (c : Master) (k : Nat) : List CacheWord := s.lineIn (scIndex c) k

/-- The instruction line that holds key `k`. The shared second level's words not yet written to memory are data and stay, DESIGN
CHOICE, log entry 42. -/
def State.instructionLine (s : State) (c : Master) (k : Nat) : List CacheWord := (s.lineIn (instructionLevel c) k).filter (!·.dirty)

/-- CMO on the line that holds `addr` (03 R98): 0 invalidates, 1 cleans, 2 cleans and invalidates the data line; 3 invalidates the
instruction line. -/
def State.cacheOperation (s : State) (c : Master) (op addr : Nat) : State :=
  match c, memoryKey (s.dramBank c) addr with
  | .cx, _ | _, none => s
  | _, some k =>
    let l := s.cacheLine c k
    let s := s.when (op == 1 || op == 2) fun s => l.foldl (fun (s : State) e => s.cleanWord c e) s
    let s := s.when (op == 0 || op == 2) fun s => l.foldl (fun (s : State) e => s.uncache e.holder e.key) s
    s.when (op == 3) fun s => (s.instructionLine c k).foldl (fun (s : State) e => s.uncache e.holder e.key) s

/-- LDL and STC act on the word in memory (03 R111 to R113): the caches write it back and drop it first. -/
def State.bypassCache (s : State) (c : Master) (addr : Nat) : State :=
  match s.cacheKey c addr with
  | some k => ((s.core.cache.filter fun e => e.key == k && (e.holder == secondLevel || e.holder == scIndex c)).foldl
      (fun (s : State) e => s.leaveCache c e false) s)
  | none => s

end Sys2Proof.Machine
end

