-- ==== Sys2Proof/Machine/CoreMem.lean ====
section
/-!
DEFINITION. Loads, stores, LDL, STC and PLD of the cores (03 R94, R95, R110 to R113), the end of a code refetch (04 R152), and a
write of a block register from outside the instruction stream (00 R3 to R6).
-/

namespace Sys2Proof.Machine

open Reg

/-- ea of an I-format access (03 R94). -/
def State.ea (s : State) (c : Master) (ra : RegNo) (imm : BitVec 16) : Nat := ((s.coreOf c).gpr ra + sext16 imm).toNat

/-- A misaligned access raises cause 5 (03 R114). -/
def State.aligned (s : State) (c : Master) (addr unit : Nat) (act : State → State) : State :=
  if addr % unit ≠ 0 then s.raiseHere c 5 0 (BitVec.ofNat 32 addr) else act s

/-! ### Loads -/

/-- Whether the access is half of a 64-bit one. -/
def LoadOp.double : LoadOp → Bool
  | .fld _ _ => true
  | _ => false

/-- One transaction of a load: checks, then the target (03 R87, R95, R115; 13 R443). -/
def State.loadPart (s : State) (c : Master) (op : LoadOp) (addr : Nat) : State × ReadAnswer :=
  let x := s.coreOf c
  match s.checkAccess c .rd addr (addr + 2 ^ op.size - 1) with
  | (s, some sub) => (s, .error sub)
  | (s, none) =>
    match s.target c addr with
    | .backplane _ =>
      match s.brgLoad c op addr with
      | (s, .data w) => (s, .data w)
      | (s, .held) => (s, .held)
      | (s, _) => (s, .error 2)
    | .register _ => if op.double then (s, .error 2) else s.readTarget (.load c x.priv x.part) c x.priv addr op.size
    | _ =>
      match op, s.cacheKey c addr with
      | .ldl _, _ => (s.bypassCache c addr).readTarget (.load c x.priv x.part) c x.priv addr op.size
      | _, some k => s.cacheLoad (.load c x.priv x.part) c x.priv addr op.size k
      | _, none => s.readTarget (.load c x.priv x.part) c x.priv addr op.size

/-- How a load goes on with its target's answer. -/
def State.endLoad (s : State) (c : Master) (op : LoadOp) (addr : Nat) (check : Bool) : ReadAnswer → State
  | .data w => s.receiveWord c op addr check w
  | .error sub => s.dataAccess c sub addr
  | .held => s.onCore c fun x => { x with wait := .load op addr }
  | .gone => s.onCore c fun x => { x with wait := .noResponse }

/-- A load; an FLD reads its low word, then its high word (03 R95). `bad`: a check error in the first and in the second word. -/
def State.load (s : State) (c : Master) (op : LoadOp) (addr : Nat) (bad : BitVec 2 := 0) : State :=
  match op, s.loadPart c op addr with
  | .fld fd none, (s, .data w) =>
    if bad.getLsbD 0 && c == .cx then s.endLoad c (.fld fd none) addr true (.data w)
    else match s.loadPart c (.fld fd (some w)) (addr + 4) with
      | (s, r) => s.endLoad c (.fld fd (some w)) (addr + 4) (bad.getLsbD 1) r
  | op, (s, r) => s.endLoad c op addr (bad.getLsbD 0) r

def execLoad (c : Reading) (k : LoadKind) (rd ra : RegNo) (imm : BitVec 16) (s : State) : Host.Outcome State Fault Refusal :=
  .next (s.instruction c.core fun s => s.aligned c.core (s.ea c.core ra imm) (2 ^ loadSize k) fun s =>
    s.load c.core (.gp k rd) (s.ea c.core ra imm) c.bad)

def execFlwFld (c : Reading) (double : Bool) (fd ra : RegNo) (imm : BitVec 16) (s : State) : Host.Outcome State Fault Refusal :=
  .next (s.instruction c.core fun s =>
    if double then s.aligned c.core (s.ea c.core ra imm) 8 fun s => s.load c.core (.fld fd none) (s.ea c.core ra imm) c.bad
    else s.aligned c.core (s.ea c.core ra imm) 4 fun s => s.load c.core (.flw fd) (s.ea c.core ra imm) c.bad)

/-! ### Stores -/

/-- Whether a store of core `c` meets a frozen output image of a task of its partition (03 R104). -/
def State.frozenAt (s : State) (c : Master) (addr : Nat) : Bool :=
  let x := s.coreOf c
  c == .cx && x.priv == 0 && match memoryKey (s.dramBank c) addr with
    | some k => (s.outputEntriesAt k).any fun i => (s.task (s.imTask i)).frozen && s.taskPart (s.imTask i) == x.part
    | none => false

/-- One transaction of a store: checks, then the target (03 R87, R95, R104, R115; 13 R444). -/
def State.storePart (s : State) (c : Master) (pkg : Option ChangePackage) (double : Bool) (addr size : Nat) (v : Word) :
    State × WriteAnswer :=
  let x := s.coreOf c
  match s.checkAccess c .wr addr (addr + 2 ^ size - 1) with
  | (s, some sub) => (s, .error sub)
  | (s, none) =>
    if s.frozenAt c addr then (s, .error 5)
    else match s.target c addr with
      | .backplane _ =>
        match s.brgStore c addr size v with
        | (s, .held) => (s, .held)
        | (s, .error) => (s, .error 2)
        | (s, _) => (s, .done)
      | .register _ =>
        if double then (s, .error 2)
        else s.writeTarget ⟨false, x.priv, pkg⟩ c x.part addr size v
      | _ =>
        match s.cacheKey c addr with
        | some k => s.cacheStore ⟨false, x.priv, pkg⟩ c x.part addr size k v
        | none => s.writeTarget ⟨false, x.priv, pkg⟩ c x.part addr size v

/-- How a store goes on with its target's answer; `rest`: the second word of an FSD. -/
def State.endStore (s : State) (c : Master) (addr : Nat) (rest : Option Word) : WriteAnswer → State
  | .done => s.finish c
  | .error sub => s.dataAccess c sub addr
  | .held => s.onCore c fun x => { x with wait := .store addr rest }

def storeSize : StoreKind → Nat
  | .sw => 2
  | .sh => 1
  | .sb => 0

def execStore (c : Master) (k : StoreKind) (rs ra : RegNo) (imm : BitVec 16) (pkg : Option ChangePackage) (s : State) :
    Host.Outcome State Fault Refusal :=
  .next (s.instruction c fun s => s.aligned c (s.ea c ra imm) (2 ^ storeSize k) fun s =>
    match s.storePart c pkg false (s.ea c ra imm) (storeSize k) ((s.coreOf c).gpr rs) with
    | (t, r) => t.endStore c (s.ea c ra imm) none r)

/-- FSD: the low word, then the high word at the next word address (03 R95). -/
def State.storeDouble (s : State) (c : Master) (pkg : Option ChangePackage) (addr : Nat) (v : DWord) : State :=
  match s.storePart c pkg true addr 2 (v.setWidth 32) with
  | (s, .done) =>
    match s.storePart c pkg true (addr + 4) 2 ((v >>> 32).setWidth 32) with
    | (s, r) => s.endStore c (addr + 4) none r
  | (s, r) => s.endStore c addr (some ((v >>> 32).setWidth 32)) r

def execFswFsd (c : Master) (double : Bool) (fs ra : RegNo) (imm : BitVec 16) (pkg : Option ChangePackage) (s : State) :
    Host.Outcome State Fault Refusal :=
  .next (s.instruction c fun s =>
    if double then s.aligned c (s.ea c ra imm) 8 fun s => s.storeDouble c pkg (s.ea c ra imm) ((s.coreOf c).fpr fs)
    else s.aligned c (s.ea c ra imm) 4 fun s =>
      match s.storePart c pkg false (s.ea c ra imm) 2 (((s.coreOf c).fpr fs).setWidth 32) with
      | (t, r) => t.endStore c (s.ea c ra imm) none r)

/-! ### LDL and STC -/

/-- An address LDL and STC accept: SRAM or the DRAM window (03 R111). -/
def linkable (addr : Nat) : Bool := decide (addr < 0x800000) || (decide (0x80000000 ≤ addr) && decide (addr < 0xC0000000))

/-- The checks LDL and STC share (03 R87, R111): the core's own, then subcause 7, with which nothing is presented, then the service
firewall. -/
def State.linked (s : State) (c : Master) (r : Right) (addr : Nat) (act : State → State) : State :=
  s.aligned c addr 4 fun s =>
    match s.coreCheck c r addr (addr + 3) with
    | (s, some sub) => s.dataAccess c sub addr
    | (s, none) =>
      if !linkable addr then s.dataAccess c 7 addr
      else match s.firewallCheck c r addr (addr + 3) with
        | (s, some sub) => s.dataAccess c sub addr
        | (s, none) => act s

def execLdl (c : Reading) (rd ra : RegNo) (s : State) : Host.Outcome State Fault Refusal :=
  .next (s.instruction c.core fun s =>
    let addr := ((s.coreOf c.core).gpr ra).toNat
    s.linked c.core .rd addr fun s => s.load c.core (.ldl rd) addr c.bad)

/-- STC at its word (03 R112, R113): performed only while the master holds the reservation; cleared in both outcomes. -/
def State.storeConditional (s : State) (c : Master) (rd : RegNo) (k : Nat) (v : Word) : State :=
  let s := s.flushWord k
  let held := s.memb.resv.contains (c, k)
  let s := s.when held fun s => (s.breakReservations k (some c)).writeBytes k 15#4 v (masterCode c) (s.coreOf c).part
  (s.clearReservation c).finishGp c rd (if held then 1 else 0)

def execStc (c : Master) (rd ra rb : RegNo) (s : State) : Host.Outcome State Fault Refusal :=
  .next (s.instruction c fun s =>
    let addr := ((s.coreOf c).gpr ra).toNat
    s.linked c .wr addr fun s =>
      if s.frozenAt c addr then s.dataAccess c 5 addr
      else match s.target c addr with
        | .word k => (s.bypassCache c addr).storeConditional c rd k ((s.coreOf c).gpr rb)
        | _ => s.dataAccess c 2 addr)

/-! ### PLD -/

/-- A prefetchable range of 01 R19, or a Bridle window marked prefetchable. -/
def State.prefetchable (s : State) (addr : Nat) : Bool :=
  decide (addr < 0x800000) || (decide (0x20000000 ≤ addr) && decide (addr < 0x40000000))
    || (decide (0x80000000 ≤ addr) && decide (addr < 0xC0000000)) || (decide (0xF0000000 ≤ addr) && decide (addr < 0xF0010000))
    || match s.brgWindow addr with
      | some n => s.bit (BRG_WnCTL_PREF n)
      | none => false

/-- The fetch-ahead of a PLD at the word that holds `addr` (03 R110): presented in a prefetchable range where the core's own checks
allow it. One the service firewall refuses is recorded (02 R75) and dropped. Flash and the boot ROM hold nothing a read changes. -/
def State.prefetch (s : State) (c : Master) (addr : Nat) : State :=
  let x := s.coreOf c
  if !s.prefetchable addr || (s.coreRefuses c .rd addr (addr + 3)).isSome then s
  else match s.firewallCheck c .rd addr (addr + 3) with
  | (s, some _) => s
  | (s, none) =>
    match s.target c addr with
    | .word _ =>
      match s.cacheKey c addr with
      | some k => (s.cacheLoad (.load c x.priv x.part) c x.priv addr 2 k).1
      | none => (s.readTarget (.load c x.priv x.part) c x.priv addr 2).1
    | .backplane _ => s.brgPrefetch c addr
    | _ => s

def execPld (c : Master) (ra : RegNo) (imm : BitVec 16) (s : State) : Host.Outcome State Fault Refusal :=
  .next (s.instruction c fun s => (s.prefetch c (s.ea c ra imm / 4 * 4)).finish c)

/-! ### The end of a code refetch (04 R152) -/

/-- A core held on the word goes on: its load is performed again, its fetch is presented again. `bad`: as for `State.load`. -/
def State.resumeWord (s : State) (k : Nat) (bad : BitVec 2) (c : Master) : State :=
  match (s.coreOf c).wait with
  | .load op addr =>
    if memoryKey (s.dramBank c) addr = some k then (s.onCore c fun x => { x with wait := .none }).load c op addr bad else s
  | .fetch addr => if memoryKey (s.dramBank c) addr = some k then s.onCore c fun x => { x with wait := .none } else s
  | _ => s

/-- A core held on a word whose refetch failed (04 R138, R143). -/
def State.failWord (s : State) (k : Nat) (c : Master) : State :=
  let x := s.coreOf c
  match x.wait with
  | .load _ addr =>
    if memoryKey (s.dramBank c) addr = some k then
      match s.badRead k (.load c x.priv x.part) with
      | (s, .noResponse) => s.onCore c fun x => { x with wait := .noResponse }
      | (s, _) => s.dataAccess c 4 addr
    else s
  | .fetch addr =>
    if memoryKey (s.dramBank c) addr = some k then
      match s.badRead k (.fetch c x.priv x.part) with
      | (s, .noResponse) => s.onCore c fun x => { x with wait := .noResponse }
      | (s, _) => s.raiseHeld c 3 4 x.pc
    else s
  | _ => s

/-- The oldest refetch ends. A word that was overwritten meanwhile needs none. -/
def State.endRefetch (s : State) (bad : BitVec 2) : State :=
  match s.memb.refetch with
  | [] => s
  | r :: rest =>
    let s := s.withMem fun m => { m with refetch := rest }
    let cores := [Master.cx, .sc0, .sc1]
    match classify (s.stored r.key) with
    | .uncorrectable =>
      match s.refetch r.key r.region 0 with
      | (s, some _) => cores.foldl (fun (s : State) c => s.resumeWord r.key bad c) s
      | (s, none) => cores.foldl (fun (s : State) c => s.failWord r.key c) s
    | _ => cores.foldl (fun (s : State) c => s.resumeWord r.key bad c) s

def execCodeRefetchComplete (r : RefetchEnd) (s : State) : Host.Outcome State Fault Refusal :=
  .next ((s.advance r.t).endRefetch r.bad)

/-! ### Register writes -/

/-- The registers the maintenance tool channel writes (11 R406). -/
def toolWritable : List Nat :=
  [CORE_DBGCMD, CORE_DBGADDR, CORE_DBGDATA_LO, CORE_DBGDATA_HI, CORE_DBGCTL, CYC_FCMD, CYC_FVID, CYC_FVAL_LO, CYC_FVAL_HI,
    REC_CMD, REC_NUM, REC_XADDR, REC_XLEN, BIST_MCMD, SYS_CMD, SYS_CARG0, SYS_CARG1, SYS_CARG2]

/-- A write to the register window by a core or the maintenance tool channel: false for an error response (00 R3; 01 R21). -/
def State.busWrite (s : State) (user : BusUser) (size addr : Nat) (v : Word) (pkg : Option ChangePackage) : State × Bool :=
  if (regInfo addr).isNone ∨ size ≠ 2 then (s, false)
  else match user with
    | .tool =>
      if !toolWritable.contains addr then (s, false)
      else if addr = CORE_DBGCMD then (s.writeDebugCmd v pkg, true) else s.writeRegister ⟨true, 1, pkg⟩ addr v
    | .core c =>
      match s.checkAccess c .wr addr (addr + 3) with
      | (s, some _) => (s, false)
      | (s, none) =>
        if !registerOpen c .wr addr then (s, false)
        else s.writeRegister ⟨false, (s.coreOf c).priv, pkg⟩ addr v

def execRegisterWrite (t : Nat) (user : BusUser) (size : Fin 4) (addr value : Word) (pkg : Option ChangePackage) (s : State) :
    Host.Outcome State Fault Refusal :=
  match (s.advance t).busWrite user size.val addr.toNat value pkg with
  | (s, ok) => .next { s with busError := !ok }

end Sys2Proof.Machine
end

