-- ==== Sys2Proof/Machine/CoreSys.lean ====
section
/-!
DEFINITION. The system operations of the cores (03 R98, R101 to R109, R118 to R122): calls, breakpoint, return, special registers,
barriers, time, cycle wait and image commit, interrupts.
-/

namespace Sys2Proof.Machine

open Reg

/-- An instruction word that is no defined encoding, or is refused as illegal (03 R114). -/
def State.illegal (s : State) (c : Master) (w : Word) : State := s.raiseHere c 1 0 w

/-- A privilege violation (03 R114). -/
def State.privilege (s : State) (c : Master) (w : Word) : State := s.raiseHere c 2 0 w

/-- An exception that retires its instruction first (03 R123): EPC is the next instruction. -/
def State.raiseAfter (s : State) (c : Master) (cause sub : Nat) (w : Word) : State :=
  let next := (s.coreOf c).pc + 4
  (s.onCore c CoreState.count).raise c cause sub next w

/-! ### Calls and breakpoint -/

/-- SYS (03 R98; 15 R503). DEDUCED: code 0x7FE on the complex demands SAFE at every privilege, log entry 39. -/
def State.sysCall (s : State) (c : Master) (code : BitVec 11) : State :=
  let cause := if (s.coreOf c).priv = 0 then 10 else 13
  let s := s.raiseAfter c cause 0 (wordY 0 0 code.toNat 0)
  s.when (code == 0x7FE#11 && c == .cx) fun s => s.sysDemand 8 0

def execSys (c : Master) (code : BitVec 11) (s : State) : Host.Outcome State Fault Refusal :=
  .next (s.instruction c fun s => s.sysCall c code)

def execSysSafeCall (c : Master) (s : State) : Host.Outcome State Fault Refusal :=
  .next (s.instruction c fun s => s.sysCall c 0x7FE#11)

/-- The monitor call SYS 0x7FF from its entry to its return (15 R505, R506): a core slice runs if the next tick edge is at least 45 µs
away. The count of the monitor's instructions is a free value, log entry 39. -/
def State.sliceCall (s : State) : State :=
  let s := s.raiseAfter .cx 13 0 (wordY 0 0 0x7FF 0)
  let runs := s.mode.slices && decide (s.mono + 45000 ≤ (s.tick + 1) * 125000)
  let s := s.when runs State.coreSlice
  let (n, s) := s.drawFree
  let s := s.onCore .cx fun x => { x.setGpr 1 (if runs then 1 else 0) with ric := x.ric + n.setWidth 64 }
  s.returnFrom .cx true

def execBistCoreSliceCall (t : Nat) (s : State) : Host.Outcome State Fault Refusal :=
  .next ((s.advance t).instruction .cx fun s => if s.cx.priv = 1 then s.sliceCall else s.sysCall .cx 0x7FF#11)

/-- BRK (03 R118): halts where halting debug is available, else cause 11. -/
def execBrk (c : Master) (code : BitVec 11) (s : State) : Host.Outcome State Fault Refusal :=
  .next (s.instruction c fun s =>
    if c == .cx && s.debugRefused.isNone then (if s.haltOpen then s.haltNow 3 else s.requestHalt 3)
    else s.raiseAfter c 11 0 (wordY 0 0 code.toNat 1))

/-- ERET (03 R120). -/
def execEret (c : Master) (s : State) : Host.Outcome State Fault Refusal :=
  .next (s.instruction c fun s =>
    let x := s.coreOf c
    if x.priv = 0 ∨ x.priv < x.sprField (sprESTAT (x.priv == 2)) 0 2 then s.privilege c (wordY 0 0 0 2)
    else s.returnFrom c (x.priv == 2))

/-! ### Special registers -/

/-- Who reads a special register (03 R84): the lowest privilege; none for no one. R84 names the illegal instruction for an MTS to a
register no one writes; that an MFS of one no one reads (DBGCMP0 to DBGCMP5) raises it too is a DESIGN CHOICE, log entry 40. -/
def sprReadLevel (n : Nat) : Option Nat :=
  if !sprListed n ∨ 0x200 ≤ n then none
  else if n = sprSTATUS ∨ n = sprFPSR ∨ n = sprTASK ∨ n = sprRIC_LO ∨ n = sprRIC_HI ∨ n = sprTSHI then some 0
  else if 0x011 ≤ n ∧ n ≤ 0x016 then some 2
  else some 1

/-- Who writes a special register (03 R84). -/
def sprWriteLevel (n : Nat) : Option Nat :=
  if !sprListed n ∨ 0x200 ≤ n ∨ n = sprIPEND ∨ n = sprRIC_LO ∨ n = sprRIC_HI ∨ n = sprTSHI then none
  else if n = sprFPSR then some 0
  else if n = sprEVBASE ∨ (0x011 ≤ n ∧ n ≤ 0x016) then some 2
  else some 1

/-- The interrupt lines the manual's conditions hold (03 R121; 04 R153; 05 R170, R171; 09 R328; 11 R386; 13 R442, R452). -/
def State.linesHeld (s : State) (c : Master) : Nat :=
  [(16, s.cyc.line16), (17, s.get CYC_BUDEXP_TASK != 0), (18, !s.brg.wef.isEmpty), (19, (s.coreOf c).tline),
    (20, !s.memb.pq.isEmpty), (22, s.get NET_RXPTR_HEAD != s.get NET_RXPTR_TAIL), (24, s.brgLine),
    (28, s.bit REC_STAT_NEW || s.bit REC_STAT_DONE)].foldl (fun w e => if e.2 then w + 2 ^ e.1 else w) 0

/-- The lines for which the manual names a source but not when it holds them: 21, 22, 23, 25, 26, 27, 29, 30; each is a free value
where no condition holds it, log entry 40. -/
def openLines : Word := 0x6EE00000#32

/-- IPEND (03 R84, R121). -/
def State.ipend (s : State) (c : Master) : State × Word :=
  let (v, s) := s.drawFree
  (s, BitVec.ofNat 32 (s.linesHeld c) ||| (v &&& openLines))

/-- The value of a special register as MFS reads it (03 R84): RIC_LO latches RIC_HI. -/
def State.readSpecial (s : State) (c : Master) (n : Nat) : State × Word :=
  let x := s.coreOf c
  if n = sprIPEND then s.ipend c
  else if n = sprRIC_LO then
    (s.onCore c fun x => x.setSpecial sprRIC_HI ((x.ric >>> 32).setWidth 32), x.ric.setWidth 32)
  else (s, x.special n)

def execMfs (c : Master) (rd : RegNo) (spec : BitVec 11) (s : State) : Host.Outcome State Fault Refusal :=
  .next (s.instruction c fun s =>
    match sprReadLevel spec.toNat with
    | none => s.illegal c (wordY rd 0 spec.toNat 3)
    | some l =>
      if (s.coreOf c).priv < l then s.privilege c (wordY rd 0 spec.toNat 3)
      else match s.readSpecial c spec.toNat with
        | (s, v) => s.finishGp c rd v)

def execMts (c : Master) (spec : BitVec 11) (ra : RegNo) (s : State) : Host.Outcome State Fault Refusal :=
  .next (s.instruction c fun s =>
    match sprWriteLevel spec.toNat with
    | none => s.illegal c (wordY 0 ra spec.toNat 4)
    | some l =>
      if (s.coreOf c).priv < l then s.privilege c (wordY 0 ra spec.toNat 4)
      else (s.onCore c fun x => x.writeSpecial spec.toNat (x.gpr ra)).finish c)

/-! ### Barriers -/

/-- What BAR.M, BAR.W and IMC do first (03 R107; 04 R145; 13 R454). Whether on a service core they also write back the dirty words of
its data cache, the manual leaves open: here they stay in the cache, DESIGN CHOICE, log entry 42. -/
def State.barrier (s : State) (c : Master) : State := (s.flushMaster c).barrierAhead

def execBarM (c : Master) (s : State) : Host.Outcome State Fault Refusal :=
  .next (s.instruction c fun s => (s.barrier c).onCore c fun x => { x with wait := .barM })

/-- A core goes on from its wait. -/
def CoreState.resume (x : CoreState) : CoreState := { x with wait := .none }.retire

/-- A core that waits at an instruction may complete it: free, and no halt due. -/
def State.mayComplete (s : State) (c : Master) : Bool := s.coreFree c && (c != .cx || !s.haltDue)

/-- BAR.M completes: the merge buffer holds no word of the master (03 R107). -/
def execBarMComplete (c : Master) (s : State) : Host.Outcome State Fault Refusal :=
  if (s.coreOf c).wait == .barM && s.mayComplete c && !(s.memb.merge.any fun e => e.owner == c) then
    .next (s.onCore c CoreState.resume)
  else .next s

/-- The windows and stations with untracked writes of a partition. -/
def State.openWindows (s : State) (part : Nat) : List Nat := ((s.openOf part).map (·.win)).eraseDups

def execBarW (c : Master) (rd : RegNo) (s : State) : Host.Outcome State Fault Refusal :=
  .next (s.instruction c fun s =>
    let s := s.barrier c
    let s := (s.openWindows (s.coreOf c).part).foldl State.flushWindow s
    s.onCore c fun x => { x with wait := .barW rd })

/-- BAR.W completes once every posted write of the partition has completed or failed (03 R108); the count of failures starts again. -/
def execBarWComplete (c : Master) (s : State) : Host.Outcome State Fault Refusal :=
  let x := s.coreOf c
  match x.wait with
  | .barW rd =>
    if s.mayComplete c && (s.openOf x.part).isEmpty then
      let n := s.rd (bank BRG_PWFAIL x.part)
      .next ((s.set (BRG_PWFAIL_COUNT.at x.part) 0).onCore c fun x => (x.setGpr rd n).resume)
    else .next s
  | _ => .next s

/-! ### Time -/

/-- The MONO of a snapshot (03 R106): one crossing before the issue, rising from snapshot to snapshot. Where it lies in the crossing
is a free value, log entry 41. -/
def State.snapInstant (s : State) (c : Master) : State × Nat :=
  let (v, s) := s.drawFree
  let m := min (max ((s.coreOf c).snapAt + 1) (s.mono - 4 - v.toNat % 4)) (s.mono - 4)
  (s.onCore c fun x => { x with snapAt := m }, m)

def execTrd (t : Nat) (c : Master) (rd ra : RegNo) (s : State) : Host.Outcome State Fault Refusal :=
  .next ((s.advance t).instruction c fun s =>
    if rd = ra then s.illegal c (wordY rd ra 0 7)
    else match s.snapInstant c with
      | (s, m) => s.onCore c fun x => ((x.setGpr rd (BitVec.ofNat 32 m)).setGpr ra (BitVec.ofNat 32 (m / 2 ^ 32))).retire)

/-- SYNC in ns at MONO `m` (11 R392). -/
def State.syncNs (s : State) (m : Nat) : Nat :=
  (((s.sync : Int) + ((m : Int) - s.mono) * ((2 : Int) ^ 32 + s.sget ⟨TIME_RATE, 0, 32⟩)) / 2 ^ 32).toNat

/-- The SYNC a TRS returns at the snapshot's MONO `m`, in ns: above that of a TRS that issued earlier (03 R106). -/
def State.syncSnapshot (s : State) (c : Master) (m : Nat) : Nat :=
  let x := s.coreOf c
  if x.trsAt < s.mono then max (s.syncNs m) (x.trsNs + 1) else max (s.syncNs m) x.trsNs

/-- TRS (03 R105): TSHI holds the seconds [47:32] and NOACQ. -/
def execTrs (t : Nat) (c : Master) (rd ra : RegNo) (s : State) : Host.Outcome State Fault Refusal :=
  .next ((s.advance t).instruction c fun s =>
    if rd = ra then s.illegal c (wordY rd ra 0 8)
    else match s.snapInstant c with
      | (s, m) =>
        let ns := s.syncSnapshot c m
        let sec := ns / 1000000000
        let hi := sec / 2 ^ 32 % 2 ^ 16 + if s.bit TIME_STAT_NOACQ then 2 ^ 31 else 0
        s.onCore c fun x =>
          ((({ x with trsAt := s.mono, trsNs := ns }.setGpr rd (BitVec.ofNat 32 (ns % 1000000000))).setGpr ra (BitVec.ofNat 32 sec)).setSpecial
            sprTSHI (BitVec.ofNat 32 hi)).retire)

/-! ### CYW and IMC -/

/-- A cycle error (03 R102, R104). -/
def State.cycleError (s : State) (c : Master) (sub : Nat) (w : Word) : State := s.raiseHere c 14 sub w

/-- CYC records a task as waiting in CYW (03 R101); CYC_TnUSED shows its cycle's charge. -/
def State.taskWaits (s : State) (n : Nat) : State :=
  let s := s.charge
  let s := s.setBit (CYC_TnSTAT_WAIT n) true
  match (s.task n).cycle with
  | some c => s.set (CYC_TnUSED_USED n) (min (c.charge / 100) 0xFFFFFF)
  | none => s

/-- CYW (03 R101, R102; 02 R76). -/
def execCyw (c : Master) (rd : RegNo) (s : State) : Host.Outcome State Fault Refusal :=
  .next (s.instruction c fun s =>
    let x := s.coreOf c
    let w := wordY rd 0 0 9
    if c != .cx then s.illegal c w
    else if x.priv = 2 then s.cycleError c 3 w
    else if x.priv = 1 then s.onCore c fun x => { x with wait := .cyw rd }
    else if x.taskValid then (s.taskWaits x.taskIndex).raiseAfter c 12 0 w
    else s.cycleError c 1 w)

/-- The executive's CYW ends at the dispatch interrupt (03 R102; 05 R171): the mask, and the line is released. -/
def execCywExecutiveReturn (c : Master) (s : State) : Host.Outcome State Fault Refusal :=
  match (s.coreOf c).wait with
  | .cyw rd =>
    if s.mayComplete c && s.cyc.line16 then
      let s := s.withCyc fun b => { b with line16 := false }
      .next (s.onCore c fun x => (x.setGpr rd (s.rd CYC_DISP &&& 0xFFFF#32)).resume)
    else .next s
  | _ => .next s

/-- The commit request of a task at CYC (03 R103, R104): its status. -/
def State.commit (s : State) (n : Nat) : State × Word :=
  let s := s.setBit (CYC_TnSTAT_NEW n) false
  match (s.task n).cycle with
  | none => (s, 2)
  | some y =>
    if !s.bit CYC_STAT_RUN then (s, 2)
    else if s.bit (CYC_TnSTAT_COMMIT n) then (s, 1)
    else if y.release ≤ s.tick then (s.emit 0x3003 [n, s.tick % 2 ^ 32], 2)
    else
      let s := (s.setBit (CYC_TnSTAT_COMMIT n) true).onTask n fun t => { t with frozen := true }
      (s.sendState n y.release, 0)

/-- IMC (03 R103, R104; 02 R76). -/
def execImc (c : Master) (rd : RegNo) (s : State) : Host.Outcome State Fault Refusal :=
  .next (s.instruction c fun s =>
    let x := s.coreOf c
    let w := wordY rd 0 0 10
    if c != .cx then s.illegal c w
    else if x.priv ≠ 0 then s.cycleError c 2 w
    else if !x.taskValid then s.cycleError c 1 w
    else match (s.barrier c).commit x.taskIndex with
      | (s, v) => s.finishGp c rd v)

/-- CMO (03 R98). The complex has no caches. -/
def execCmo (c : Master) (op : BitVec 11) (ra : RegNo) (s : State) : Host.Outcome State Fault Refusal :=
  .next (s.instruction c fun s =>
    let w := wordY 0 ra op.toNat 11
    if 3 < op.toNat then s.illegal c w
    else if (s.coreOf c).priv = 0 then s.privilege c w
    else (s.cacheOperation c op.toNat ((s.coreOf c).gpr ra).toNat).finish c)

/-! ### Interrupts -/

/-- A step is under way (02 R72). -/
def State.stepping (s : State) (c : Master) : Bool := c == .cx && s.core.step.isSome && s.get CORE_DBGSTAT_STATE == 1 && s.haltOpen

/-- An interrupt can be taken here (03 R109, R122, R123): an instruction boundary, or a BAR.W or an executive's CYW that waits. During
a step none is taken: R72 has it retire one instruction and names no interrupt, DESIGN CHOICE, log entry 35. -/
def State.interruptible (s : State) (c : Master) : Bool :=
  let x := s.coreOf c
  let boundary := match x.wait with
    | .none => s.executes c
    | .cyw _ | .barW _ => s.mayComplete c
    | _ => false
  boundary && !s.stepping c && x.ie && decide (x.priv ≤ 1) && !x.exle

/-- The fetch at PC raises an exception, which precedes an interrupt at the same boundary (03 R123). -/
def State.fetchRaises (s : State) (c : Master) : Bool :=
  (s.coreOf c).wait == .none && match (s.fetch c).2 with
    | .exception _ => true
    | _ => false

/-- The lowest line in IPEND and IMASK (03 R122); line 16 ends an executive's CYW and does not interrupt it (03 R102). -/
def takenLine (x : CoreState) (pend : Word) : Option Nat :=
  let w := pend &&& x.special sprIMASK
  let cyw := match x.wait with
    | .cyw _ => true
    | _ => false
  ((List.range 16).map (· + 16)).find? fun i => w.getLsbD i && !(cyw && i == 16)

/-- An interrupt is taken (03 R119, R122). -/
def execInterruptTaken (c : Master) (s : State) : Host.Outcome State Fault Refusal :=
  if !s.interruptible c then .next s
  else if s.fetchRaises c then .next (s.instruction c id)
  else match s.ipend c with
    | (s, pend) =>
      match takenLine (s.coreOf c) pend with
      | some i => .next (s.raise c i 0 (s.coreOf c).pc 0)
      | none => .next s

/-- MONO reaches TCMP while the compare is armed (03 R121). -/
def execTcmpMatch (c : Master) (t : Nat) (s : State) : Host.Outcome State Fault Refusal :=
  let s := s.advance t
  let x := s.coreOf c
  let at_ := (x.special sprTCMP_LO).toNat + (x.special sprTCMP_HI).toNat * 2 ^ 32
  if x.tarmed ∧ at_ ≤ s.mono then .next (s.onCore c fun x => { x with tline := true }) else .next s

end Sys2Proof.Machine
end

