-- ==== Sys2Proof/Machine/Maint.lean ====
section
/-!
DEFINITION. The maintenance tool channel (11 R406).
-/

namespace Sys2Proof.Machine

open Reg

/-- A session is refused (11 R406): event 0x800F. The key index of a signature no key made is a free value. -/
def State.refuseSession (s : State) (reason : Nat) (key : Option Nat) : State :=
  let s := s.withNet fun b => { b with session := .closed, refusedAt := some s.mono }
  match key with
  | some k => s.emit 0x800F [reason, k]
  | none =>
    let (v, s) := s.drawFree
    s.emit 0x800F [reason, v.toNat]

/-- A session opens (11 R406): event 0x800E. DEDUCED: its first datagram carries a number after 0, log entry 37. -/
def State.openSession (s : State) (mac ip key : Nat) : State :=
  let s := s.withNet fun b => { b with session := .open_ mac ip key 0 s.mono }
  ((s.setBit NET_STAT_SESS true).set NET_STAT_KEY key).emit 0x800E [key, ip]

/-- A register access of the tool (11 R406): every register but fields of access RS is read. -/
def State.toolAccess (s : State) (addr : Nat) : Option Word → State
  | some v =>
    match s.busWrite .tool 2 addr v none with
    | (s, ok) => { s with busError := !ok }
  | none =>
    match s.peek addr with
    | some w =>
      if addr % 4 ≠ 0 then { s with busError := true }
      else { s with busData := w &&& ~~~maskOf (fun x => x == .rs) addr, busError := false }
    | none => { s with busError := true }

/-- The CRC-32C of a datagram: over its number, its address and the word it writes. DESIGN CHOICE: the manual gives no layout, log entry
37. -/
def maintCrc (seq addr : Nat) (write : Option Word) : Nat := crcWords ([BitVec.ofNat 32 seq, BitVec.ofNat 32 addr] ++ write.toList)

/-- Free words, each drawn in turn. -/
def State.drawWords : Nat → State → State × List Word
  | 0, s => (s, [])
  | n + 1, s =>
    let (w, s) := s.drawFree
    let (s, l) := State.drawWords n s
    (s, w :: l)

/-- A datagram on UDP port 47 810 of port 2 (11 R406): the nonce issued is a free value; the answer's key is one of the configuration. -/
def State.maintDatagram (s : State) (mac ip : Nat) (d : MaintDatagram) : State :=
  match s.net.session, d with
  | .open_ m i key last _, .access seq crc addr write =>
    if m ≠ mac ∨ i ≠ ip ∨ crc ≠ maintCrc seq addr write ∨ !after32 seq last then s
    else
      let s := s.withNet fun b => { b with session := .open_ m i key (seq % 2 ^ 32) s.mono }
      s.toolAccess addr write
  | .closed, .request =>
    let (s, nonce) := State.drawWords 8 s
    s.withNet fun b => { b with session := .challenged mac ip nonce s.mono }
  | .challenged m i _ issued, .answer key =>
    if m ≠ mac ∨ i ≠ ip then s
    else if issued + 5000000000 < s.mono then s.refuseSession 2 (key.map (·.val))
    else match key.filter fun k => decide (k.val < s.net.keys.length) with
      | some k => s.openSession mac ip k.val
      | none => s.refuseSession 1 none
  | _, _ => s

def execMaintDatagram (t mac ip : Nat) (d : MaintDatagram) (s : State) : Host.Outcome State Fault Refusal :=
  let s := s.advance t
  .next (if s.get (NET_PnCFG_SPEED 2) = 0 then s else s.maintDatagram mac ip d)

/-- 60 s without a datagram close the session; 5 s without an answer end the challenge (11 R406). -/
def State.maintTimeout (s : State) : State :=
  match s.net.session with
  | .open_ _ _ _ _ at_ => if at_ + 60000000000 ≤ s.mono then s.endSession 3 else s
  | .challenged _ _ _ issued => if issued + 5000000000 < s.mono then s.refuseSession 2 none else s
  | .closed => s

def execMaintSessionTimeout (t : Nat) (s : State) : Host.Outcome State Fault Refusal := .next (s.advance t).maintTimeout

end Sys2Proof.Machine
end

