-- ==== Sys2Proof/Machine/RecEvent.lean ====
section
/-!
DEFINITION. An emitted event reaches REC (09 R320 to R323): number, rate limiter, companion record of a snapshot set.
-/

namespace Sys2Proof.Machine

open Reg

/-- One value of a snapshot set (09 R323): an error response gives 0 and event 0xC00F. -/
def State.snapshotValue (set : Nat) (acc : State × List Nat) (slot : Nat × Nat) : State × List Nat :=
  match acc.1.peek slot.2 with
  | some w => (acc.1, acc.2 ++ [w.toNat])
  | none => (acc.1.emit 0xC00F [set, slot.1, slot.2], acc.2 ++ [0])

/-- The companion record of a code with a snapshot set (09 R323). DEDUCED: the values of the used slots stand next to each other in
slot order, log entry 13. -/
def State.companion (s : State) (code set : Nat) : State :=
  let slots := s.snapshotSlots set
  if slots.isEmpty then s
  else match slots.foldl (State.snapshotValue set) (s, []) with
    | (s, vals) => (s.queueRecord code (s.mkRecord code vals 0 set true)).1

/-- An event reaches REC (09 R322): the record carries the suppressed count, which returns to 0 only if the record found a place;
so does the companion of R323 follow only a record. -/
def State.recordEvent (s : State) (e : Event) : State :=
  match s.limiter e.code with
  | none => (s.queueRecord e.code (s.mkRecord e.code e.vals 0 0 false)).1
  | some i =>
    match s.takeToken i with
    | (s, none) => s
    | (s, some supp) =>
      match s.queueRecord e.code (s.mkRecord e.code e.vals supp 0 false) with
      | (s, false) => s
      | (s, true) => (s.clearSupp i).companion e.code (s.get ⟨bank REC_RLDAT0 i, REC_RLDAT0_SET.lo, REC_RLDAT0_SET.w⟩)

def execRecEventReceive (t : Nat) (s : State) : Host.Outcome State Fault Refusal :=
  let s := s.advance t
  match s.emitted with
  | [] => .next s
  | e :: rest => .next ({ s with emitted := rest }.recordEvent e)

end Sys2Proof.Machine
end

