-- ==== Sys2Proof/Machine/Start.lean ====
section
/-!
DEFINITION. Supply, reset and the start of the module (15 R494 to R504; 04 R157; 09 R325, R326, R336; 16 R539).
-/

namespace Sys2Proof.Machine

open Reg

/-! ### Supply and reset -/

/-- A reset by command or for repairs takes effect once the events before it are in flash (15 R546 cause 11, R547). -/
def execModuleReset (t : Nat) (s : State) : Host.Outcome State Fault Refusal :=
  let s := s.advance t
  .next (if s.sys.resetting && s.emitted.isEmpty && s.recb.queue.isEmpty then s.moduleReset false else s)

/-- The rails fall out of regulation (15 R494, R546; 16 R527). -/
def execRailsOutOfRegulation (t : Nat) (s : State) : Host.Outcome State Fault Refusal :=
  .next ((s.advance t).moduleReset true)

/-- REC takes a valid saved copy over (09 R325): records above the highest number in flash, RESTORED = 1. -/
def State.restoreRecords (s : State) : State :=
  match s.recb.saved with
  | none => s
  | some (l, held) =>
    let high := s.ringHighest
    let fresh := l.filter fun r => decide (high < r.number)
    let s := fresh.foldl (fun (s : State) r => s.ringWrite { r with flags := Nat.lor r.flags 0x20 }) s
    let s := s.withRec fun b => { b with saved := none }
    let s := (s.set REC_ENUM_NUM s.ringHighest).set REC_SEQ_LASTEVT s.ringHighest
    let s := match fresh with
      | r :: _ => s.emit 0xC00E [fresh.length, r.number]
      | [] => s
    if held = 0 then s else (s.inc REC_DLOSS_PWR held).emit 0xC009 [held]

/-- REC at power-good: counters, the frozen state, the numbers and the wear come from MRAM and flash (09 R321, R326, R336, R340,
R343). -/
def State.recStart (s : State) (lost : Bool) : State :=
  let (s, ops) := s.moduleRead opsecAt
  let (s, saved) := s.moduleRead powerCyclesAt
  let cycles := min (saved.toNat + lost.toNat) 0xFFFFFFFF
  let s := (s.set REC_PWRCYC_COUNT cycles).moduleWrite powerCyclesAt (BitVec.ofNat 32 cycles)
  let s := s.withRec fun b => { b with opsBase := ops.toNat, opsFrom := some s.mono }
  let s := (s.setBit REC_STAT_FROZEN (s.recb.savedFrost != 0)).set REC_STAT_FSRC s.recb.savedFrost
  let s := s.set REC_ENUM_NUM s.ringHighest
  let s := s.set REC_DNUM_NUM (s.recb.stored.foldl (fun m d => max m d.capture.number) 0)
  ((s.set REC_SEQ_LASTEVT (s.get REC_ENUM_NUM)).restoreRecords).showWear

/-- Power-good (15 R494, R495, R547): BOOT begins; MEM applies the repair log (04 R157), SYS_BOOT shows
the boot record (R515), REC restores. A reset without loss of supply
lasts 1 ms. -/
def execPowerGood (t : Nat) (s : State) : Host.Outcome State Fault Refusal :=
  let s := s.advance t
  if s.mode ≠ .powerup ∨ (!s.sys.supplyLost ∧ s.mono < 1000000) then .next s
  else
    let lost := s.sys.supplyLost
    let s := s.withSys fun b => { b with supplyLost := false, phaseAt := some s.mono }
    .next ((s.applyRepairs.loadBoot.recStart lost).toMode .boot 1)

/-- Supply below 16.0 V for 100 µs (15 R494; 09 R325, R326, R336). -/
def execPowerFailureSignal (t mv : Nat) (s : State) : Host.Outcome State Fault Refusal :=
  let s := s.advance t
  if s.mode = .powerup ∨ s.bit SYS_STAT_PFAIL ∨ 16000 ≤ mv then .next s
  else
    let s := ((s.setBit SYS_STAT_PFAIL true).emit 0xE008 [mv]).saveCounters
    .next (s.withRec fun b => { b with saved := some (b.queue, b.captures.length), opsBase := s.opsec, opsFrom := none })

/-- Supply back at 16.8 V with the rails in regulation (15 R494; 09 R325). -/
def execPowerFailureClear (t mv : Nat) (s : State) : Host.Outcome State Fault Refusal :=
  let s := s.advance t
  if s.bit SYS_STAT_PFAIL ∧ 16800 ≤ mv then
    .next ((s.setBit SYS_STAT_PFAIL false).withRec fun b => { b with saved := none, opsFrom := some s.mono })
  else .next s

/-- The sample of the module supply, once every 1 ms (15 R548). -/
def execSupplySample (t mv : Nat) (s : State) : Host.Outcome State Fault Refusal :=
  let s := s.advance t
  let due := match s.sys.supplyAt with
    | some m => decide (m + 1000000 ≤ s.mono)
    | none => true
  .next (s.when due fun s => (s.set SYS_SUPPLY_MV (min mv 0xFFFF)).withSys fun b => { b with supplyAt := some s.mono })

/-! ### BOOT -/

/-- The boot ROM looks at the trial (15 R515): the slot to start, false A, true B. -/
def State.chooseSlot (s : State) : State × Bool :=
  let act := s.bit SYS_BOOT_ACT
  let drop := fun (s : State) => s.putBoot false 0 false
  if !s.bit SYS_BOOT_TRIALV then (s, act)
  else if s.bit SYS_BOOT_TFAIL then ((drop s).emit 0xD00B [1], act)
  else if s.get SYS_BOOT_COUNT = 3 then ((drop s).emit 0xD00B [2], act)
  else ((s.inc SYS_BOOT_COUNT).saveBoot, !act)

/-- The first failure in the order of R513: the one that is found first, where two are; 0 passed. -/
def firstReason (a b : Nat) : Nat := if a = 0 then b else if b = 0 then a else min a b

/-- The check of slot `b`'s firmware is reported (15 R513). A RETIRED module refuses every image (R488); of a set that INSTALL wrote the
module knows version and identity (R515). -/
def State.reportSlot (s : State) (b : Bool) (c : SlotCheck) : State × Nat :=
  let known := if b then s.sys.slotB else s.sys.slotA
  let svn := (known.map (·.fwSvn)).getD c.svn
  let pid := (known.map (·.pid)).getD c.pid
  let r := firstReason c.reason.val (firstReason (if s.lifeCycle = 5 then 2 else 0) (if svn < s.get SYS_SVN_FW then 6 else 0))
  if r = 0 then ((s.emit 0xD007 [1, svn, pid]).withSys fun x => { x with firmware := pid }, 0)
  else (((s.set SYS_RES_REASON r).emit 0xD008 [1, r]).when (r == 4) fun s => s.emit 0xD00C [c.serial], r)

/-- A trim register takes its word from MRAM (04 R162). -/
def State.loadTrim (s : State) (reg k : Nat) : State :=
  match s.moduleRead k with
  | (s, w) => s.wr reg w

/-- The learned term of COMP comes from MRAM (11 R391). -/
def State.loadLearned (s : State) : State :=
  match s.moduleRead learnedAt with
  | (s, w) => { s with time := { s.time with learned := signedOf 32 w.toNat } }

/-- What else happens at the end of BOOT: the AFE reads its trims and fuses (06 R240) and starts (R207), ALP reads the jumpers (10 R366)
and its trims (R378), PAIR the slot code (14 R469), MEM the partition map (04 R141). -/
def State.endBoot (s : State) (f : BootFindings) : State :=
  let s := (s.withAfe fun a => { a with started := true }).loadMap
  let s := (List.range 24).foldl (fun (s : State) ch =>
    (s.loadTrim (AFE_CHnTRIM ch) (trimAt ch)).set (AFE_CHnRAWG_GAIN ch) (patternOf 16 (s.channel ch).rawGain)) s
  let s := (List.range 8).foldl (fun (s : State) ch =>
    let pos := ((f.jumpers[ch]?).getD 0).val
    let s := (s.set (ALP_JMP_POS ch) pos).loadTrim (ALP_CHnTRIM ch) (loopTrimAt ch)
    let s := s.setBit (ALP_CHnSTAT_TRIM ch) (s.rd (ALP_CHnTRIM ch) != 0#32)
    if pos = 0 then s.emit 0x7016 [ch, 0, 0] else s) s
  s.loadLearned.set PAIR_STAT_SLOT f.slotCode.val

/-- Words of a firmware image go to memory. -/
def State.loadWords (s : State) (l : List (Nat × Word)) : State :=
  l.foldl (fun (s : State) e => s.store (wordKey e.1) (encodeWord e.2)) s

/-- A phase of the start ends (15 R495, R496). -/
def State.endPhase (s : State) (m : Mode) : State := (s.toMode m 2).withSys fun b => { b with phaseAt := some s.mono }

/-- The limit of a start phase in ns and its SAFE demand code (15 R496). -/
def phaseLimit : Mode → Option (Nat × Nat)
  | .boot => some (120000000, 4)
  | .startTest => some (450000000, 4)
  | .load => some (300000000, 5)
  | .configure => some (330000000, 5)
  | _ => none

/-- The start phase has overrun its limit: the demand of SAFE (15 R496, R503). -/
def State.overrun (s : State) : Option State :=
  match phaseLimit s.mode, s.sys.phaseAt with
  | some (limit, code), some at_ =>
    if at_ + limit < s.mono then some ((s.withSys fun b => { b with phaseAt := none }).sysDemand code 0) else none
  | _, _ => none

/-- End a start phase, unless it has overrun its limit (15 R496). -/
def State.inPhase (s : State) (f : State → State) : State := (s.overrun).getD (f s)

/-- BOOT ends (15 R497, R515): the slot named is checked, then the other one; none bootable: SERVICE in the monitor. -/
def State.firmwareLoaded (f : BootFindings) (s : State) : State :=
  let (s, slot) := s.chooseSlot
  let check := fun (b : Bool) => if b then f.slotB else f.slotA
  let start := fun (s : State) (b : Bool) =>
    let s := (s.setBit SYS_STAT_SLOT b).setBit SYS_STAT_TRIAL (s.bit SYS_BOOT_TRIALV && b != s.bit SYS_BOOT_ACT)
    (s.endBoot f).loadWords (f.words.filter fun e => decide (e.1 < 0x800000))
  let (s, r1) := s.reportSlot slot (check slot)
  if r1 = 0 then (start s slot).endPhase .startTest
  else
    let (s, r2) := s.reportSlot (!slot) (check !slot)
    if r2 = 0 then (start (s.emit 0xD00B [3]) (!slot)).endPhase .startTest
    else
      let s := (s.endBoot f).setBit SYS_STAT_RECOV true
      let (ra, rb) := if slot then (r2, r1) else (r1, r2)
      let s := (s.emit 0xD00F [ra, rb]).toMode .service 3
      s.withSys fun b => { b with phaseAt := none }

def execFirmwareLoaded (t : Nat) (f : BootFindings) (s : State) : Host.Outcome State Fault Refusal :=
  let s := s.advance t
  .next (s.when (s.mode == .boot) fun s => s.inPhase (State.firmwareLoaded f))

/-! ### START_TEST -/

/-- Failed cells of SRAM are hard errors (04 R156; 15 R499): the repairs logged. -/
def State.testCells (s : State) (cells : List (Nat × Fin 40)) : State × Nat :=
  let before := s.get MEM_RPSTAT_PEND
  let s := cells.foldl (fun (s : State) c => s.logRepair (wordKey c.1) c.2.val) s
  (s, s.get MEM_RPSTAT_PEND - before)

/-- A word holds two failing cells. -/
def doubleCell (cells : List (Nat × Fin 40)) : Bool :=
  cells.any fun a => cells.any fun b => wordKey a.1 == wordKey b.1 && a.2 != b.2

/-- The first failed item that ends the start: the items of the cores and the SRAM banks apart, or a second core. -/
def fatalItem (failed : List (Fin 14 × Nat)) : Option Nat :=
  let cores := failed.filter fun e => decide (e.1.val ≤ 2)
  let other := failed.find? fun e => e.1.val == 3 || decide (8 ≤ e.1.val)
  match other with
  | some e => some e.1.val
  | none => if 2 ≤ cores.length then (cores[1]?).map (·.1.val) else none

/-- The start-up test ends (15 R497 to R499). It does not end before DRAM is initialised and the firmware's DRAM segments are
copied. The march test of SRAM leaves the firmware's words, log entry 31. -/
def State.startTestDone (f : TestFindings) (s : State) : State :=
  let s := f.failed.foldl (fun (s : State) e =>
    (s.set BIST_SUTRES_ITEM (Nat.lor (s.get BIST_SUTRES_ITEM) (2 ^ e.1.val))).emit 0xD002 [e.1.val, e.2]) s
  let s := s.set BIST_SUTTIME_VALUE f.duration
  let (s, repairs) := s.testCells f.cells
  let done := fun (s : State) => s.emit 0xD001 [(s.rd BIST_SUTRES).toNat, f.duration]
  match fatalItem f.failed with
  | some item => done (s.sysDemand 4 item)
  | none =>
    if repairs ≠ 0 ∧ !s.bit SYS_STAT_RPRST then
      let s := (s.setBit SYS_STAT_RPRST true).emit 0xD00E [repairs]
      (done s).withSys fun b => { b with resetting := true }
    else if repairs ≠ 0 ∨ doubleCell f.cells then
      done (s.sysDemand 4 ((f.cells.head?.map fun c => 4 + wordKey c.1 / 0x200000).getD 4))
    else
      let s := match f.failed.find? fun e => decide (e.1.val ≤ 2) with
        | some e => s.markFailed e.1.val
        | none => s
      let s := s.loadWords (f.words.filter fun e => decide (dramBase ≤ e.1))
      (done s).endPhase .load

def execStartTestComplete (t : Nat) (f : TestFindings) (s : State) : Host.Outcome State Fault Refusal :=
  let s := s.advance t
  .next (s.when (s.mode == .startTest && s.bit MEM_STAT_DINIT) fun s => s.inPhase (State.startTestDone f))

/-! ### LOAD -/

/-- Durad's link of library items into a context: the items, their settings in its data area (07 R257), and the coefficient tables of
its PHM3 (R259). -/
def State.linkItems (s : State) (c : Nat) (items : List LibItem) : State :=
  let s := s.withPe fun p => { p with schemes := CMap.put (fun _ => []) p.schemes c items }
  items.foldl (fun (s : State) x =>
    let s := s.peStores (s.dataWordAt c x.base) x.settings
    match phm3Table x with
    | some (at_, n) => s.peStores (s.dataWordAt c at_) (coefficients n)
    | none => s) s

/-- VERIFY and ENABLE of a context through PE's mailbox (06 R227 to R229); a refusal demands SAFE there. -/
def State.loadContext (s : State) (c : Fin 64) : State :=
  let next := fun (s : State) => s.get PE_LSEQ_LASTCMD + 1
  let s := (s.loader (next s) (peVerify c.val)).verifyDone c.val
  if s.bit (PE_CXnSTAT_VOK c.val) then s.loader (next s) (peEnable c.val) else s

/-- The Girth parameter set is written and loaded through its mailbox (08 R278). -/
def State.loadGirth (s : State) (l : List Word) : State :=
  let s := (l.mapIdx fun i w => (i, w)).foldl (fun (s : State) e => (s.set GIRTH_PIDX_IDX e.1).writeGirthData e.2) s
  s.girthCommand (s.get GIRTH_SEQ_LASTCMD + 1) girthLoadCommand

/-- The engines and last the Girth set are loaded, in the order of 15 R500. -/
def State.loadEngines (s : State) (cfg : Configuration) : State :=
  let s := s.loadValues cfg.values
  let parts := if 3 ≤ s.lifeCycle then s.sys.fused.parts else cfg.parts.map PartitionDecl.declare
  let bound := cfg.serial == some (s.get SYS_SER_SERIAL)
  let s := s.withSys fun b => { b with parts, program := cfg.program, identity := cfg.identity, bound, overlays := cfg.overlays
                                       selection := cfg.selection, shares := cfg.shares, slots := cfg.slots
                                       checked := [], under := [], resolved := none, asked := false }
  let s := s.withNet fun b => { b with keys := cfg.keys }
  let s := s.withRec fun b => { b with station := cfg.station, units := cfg.units, scales := cfg.scales, lf := cfg.lf }
  let s := if s.get CORE_STAT_FAILED ≠ 0 ∧ (!s.bit CORE_CFG_DEGALLOW ∨ s.bit CORE_CFG_FAILSAFE) then s.sysDemand 4 0 else s
  let s := cfg.peWords.foldl (fun (s : State) e => s.peStore (e.1 - e.1 % 4) e.2) s
  let s := cfg.schemes.foldl (fun (s : State) e => s.linkItems e.1.val e.2) s
  let s := cfg.contexts.foldl State.loadContext s
  match cfg.girth with
  | some l => if s.get GIRTH_STAT_STATE = 0 then s.loadGirth l else s
  | none => if s.get GIRTH_STAT_STATE = 1 then s else s.sysDemand 5 0

/-- LOAD ends (15 R490, R493, R500). `check`: the check of the configuration image of the slot. -/
def State.loadDone (check : SlotCheck) (cfg : Configuration) (s : State) : State :=
  let foreign := match cfg.serial with
    | some n => n != s.get SYS_SER_SERIAL
    | none => false
  let r := [if foreign then 4 else 0, if check.svn < s.get SYS_SVN_CFG then 6 else 0, if check.pid ≠ s.sys.firmware then 9 else 0].foldl
    firstReason check.reason.val
  if r = 4 then
    let s := ((s.set SYS_RES_REASON 4).emit 0xD008 [2, 4]).emit 0xD00C [cfg.serial.getD 0]
    (s.setBit SYS_STAT_CFGOK false |>.toMode .stop 4).withSys fun b => { b with phaseAt := none }
  else if r ≠ 0 then ((s.set SYS_RES_REASON r).emit 0xD008 [2, r]).sysDemand 5 0
  else
    let s := s.emit 0xD007 [2, check.svn, check.pid]
    if 3 ≤ s.lifeCycle ∧ digestOf cfg.values ≠ s.sys.fused.digest then s.sysDemand 5 0
    else
      let made := s.sys.demands.length
      let s := s.loadEngines cfg
      if s.sys.demands.length = made then s.endPhase .configure else s

def execLoadComplete (t : Nat) (check : SlotCheck) (cfg : Configuration) (s : State) : Host.Outcome State Fault Refusal :=
  let s := s.advance t
  .next (s.when (s.mode == .load) fun s => s.inPhase (State.loadDone check cfg))

/-! ### CONFIGURE -/

/-- What runs from the end of CONFIGURE: triggers (09 R331), counters (10 R350), loop outputs (10 R365), OCT (12 R433), PTP (11 R397). -/
def State.startBlocks (s : State) : State :=
  let s := (s.withRec fun b => { b with triggers := true }).withFio fun b => { b with counting := true }
  s.alpBegin.octBegin.ptpBegin

/-- The automatic start (15 R497): its result is reported, no command sequence is taken (05 R190). -/
def State.autoStart (s : State) : State :=
  let report := fun (r : State × Nat) => r.1.set CYC_CMDRES_RESULT r.2
  match s.get SYS_CFG_AUTO with
  | 0 => s
  | 1 => report (pairStart false s)
  | 2 => report (pairStart true s)
  | _ =>
    match pairStart true s with
    | (s, 0) => report (s, 0)
    | (s, _) => report (pairStart false s)

/-- CONFIGURE ends, always in STOP (15 R495, R501, R542). Of a refused configuration nothing is applied (01 R30). -/
def State.configureDone (s : State) : State :=
  let ended := fun (s : State) => (s.toMode .stop 2).withSys fun b => { b with phaseAt := none }
  match s.checkConfiguration with
  | some (r, comb) => ended ((s.setBit SYS_STAT_CFGOK false).reportRefusal r comb)
  | none =>
    let masks := 0 :: s.masks
    let s := (((s.wr SYS_CFGRES0 0).wr SYS_CFGRES1 0).wr SYS_CFGRES2 0).setBit SYS_STAT_CFGOK true
    let s := (s.withSys fun b => { b with checked := masks }).emit 0xE003 [s.sys.identity, masks.length]
    (ended s.loadSlots.startBlocks).autoStart

def execConfigureComplete (t : Nat) (s : State) : Host.Outcome State Fault Refusal :=
  let s := s.advance t
  .next (s.when (s.mode == .configure) fun s => s.inPhase State.configureDone)

/-! ### Overruns and silence -/

/-- A start phase overruns its limit (15 R496, R503). -/
def execPhaseOverrun (t : Nat) (s : State) : Host.Outcome State Fault Refusal := .next ((s.advance t).inPhase id)

/-- The trip driver's enable has not toggled for 20 µs (15 R504), in the rule's order. -/
def execGirthSilent (t ns : Nat) (s : State) : Host.Outcome State Fault Refusal :=
  let s := s.advance t
  if s.mode = .powerup ∨ s.bit SYS_STAT_GSIL ∨ ns < 20000 then .next s
  else
    let s := (s.setBit SYS_STAT_GSIL true).demand 3 3
    let first := s.get SYS_SAFED_CODE == 0
    let s := s.when first fun s => s.set SYS_SAFED_CODE 3
    let s := (s.enterSafe 8).emit 0xE009 [ns]
    .next (s.when first fun s => s.emit 0xE005 [3, 0])

/-! ### Front panel -/

/-- The band of a loop channel as its LED shows it; faults first (16 R539; 10 R373). DEDUCED order where two columns hold: red
before blinking before the rest, log entry 32. -/
def State.loopLed (s : State) (n : Nat) : Led :=
  let band := s.get (ALP_CHnSTAT_BAND n)
  if band = 1 ∨ band = 5 ∨ s.bit (ALP_CHnSTAT_OPEN n) ∨ s.bit (ALP_CHnSTAT_COMPL n) ∨ s.bit (ALP_CHnSTAT_OVLD n) then .red
  else if s.get ALP_KEYS_CALCH = n then .blink
  else if band = 3 then .green
  else if band = 2 ∨ band = 4 then .yellow else .dark

def State.linkLed (s : State) (p : Nat) (traffic : Bool) : Led :=
  if s.get NET_STAT_LINK / 2 ^ p % 2 = 0 then .dark
  else if traffic then .blink
  else match s.get NET_STAT_SPD / 4 ^ p % 4 with
    | 2 => .green
    | 1 => .yellow
    | _ => .dark

/-- The panel (16 R539). -/
def State.panel (s : State) (trafficA trafficB : Bool) : LedPanel :=
  let m := s.mode
  if m = .powerup then {}
  else
    let run : Led := match m with
      | .run => .green
      | .runDegraded | .resync => .blink
      | .stop | .service | .standby => .yellow
      | .boot | .startTest | .load | .configure => .red
      | _ => .dark
    let pair : Led :=
      if s.pairMode = 0 then .dark else if s.get PAIR_STAT_COND ≠ 0 then .red
      else match s.role with
        | 1 => .green
        | 3 => .blink
        | 2 => .yellow
        | _ => .dark
    let recent := match s.net.refusedAt with
      | some r => decide (s.mono ≤ r + 10000000000)
      | none => false
    let open_ := match s.net.session with
      | .open_ _ _ _ _ _ => true
      | _ => false
    let oct : Led := if s.bit OCT_STAT_IDMIS then .red else match s.octRole with
      | 2 => .green
      | 3 => .yellow
      | _ => .dark
    { run, safe := if m = .safe then .red else .dark, pair, lnkA := s.linkLed 0 trafficA, lnkB := s.linkLed 1 trafficB
      mnt := if recent then .red else if open_ then .green else .dark, oct, lp := (List.range 8).map s.loopLed }

/-- The 100 ms refresh (16 R539); `trafficA`, `trafficB`: frames pass on the port. -/
def execLedRefresh (t : Nat) (trafficA trafficB : Bool) (s : State) : Host.Outcome State Fault Refusal :=
  let s := s.advance t
  let due := match s.sys.ledsAt with
    | some m => decide (m + 100000000 ≤ s.mono)
    | none => true
  .next (s.when due fun s => s.withSys fun b => { b with leds := s.panel trafficA trafficB, ledsAt := some s.mono })

end Sys2Proof.Machine
end

