-- ==== Sys2Proof/Machine/Release.lean ====
section
/-!
DEFINITION. Steps 3 to 5 of the tick edge (01 R39): the commit check and its breaks (05 R172; 01 R37, R545), the release of output
images (05 R177 to R181, R543) and the pair counter.
-/

namespace Sys2Proof.Machine

open Reg

/-- What the image mover has done at an edge. -/
structure EdgeLog where
  /-- Stations whose output block has been discarded (05 R180). -/
  discarded : List (Nat × Nat) := []
  /-- Words stamped with the pair sequence number, in order (14 R464). -/
  stamped : List Word := []
  /-- Images released. -/
  released : Nat := 0
  /-- Mover work in units of 4 ns (05 R176). -/
  work : Nat := 0
deriving DecidableEq, Repr

/-- MONO of the present tick edge. -/
def State.edge (s : State) : Nat := s.tick * 125000

/-! ### Step 3 -/

/-- Task `m` exceeded its budget, in the cycle it runs now or since MONO `from_`. -/
def State.exceeded (s : State) (m from_ : Nat) : Bool :=
  (((s.task m).cycle).map (·.expired)).getD false || ((s.task m).expiredAt.map fun t => decide (from_ ≤ t)).getD false

/-- The offender of 01 R37: the most charged other task of the victim's tier that has exceeded its budget during the victim's cycle. -/
def State.offender (s : State) (n : Nat) (c : Cycle) : Option Nat :=
  let excess := c.others.filter fun e => s.taskTier e.1 == s.taskTier n && s.exceeded e.1 c.dispatchAt
  (excess.find? fun e => excess.all fun f => decide (f.2 < e.2) || (f.2 == e.2 && decide (e.1 ≤ f.1))).map (·.1)

/-- The task charged most among others, the lower index among equals (01 R545). -/
def mostCharged (l : List (Nat × Nat)) : Option Nat :=
  (l.find? fun e => l.all fun f => decide (f.2 < e.2) || (f.2 == e.2 && decide (e.1 ≤ f.1))).map (·.1)

/-- The beneficiary of a missed deadline (01 R37, R545; 02 R62; 05 R195). -/
def State.beneficiary (s : State) (n : Nat) (c : Cycle) : Nat :=
  if c.overSwitch then 0xA001
  else if c.resync ∧ s.taskTier n = 5 then 0xA000
  else match s.offender n c with
    | some k => 0x1000 + k
    | none => 0x1000 + (mostCharged c.others).getD n

/-- A missed deadline: overrun, event 0x3001, one break (05 R172; 01 R34, R35). -/
def State.missDeadline (s : State) (n : Nat) (c : Cycle) : State :=
  let s := s.onCycle n fun c => { c with overrun := true, open_ := false }
  let s := (s.setBit (CYC_TnWV_OVR n) true).setTaskBit CYC_OVR_TASK n
  let s := s.emit 0x3001 [n, s.tick % 2 ^ 32, (s.rd (CYC_TnWV n)).toNat]
  let b := s.beneficiary n c
  s.guaranteeBreak (0x1000 + n) b (s.taskTier n) (s.claimantTier b) 0x0001 (s.taskBudget n - c.charge)

/-- The release edge of a dispatched cycle of task `n` is this edge. -/
def State.dueCycle (s : State) (n : Nat) : Option Cycle :=
  match (s.task n).cycle with
  | some c => if c.open_ && c.release == s.tick then some c else none
  | none => none

/-- Step 3 for a task (05 R172). -/
def State.checkCommit (s : State) (n : Nat) : State :=
  match s.dueCycle n with
  | some c => if s.bit (CYC_TnSTAT_COMMIT n) then s else s.missDeadline n c
  | none => s

def State.commitCheck (s : State) : State := s.enabledTasks.foldl State.checkCommit s.charge

/-! ### Step 4 -/

/-- What the mover reads of an output entry. -/
inductive ImageRead where
  | words (l : List Word)
  /-- An error response at this address (05 R543). -/
  | failed (addr : Nat)
  /-- No response: SAFE is demanded (04 R143). -/
  | silent
deriving DecidableEq, Repr

/-- One word of an entry of task `n`, at a core address in its partition's DRAM bank (04 R161). -/
def State.moverRead (s : State) (n addr : Nat) : State × ImageRead :=
  let bank := ((s.partition (s.taskPart n)).map (·.bank)).getD 0
  match memoryKey bank addr with
  | none => (s, .failed addr)
  | some k =>
    if !s.wordReachable k then (s, .failed addr)
    else match s.readWord k (.cyc n (s.taskPart n)) with
      | (s, .data w) => (s, .words [w])
      | (s, .noResponse) => (s, .silent)
      | (s, _) => (s, .failed addr)

/-- The words of an entry from `addr` on. -/
def State.moverReads (s : State) (n : Nat) : Nat → Nat → State × ImageRead
  | _, 0 => (s, .words [])
  | addr, k + 1 =>
    match s.moverRead n addr with
    | (s, .words l) =>
      match s.moverReads n (addr + 4) k with
      | (s, .words r) => (s, .words (l ++ r))
      | e => e
    | e => e

/-- Word `k` of a block, where an entry that starts at `off` carries it. -/
def wordOf (off : Nat) (words : List Word) (k : Nat) : Option Word := if off ≤ k then words[k - off]? else none

/-- The pair sequence number in the last 4 bytes of a flow's dataset (14 R478). -/
def State.stampFlow (s : State) (f : Nat) : State :=
  if s.bit (NET_FD0_PAIRSEQ.at f) then
    let n := s.flowLen f
    let l := (unpackWords ((s.station 5 f).outWords ((n + 3) / 4))).take (n - 4) ++ leBytes 4 (s.get PAIR_PSN_PSN)
    s.writeOut 5 f 0 (packBytes l)
  else s

/-- The words of an output entry reach their port (05 R177, R182; 10 R361, R369; 11 R390). -/
def State.releaseWords (s : State) (i : Nat) (words : List Word) : State :=
  let k := s.imKind i
  let n := s.imStation i
  let off := s.imOffset i
  let s := s.writeOut k n off words
  match k with
  | 1 => s.fioRelease (wordOf off words 0) (wordOf off words 1)
  | 2 => match wordOf off words 0 with
    | some w => s.loopRelease n w
    | none => s
  | 5 => (s.stampFlow n).flowReleased n
  | 8 => match wordOf off words 0 with
    | some w => if w.getLsbD 0 then s.startTimer n s.edge else s
    | none => s
  | _ => s

/-- Blocks stamped for the partner or for gapless sending (01 R39). -/
def State.isStamped (s : State) (kind : Nat) : Bool :=
  s.pairMode != 0 && (kind == 7 || (s.pairMode == 2 && (kind == 4 || kind == 5)))

/-- The present pair sequence number is stamped on a block (01 R39). -/
def State.stampBlock (s : State) (kind station : Nat) : State :=
  if s.isStamped kind then
    s.withPair fun b => { b with stamps := CMap.put (fun _ => none) b.stamps (kind * 4096 + station) (some (s.get PAIR_PSN_PSN)) }
  else s

/-- The station was lost after the latch, or has not resumed (05 R180). -/
def State.withheld (s : State) (kind station latchAt : Nat) : Bool :=
  s.bit (stRespend kind station) || match (s.station kind station).lostAt with
    | some t => decide (latchAt ≤ t)
    | none => false

/-- Release one output entry of task `n` (05 R177 to R180, R543). -/
def State.releaseEntry (n latchAt : Nat) (acc : State × EdgeLog) (i : Nat) : State × EdgeLog :=
  let s := acc.1
  let k := s.imKind i
  let st := s.imStation i
  let log := { acc.2 with work := acc.2.work + 50 + s.imWords i }
  if s.withheld k st latchAt then
    if log.discarded.contains (k, st) then (s, log)
    else (s.emit 0x3006 [k, st, n], { log with discarded := log.discarded ++ [(k, st)] })
  else match s.moverReads n (s.imAddress i) (s.imLength i) with
    | (s, .words l) =>
      let l := s.applyForces i l
      ((s.stampBlock k st).releaseWords i l, if s.isStamped k then { log with stamped := log.stamped ++ l } else log)
    | (s, .failed a) => (s.emit 0x3016 [n, i, a, 0], log)
    | (s, .silent) => (s, log)

/-- The output entries of a task, ascending. -/
def State.outputsOf (s : State) (n : Nat) : List Nat := s.imageEntries.filter fun i => s.imOut i && s.imTask i == n

/-- The first release as active after a take-over (14 R487). -/
def State.closeGap (s : State) : State :=
  match s.pair.gapFrom with
  | some t =>
    if s.role = 1 then
      (s.set PAIR_LASTSW_GAP (min ((s.mono - t) / 1000) 0xFFFFF)).withPair fun b => { b with gapFrom := none }
    else s
  | none => s

/-- Release the committed image of a task due at this edge. -/
def State.releaseTask (acc : State × EdgeLog) (n : Nat) : State × EdgeLog :=
  match acc.1.dueCycle n with
  | some c =>
    if acc.1.bit (CYC_TnSTAT_COMMIT n) then
      let s := (acc.1.onCycle n fun c => { c with open_ := false }).closeGap
      let r := (s.outputsOf n).foldl (State.releaseEntry n c.latchAt) (s, acc.2)
      (r.1, { r.2 with released := r.2.released + 1 })
    else acc
  | none => acc

/-- A stop releases 0 in every output entry, whatever the forces (05 R192). -/
def State.releaseZeros (acc : State × EdgeLog) : State × EdgeLog :=
  let outs := acc.1.imageEntries.filter acc.1.imOut
  outs.foldl (fun (a : State × EdgeLog) i =>
    let zeros := List.replicate (a.1.imLength i) 0#32
    let log := { a.2 with released := a.2.released + 1, work := a.2.work + 50 + a.1.imWords i }
    ((a.1.stampBlock (a.1.imKind i) (a.1.imStation i)).releaseWords i zeros, if a.1.isStamped (a.1.imKind i) then { log with stamped := log.stamped ++ zeros } else log)) acc

/-- The words a gapless standby that is not READY would stamp at this edge: what it compares with the active's (14 R478). -/
def State.wouldStamp (s : State) : List Word :=
  if s.role = 2 ∧ s.pairMode = 2 then
    s.enabledTasks.flatMap fun n =>
      match s.dueCycle n with
      | some c =>
        if s.bit (CYC_TnSTAT_COMMIT n) then
          (s.outputsOf n).flatMap fun i =>
            if !s.isStamped (s.imKind i) || s.withheld (s.imKind i) (s.imStation i) c.latchAt then []
            else match s.moverReads n (s.imAddress i) (s.imLength i) with
              | (s, .words l) => s.applyForces i l
              | _ => []
        else []
      | none => []
  else []

/-- The unit that is active after step 2, or a ready gapless standby, performs step 4 (01 R39; 14 R471, R478). -/
def State.outputRelease (s : State) (stop : Bool) : State × EdgeLog :=
  if s.outputsReleased then (s, { stamped := s.wouldStamp })
  else if stop then State.releaseZeros (s, {})
  else s.enabledTasks.foldl State.releaseTask (s, {})

/-- After step 4: supplies, where the step was not skipped (01 R39), flows, station writes, the kind 7 block (10 R360; 11 R390; 13 R456;
14 R484). -/
def State.afterRelease (s : State) (released : Bool) (disagree : List Nat) : State :=
  let s := ((s.when released State.suppliesFollow).sendFlows disagree).exchange
  s.when (s.pairMode != 0 && s.crossLink && s.imageEntries.any fun i => s.imOut i && s.imKind i == 7) fun s =>
    s.withPair fun b => { b with blockSent := (s.station 7 0).outWords 256 }

/-- Step 5 (01 R39), and the CRC of the stamped blocks (14 R464, R478). -/
def State.pairCounter (s : State) (log : EdgeLog) : State :=
  let s := s.when (log.released != 0) fun s => s.set PAIR_PSN_PSN (s.get PAIR_PSN_PSN + 1)
  s.when (s.pairMode != 0) fun s => s.recordCrc (if log.stamped.isEmpty then 0 else crcWords log.stamped)

end Sys2Proof.Machine
end

