-- ==== Sys2Proof/Machine/Latch.lean ====
section
/-!
DEFINITION. Step 9 of the tick edge (01 R39): input images (05 R173 to R175, R179, R181, R183, R184, R187, R543; 10 R361, R369; 11
R404; 14 R477).
-/

namespace Sys2Proof.Machine

open Reg

/-- `n` words of a block from word `off`; beyond its end 0. -/
def sliceWords (block : List Word) (off n : Nat) : List Word := (List.range n).map fun i => (block[off + i]?).getD 0#32

/-- AGE in units of 10 µs, saturating. -/
def ageUnits (edge arrival : Nat) : Nat := min ((edge - arrival) / 10000) 0xFFFF

/-- MONO of the tick edge of an entry's previous latch. -/
def State.lastLatch (s : State) (i : Nat) : Option Nat := (s.cyc.latched.find? fun e => e.1 == i).map fun e => e.2 * 125000

/-- Arrived after the entry's previous latch. -/
def State.isFresh (s : State) (i done : Nat) : Bool :=
  match s.lastLatch i with
  | some e => decide (e ≤ done)
  | none => true

/-- Kind 1: the last update complete strictly before the edge (10 R361). -/
def State.latchFio (s : State) (i edge : Nat) : Latch :=
  let b := if s.fio.cur.1 + 2000 < edge then s.fio.cur else s.fio.prev
  { words := b.2, fresh := s.isFresh i (b.1 + 2000), age := ageUnits edge b.1, shows := some (ageUnits edge b.1) }

/-- Kind 2 (10 R369): the block of the last 1 kSa/s sample taken strictly before the edge (05 R174). -/
def State.latchLoop (s : State) (i edge : Nat) : Latch :=
  let x := s.loop (s.imStation i)
  let b := if x.cur.1 < edge then x.cur else x.prev
  { words := b.2, fresh := s.isFresh i b.1, age := ageUnits edge b.1, shows := some (ageUnits edge b.1) }

/-- Kind 8: timer state at the MONO of the edge (05 R183). -/
def State.latchTimer (s : State) (n : Nat) : Latch :=
  { words := [s.rd (CYC_TMnCTL n) >>> 8, BitVec.ofNat 32 (s.timerRemaining n)] }

/-- Kind 9: count and timestamp of a counter (05 R184). -/
def State.latchCounter (s : State) (c : Nat) : Latch :=
  let t := CMap.lookup (fun _ => 0) s.fio.stamps c
  { words := [s.rd (FIO_CNTc c), BitVec.ofNat 32 t, BitVec.ofNat 32 (t / 2 ^ 32)], counter := some c }

/-- Kind 6: the results PE last published before the edge; VALID and FRESH 1, AGE 0 in the status word (05 R174, R175). -/
def State.latchResults (s : State) (n edge : Nat) : Latch :=
  match (s.station 6 n).snapshot edge with
  | some b => { words := b.words, shows := some (ageUnits edge b.arrival), done := some b.done }
  | none => { words := [] }

/-- A station's block (05 R174, R179; 11 R404). The age of a station without any block is a free value, log entry 43. -/
def State.latchStation (s : State) (i edge : Nat) : State × Latch :=
  let k := s.imKind i
  let n := s.imStation i
  let lost := s.bit (stLost k n)
  let fault := k == 5 && s.flowSafe n && s.bit (NET_FSTAT_FAULT.at n)
  let safe := s.bufferWords (s.get (NET_FD9_SAFEV.at n) * 4) ((s.safeLen n + 3) / 4)
  match (s.station k n).snapshot edge with
  | some b =>
    let words := if fault then safe else if lost && s.imSubz i then [] else b.words
    let fresh := s.isFresh i b.done
    (s, { words, valid := !lost && !fault, fresh, lost, subst := lost, safev := fault, age := ageUnits edge b.arrival
          shows := some (ageUnits edge b.arrival), done := some b.done })
  | none =>
    let (v, s) := s.drawFree
    (s, { words := if fault then safe else [], valid := false, fresh := false, lost, subst := true, safev := fault, age := v.toNat % 0x10000 })

/-- What an input entry latches at an edge (05 R173). -/
def State.latchOf (s : State) (i edge : Nat) : State × Latch :=
  match s.imKind i with
  | 1 => (s, s.latchFio i edge)
  | 2 => (s, s.latchLoop i edge)
  | 6 => (s, s.latchResults (s.imStation i) edge)
  | 8 => (s, s.latchTimer (s.imStation i))
  | 9 => (s, s.latchCounter (s.imStation i))
  | _ => s.latchStation i edge

/-- The status word (05 R175). -/
def Latch.status (l : Latch) (forced valid : Bool) : Word :=
  BitVec.ofNat 32 ((l.valid && valid).toNat + l.fresh.toNat * 2 + l.lost.toNat * 4 + l.subst.toNat * 8 + forced.toNat * 16
    + l.safev.toNat * 32 + l.age * 65536)

/-- One word the mover writes for task `n`; false for an error response (05 R543; 04 R161, R162). -/
def State.moverWrite (s : State) (n addr : Nat) (w : Word) : State × Bool :=
  let p := s.taskPart n
  match memoryKey (((s.partition p).map (·.bank)).getD 0) addr with
  | none => (s, false)
  | some k => if s.wordReachable k ∧ !moduleMram k then (s.agentWrite k 15#4 w 4 p, true) else (s, false)

/-- The words of an entry from `addr` on: the first address refused. -/
def State.moverWrites (s : State) (n : Nat) : Nat → List Word → Option Nat → State × Option Nat
  | _, [], bad => (s, bad)
  | addr, w :: r, bad =>
    match s.moverWrite n addr w with
    | (s, true) => s.moverWrites n (addr + 4) r bad
    | (s, false) => s.moverWrites n (addr + 4) r (bad.orElse fun _ => some addr)

/-- The station of an entry latched shows the age of the block latched, and resumes if that block was delivered after its loss (05
R181, R202). -/
def State.noteLatched (s : State) (i : Nat) (l : Latch) : State :=
  let k := s.imKind i
  let n := s.imStation i
  let s := match l.shows with
    | some a => s.set (stAge k n) a
    | none => s
  let back := match l.done, (s.station k n).lostAt with
    | some d, some t => decide (t < d)
    | some _, none => true
    | none, _ => false
  if s.bit (stRespend k n) && back && !s.bit (stLost k n) then s.stationResumed k n else s

/-- An access of the mover failed at step 9 of edge `tick`: event 0x3016, once for the entry and the edge (05 R543). -/
def State.writeFailed (s : State) (n i addr tick : Nat) : State :=
  if CMap.lookup (fun _ => 0) s.cyc.failedAt i = tick then s
  else (s.withCyc fun c => { c with failedAt := CMap.put (fun _ => 0) c.failedAt i tick }).emit 0x3016 [n, i, addr, 1]

/-- Write an entry's status word and data at edge `tick`, forces applied (05 R175, R187, R543). -/
def State.writeInput (s : State) (n i tick : Nat) (l : Latch) (data : List Word) : State :=
  let data := s.applyForces i data
  let qw := s.imQw i
  let addr := s.imAddress i
  let first := if qw then addr + 4 else addr
  match s.moverWrites n first data none with
  | (s, bad) =>
    let r : State × Bool := if qw then s.moverWrite n addr (l.status (s.entryForced i) bad.isNone) else (s, true)
    let bad := if r.2 then bad else some addr
    match bad with
    | some a => r.1.writeFailed n i a tick
    | none => r.1

/-- What the latching of an edge gathers: what each entry latched, the entries' own data (14 R477), tasks to dispatch, mover work. -/
structure LatchLog where
  latched : List (Nat × Latch) := []
  entries : List (Nat × List Word) := []
  tasks : List Nat := []
  work : Nat := 0
deriving DecidableEq, Repr

/-- The active's words for an entry at this edge, on a gapless standby (14 R477). -/
def State.snapshotWords (s : State) (i tick : Nat) : Option (List Word) :=
  if s.pairMode = 2 ∧ 2 ≤ s.role ∧ s.imKind i ≠ 7 then
    ((s.pair.snapshots.find? fun x => x.1 == tick).bind fun x => x.2.find? fun e => e.1 == i).map (·.2)
  else none

/-- What an entry latches: the snapshot of its edge where one was kept, else the present one (05 R174). -/
def State.sampleOf (s : State) (kept : List (Nat × Latch)) (i tick : Nat) : State × Latch :=
  match kept.find? fun e => e.1 == i with
  | some e => (s, e.2)
  | none => s.latchOf i (tick * 125000)

/-- Latch one input entry of task `n`. -/
def State.latchEntry (kept : List (Nat × Latch)) (n tick : Nat) (acc : State × LatchLog) (i : Nat) : State × LatchLog :=
  match acc.1.sampleOf kept i tick with
  | (s, l) =>
    let own := sliceWords l.words (s.imOffset i) (s.imLength i)
    let data := (s.snapshotWords i tick).getD own
    let s := s.writeInput n i tick l data
    let s := s.withCyc fun c => { c with latched := CMap.put (fun _ => 0) c.latched i tick }
    let log := { acc.2 with work := acc.2.work + 50 + s.imWords i, latched := acc.2.latched ++ [(i, l)] }
    (s, if s.imKind i = 7 then log else { log with entries := log.entries ++ [(i, own)] })

/-- The input entries of a task, ascending. -/
def State.inputsOf (s : State) (n : Nat) : List Nat := s.imageEntries.filter fun i => !s.imOut i && s.imTask i == n

/-- Latch the input image of a task (05 R172). -/
def State.latchTask (kept : List (Nat × Latch)) (tick : Nat) (acc : State × LatchLog) (n : Nat) : State × LatchLog :=
  let r := (acc.1.inputsOf n).foldl (State.latchEntry kept n tick) acc
  (r.1, { r.2 with tasks := r.2.tasks ++ [n] })

/-- Stations that deliver no input block resume on a fresh frame, at an edge whose step 9 latches (05 R181). -/
def State.resumeAcked (s : State) (edge : Nat) : State :=
  s.cyc.stations.foldl (fun (s : State) x =>
    match x.ackAt with
    | some t => if t < edge ∧ s.bit (stRespend x.kind x.index) then s.stationResumed x.kind x.index else s
    | none => s) s

/-- A gapless standby that latches without the active's snapshot has missed it (14 R477). -/
def State.snapshotMissed (s : State) (tick : Nat) (tasks : List Nat) : State :=
  let wanted := s.pairMode == 2 && decide (2 ≤ s.role) && tasks.any fun n => (s.inputsOf n).any fun i => s.imKind i != 7
  if wanted && !s.pair.snapshots.any fun x => x.1 == tick then
    ((s.inc PAIR_DIV_SNAPMISS).withPair fun b => { b with snapMissed := some tick }).emit 0xB00D [tick % 2 ^ 32]
  else s

/-- The active sends its input snapshot (14 R477). -/
def State.sendSnapshot (s : State) (tick : Nat) (entries : List (Nat × List Word)) : State :=
  if s.pairMode = 2 ∧ s.role = 1 ∧ s.crossLink ∧ !entries.isEmpty then
    s.withPair fun b => { b with snapSent := some (tick, entries) }
  else s

/-- A period start of a task at this edge (05 R172, R202; 03 R104): counted, its image released from freezing. -/
def State.countStart (tick : Nat) (s : State) (n : Nat) : State :=
  let s := s.onTask n fun t => { t with frozen := false }
  if tick ≤ (s.task n).notBefore ∧ (s.task n).notBefore ≠ 0 then s else s.inc (CYC_TnWV_STARTS n)

/-- Step 9 for tasks `l` with a period start at edge `tick` (01 R39; 05 R172); `kept`: a snapshot taken before a switch. -/
def State.inputLatch (s : State) (kept : List (Nat × Latch)) (tick : Nat) (l : List Nat) : State × LatchLog :=
  let edge := tick * 125000
  let s := s.expireTimers
  let s := l.foldl (State.countStart tick) s
  let go := l.filter fun n => s.bit (CYC_TnSTAT_WAIT n)
  let s := s.snapshotMissed tick go
  let r := go.foldl (State.latchTask kept tick) (s, {})
  let s := r.2.latched.foldl (fun (s : State) e => s.noteLatched e.1 e.2) r.1
  ((s.when (!go.isEmpty) fun s => s.resumeAcked edge).sendSnapshot tick r.2.entries, r.2)

/-! ### Counters (05 R184) -/

/-- An entry of kind 9 for counter `c` as it stands now. -/
def State.isCounterEntry (s : State) (c i : Nat) : Bool := !s.imOut i && s.imKind i == 9 && s.imStation i == c

/-- A counter's snapshots of tick edge `tick` take in an edge detected after it whose compensated time is before it (05 R184): those
kept for a delayed step 9, and the images already latched. -/
def State.recount (s : State) (c tick : Nat) : State :=
  let l := s.latchCounter c
  let keep := fun (k : List (Nat × Latch)) => k.map fun e => if e.2.counter = some c then (e.1, l) else e
  let s := s.withCyc fun b => { b with
    switching := b.switching.map fun w => if w.tick = tick then { w with sampled := keep w.sampled } else w
    held := b.held.map fun h => if h.tick = tick then { h with sampled := keep h.sampled } else h }
  (s.imageEntries.filter fun i => s.isCounterEntry c i && (s.lastLatch i == some (tick * 125000))).foldl (fun (s : State) i =>
    s.writeInput (s.imTask i) i tick l (sliceWords l.words (s.imOffset i) (s.imLength i))) s

/-- The compensation of an input in counter mode in ns: the 5 µs of its path. R350 ignores FILT for it, R348 adds FILT: DESIGN CHOICE,
log entry 46. -/
def counterDelay : Nat := 5000

/-- A qualified edge on counter `c`'s path (10 R350; 05 R184): the filtered state follows it; counted edges count and
stamp their compensated time, and belong to the last tick edge where that time is before it. -/
def execCounterEdge (t : Nat) (counter : CountedEdge) (s : State) : Host.Outcome State Fault Refusal :=
  let s := s.advance t
  let c := counter.counter.val
  let n := c + 9
  let state := s.comparator n (s.compared n) counter.mv
  let s := s.setCompared n state
  if !s.isCounter n || state == s.input n || !s.steadyFor n 2000 then .next s
  else
    let rise := !s.input n
    let s := s.changeInput n counterDelay
    let mode := s.get (FIO_INnCFG_CNT n)
    if s.fio.counting ∧ (mode = 3 ∨ (mode = 1 ∧ rise) ∨ (mode = 2 ∧ !rise)) then
      let s := s.set (FIO_CNTc_COUNT c) (s.get (FIO_CNTc_COUNT c) + 1)
      let s := s.withFio fun b => { b with stamps := CMap.put (fun _ => 0) b.stamps c (s.mono - counterDelay) }
      .next (if s.mono < s.edge + counterDelay then s.recount c s.tick else s)
    else .next s

end Sys2Proof.Machine
end

