-- ==== Sys2Proof/Machine/Tick.lean ====
section
/-!
DEFINITION. The tick edge (01 R39 to R45): starts and stops (05 R190 to R192), the online-change switch (05 R196, R197), the resync
(02 R57), the dispatch (05 R171, R172), and the ten steps in their order.
-/

namespace Sys2Proof.Machine

open Reg

/-! ### Starts and stops -/

/-- The core address of partition `p` as a word key. -/
def State.partKey (s : State) (p addr : Nat) : Option Nat := memoryKey (((s.partition p).map (·.bank)).getD 0) addr

/-- Set variables to their initial values (05 R190). -/
def State.setVariables (s : State) (l : List (Nat × Nat × Word)) : State :=
  l.foldl (fun (s : State) e =>
    match s.partKey e.1 e.2.1 with
    | some k => s.agentWrite k 15#4 e.2.2 4 e.1
    | none => s) s

/-- Clear a range of variables to unwritten (05 R190). -/
def State.clearVariables (s : State) (r : Nat × Nat × Nat) : State :=
  match s.partKey r.1 r.2.1 with
  | some lo =>
    let inside := fun (k : Nat) => decide (lo ≤ k) && decide (k < lo + r.2.2)
    { s with
      mem := s.mem.filter fun e => !inside e.1
      memb := { s.memb with merge := s.memb.merge.filter (fun e => !inside e.key), wback := s.memb.wback.filter fun e => !inside e.1 } }
  | none => s

/-- The headers of the retained areas (05 R191). -/
def State.writeHeaders (s : State) : State :=
  s.sys.program.layouts.foldl (fun (s : State) e =>
    match s.retainedHeader e.1 with
    | some k => s.agentWrite k 15#4 e.2 4 e.1
    | none => s) s

/-- Tasks as a start leaves them: waiting in CYW (05 R172, R190). -/
def State.startTask (s : State) (n : Nat) : State :=
  let s := (s.wr (CYC_TnWV n) 0).set (CYC_TnCNT_COUNT n) 0
  (((s.setBit (CYC_TnSTAT_WAIT n) (s.bit (CYC_TnREL_EN n))).setBit (CYC_TnSTAT_COMMIT n) false).setBit (CYC_TnSTAT_NEW n) false).setTask n {}

/-- Timers off, expiry count 0 (05 R190). -/
def State.timersOff (s : State) : State :=
  (List.range 32).foldl (fun (s : State) n => ((s.stopTimer n).showTimer n false 0).set (CYC_TMnCTL_MODE n) 0) s

/-- What a cold start does beyond a warm one (05 R190, R191). -/
def State.coldItems (s : State) : State :=
  let s := (s.setVariables s.sys.program.retained).writeHeaders
  let s := (s.withCyc fun c => { c with forces := [] }).showForces
  let s := (List.range 4).foldl (fun (s : State) c => s.set (FIO_CNTc_COUNT c) 0) s
  s.withFio fun b => { b with stamps := [] }

/-- What every start does to data (05 R190). -/
def State.startItems (s : State) : State :=
  let s := (s.sys.program.cleared.foldl State.clearVariables s).setVariables s.sys.program.initial
  let s := s.withCyc fun c => { c with stations := c.stations.map (fun x => { x with out := [] }), edges := [] }
  let s := (s.set CYC_EDGESTAT_DEPTH 0).timersOff.resetFlows
  let s := (List.range 16).foldl State.startTask s
  let s := (s.set CYC_OVR_TASK 0).set CYC_BUDEXP_TASK 0
  (s.withCyc fun c => { c with change := none, undo := none }).setOc ocIdle

/-- A pending start takes effect (05 R190; 02 R55; 14 R480). -/
def State.startTakesEffect (s : State) (warm : Bool) : State :=
  let s := (s.withCyc fun c => { c with pendingStart := none }).clearLate CYC_CMDSEQ_LASTCMD
  let s := s.startItems.when (!warm) State.coldItems
  let s := (s.setBit CYC_STAT_RUN true).setBit CYC_STAT_WARM warm
  let s := s.when (s.pairMode != 0) fun s =>
    (s.set PAIR_STAT_ROLE 1).withPair fun b => { b with shift := 0, rejoin := false, partnerStarts := false, commits := [] }
  (s.toMode s.runMode 5).emit 0x3013 [warm.toNat, s.tick % 2 ^ 32]

/-- The stop edge, after step 4 (05 R192). -/
def State.stopTakesEffect (s : State) : State :=
  let s := (s.withCyc fun c => { c with pendingStop := false }).stopDispatch
  (s.set PAIR_STAT_ROLE 0).toMode .stop 5

/-! ### Step 8 -/

/-- Tasks that run in the module. -/
def State.runningTasks (s : State) : List Nat := if s.bit CYC_STAT_RUN then s.enabledTasks else []

/-- The tick is a period start of the shortest running task; with none running, every tick (02 R57). -/
def State.shortestStart (s : State) (tick : Nat) : Bool :=
  let l := s.runningTasks
  let per := fun (n : Nat) => s.get (CYC_TnPER_PER n)
  l.isEmpty || l.any fun n => l.all (fun m => decide (per n ≤ per m)) && s.isPeriodStart n tick

/-- The odd core whose resync edge is this edge (02 R54, R57; 14 R481): not while the complex is halted (02 R73) or a switch runs (01
R43). -/
def State.resyncDue (s : State) (tick : Nat) : Option Nat :=
  match s.core.odd with
  | some (core, stopped) =>
    let m := s.mode
    let fits := m == .runDegraded || m == .stop || m == .service || m == .standby || (m == .resync && s.pair.join.isSome)
    let free := !s.bit CORE_STAT_HALTED && s.cyc.switching.isNone
    if s.core.resync = .idle ∧ stopped < tick ∧ fits ∧ free ∧ s.shortestStart tick then some core else none
  | none => none

/-- Step 8: the transfer starts; it may cost the running cycles their deadlines (02 R62). -/
def State.resyncStep (s : State) (due : Option Nat) : State :=
  match due with
  | some core =>
    let mark : TaskState → TaskState := fun t => { t with cycle := t.cycle.map fun c => { c with resync := c.resync || c.open_ } }
    (s.withCyc fun b => { b with tasks := CMap.mapValues (fun _ => {}) mark b.tasks }).startResync core
  | none => s

/-! ### Steps 9 and 10 -/

/-- Tasks with a period start at the tick; in a join only those that have joined (14 R480). -/
def State.startingTasks (s : State) (tick : Nat) : List Nat :=
  s.runningTasks.filter fun n => s.isPeriodStart n tick &&
    (s.role != 3 || ((s.pair.join).map fun j => j.joined.contains n).getD false)

/-- A task is dispatched `delay` ns after its period start (05 R171). -/
def State.dispatchTask (s : State) (n tick delay : Nat) (resync excess : Bool) : State :=
  let c : Cycle := { start := tick, release := tick + s.get (CYC_TnREL_REL n), dispatchAt := tick * 125000 + delay,
                     latchAt := tick * 125000, resync := resync, overSwitch := excess }
  let s := s.onTask n fun t => { t with cycle := some c }
  let s := (s.setBit (CYC_TnSTAT_WAIT n) false).setBit (CYC_TnSTAT_COMMIT n) false
  let s := (s.set (CYC_TnSTAT_DLY n) (min (delay / 1000) 255)).set (CYC_TnCNT_COUNT n) (s.get (CYC_TnCNT_COUNT n) + 1)
  s.when (s.taskSafety n && decide (50000 < delay)) fun s => s.emit 0x3015 [n, delay]

/-- Step 10: CYC_DISP.MASK and line 16 (05 R171); each task with its period start's tick, `delay` counted from tick `from_`. -/
def State.dispatch (s : State) (l : List (Nat × Nat)) (from_ delay : Nat) (resync excess : Bool) : State :=
  if l.isEmpty then s
  else
    let s := l.foldl (fun (s : State) e => s.dispatchTask e.1 e.2 (delay - (e.2 - from_) * 125000) resync excess) s
    (s.set CYC_DISP_MASK (l.foldl (fun m e => Nat.lor m (2 ^ e.1)) 0)).withCyc fun c => { c with line16 := true }

/-- Mover work beyond 18 µs at edge `tick` (05 R176, R201). -/
def State.reportWork (s : State) (tick work : Nat) : State :=
  s.when (decide (4500 < work)) fun s => s.emit 0x3007 [tick % 2 ^ 32, work * 4]

/-- What input entries hold at the edge (05 R174), for a step 9 that comes later. -/
def State.sampleEntries (s : State) (l : List Nat) (tick : Nat) : State × List (Nat × Latch) :=
  l.foldl (fun (a : State × List (Nat × Latch)) i =>
    match a.1.latchOf i (tick * 125000) with
    | (s, x) => (s, a.2 ++ [(i, x)])) (s.expireTimers, [])

/-- Step 8 at a resync edge (02 R58): the transfer starts; steps 9 and 10 follow its end, with the edge's snapshot. -/
def State.holdEdge (s : State) (core work delay : Nat) : State :=
  match s.sampleEntries ((s.startingTasks s.tick).flatMap s.inputsOf) s.tick with
  | (s, l) => (s.resyncStep (some core)).withCyc fun c => { c with held := some ⟨s.tick, delay, work, l⟩ }

/-- Steps 8 to 10 of an edge without a switch; a stop edge has no step 9 and no step 10 (05 R192). -/
def State.lastSteps (s : State) (due : Option Nat) (work delay : Nat) (stop : Bool) : State :=
  let tick := s.tick
  if stop then (s.resyncStep due).reportWork tick work
  else match due with
    | some core => s.holdEdge core work delay
    | none =>
      match s.inputLatch [] tick (s.startingTasks tick) with
      | (s, log) => (s.dispatch (log.tasks.map fun n => (n, tick)) tick delay false false).reportWork tick (work + log.work)

/-- Steps 9 and 10 after the end of a transfer (02 R58). -/
def State.afterResync (s : State) (h : HeldEdge) : State :=
  match (s.withCyc fun c => { c with held := none }).inputLatch h.sampled h.tick (s.startingTasks h.tick) with
  | (s, log) => (s.dispatch (log.tasks.map fun n => (n, h.tick)) h.tick h.delay true false).reportWork h.tick (h.work + log.work)

/-- RESYNC_RELEASE: the transfer ends, and the steps of its edge that waited for it follow, unless SAFE is demanded (02 R58, R61). -/
def execResyncRelease (t : Nat) (outcome : ResyncOutcome) (s : State) : Host.Outcome State Fault Refusal :=
  let s := releaseResync outcome (s.advance t)
  match s.cyc.held with
  | some h => .next (if s.inTransfer || !s.sys.demands.isEmpty || s.mode == .safe then s else s.afterResync h)
  | none => .next s

/-! ### Step 7 -/

/-- The switch due at this edge: its package, and whether it reverts (05 R196, R200); on a standby, at the edge that corresponds to the
active's switch edge (14 R482). -/
def State.switchDue (s : State) (tick : Nat) : Option (ChangePackage × Bool) :=
  let st := s.ocState
  if s.role = 2 ∧ s.pair.changeAt = some (tick, false) ∧ (st = ocPrepared ∨ st = ocArmed) then s.cyc.change.map fun p => (p, false)
  else if s.role = 2 ∧ s.pair.changeAt = some (tick, true) ∧ (st = ocSwitched ∨ st = ocRevertArmed) then
    s.cyc.undo.map fun p => (p, true)
  else if s.cyc.armedEdge ≤ tick ∧ s.eligible s.changeParts tick then
    if s.ocState = ocArmed then s.cyc.change.map fun p => (p, false)
    else if s.ocState = ocRevertArmed then s.cyc.undo.map fun p => (p, true)
    else none
  else none

/-- Why the switch is held at this edge (01 R42; 05 R196, R201; 14 R482). The reason of a hold on the partner's account is a free
value, log entry 44. -/
def State.holdReason (s : State) (tick : Nat) (due : Option Nat) : State × Option Nat :=
  let overrun := (s.changedTasks s.changeParts).any fun n =>
    (((s.task n).cycle).map fun c => c.overrun && c.release == tick).getD false
  if s.mode = .runDegraded ∨ s.mode = .resync ∨ due.isSome then (s, some 1)
  else if s.pair.roleChanged = some tick then (s, some 2)
  else if overrun then (s, some 3)
  else if s.pair.partnerHeld = some tick then
    let (v, s) := s.drawFree
    (s, some v.toNat)
  else (s, none)

/-- A held edge; the sixteenth ends the attempt (05 R196). DEDUCED: a held revert returns to SWITCHED, log entry 44. -/
def State.holdSwitch (s : State) (tick reason : Nat) (revert : Bool) : State :=
  let s := (s.emit 0x300F [tick % 2 ^ 32, reason]).tellPartner (.held ((tick + s.get PAIR_DTICK_DTICK) % 2 ^ 32))
  if s.get CYC_OCSTAT_HOLDS = 15 then
    (s.setOc (if revert then ocSwitched else ocPrepared)).emit 0x3010 [1, s.cyc.switchNs]
  else s.inc CYC_OCSTAT_HOLDS

/-- The snapshot of the switch edge for the delayed step 9 (05 R174), under the image map as the switch will leave it: the entries
the change replaces are sampled at this edge too. -/
def State.sampleEdge (s : State) (p : ChangePackage) (tick : Nat) : State × List (Nat × Latch) :=
  let after := s.changeBase fun s => s.applyDescriptors p
  match after.sampleEntries ((after.startingTasks tick).flatMap after.inputsOf) tick with
  | (a, l) => ({ s.expireTimers with free := a.free }, l)

/-- Step 7 begins (05 R197, item 1). -/
def State.beginSwitch (s : State) (p : ChangePackage) (revert : Bool) (work delay : Nat) : State :=
  let tick := s.tick
  let s := s.when (s.role == 1) fun s => s.tellPartner (.change (tick % 2 ^ 32) revert)
  let s := (s.changedTasks s.changeParts).foldl (fun (s : State) n => s.setBit (CYC_TnSTAT_HELD n) true) s
  match s.sampleEdge p tick with
  | (s, l) => s.withCyc fun c => { c with switching := some { start := s.edge + delay, tick, revert, sampled := l, work } }

/-- An edge while a switch runs: step 9 for the other tasks; their step 10 waits (01 R44). -/
def State.edgeInSwitch (s : State) (w : RunningSwitch) (work : Nat) (stop : Bool) : State :=
  let tick := s.tick
  if stop then s.reportWork tick work
  else
    let changed := s.changedTasks s.changeParts
    let l := s.startingTasks tick
    let s := (l.filter changed.contains).foldl (State.countStart tick) s
    match s.inputLatch [] tick (l.filter fun n => !changed.contains n) with
    | (s, log) =>
      let late := log.tasks.map fun n => (n, tick)
      let s := late.foldl (fun (s : State) e => s.setBit (CYC_TnSTAT_WAIT e.1) false) s
      (s.withCyc fun c => { c with switching := some { w with waiting := w.waiting ++ late } }).reportWork tick (work + log.work)

/-- Steps 7 to 10. -/
def State.stepsFrom7 (s : State) (due : Option Nat) (work delay : Nat) (stop : Bool) : State :=
  match s.cyc.switching with
  | some w => s.edgeInSwitch w work stop
  | none =>
    match s.switchDue s.tick with
    | none => s.lastSteps due work delay stop
    | some (p, revert) =>
      match s.holdReason s.tick due with
      | (s, some r) => (s.holdSwitch s.tick r revert).lastSteps due work delay stop
      | (s, none) => s.beginSwitch p revert work delay

/-! ### The edge -/

/-- The modes in which the boundary steps after step 2 have work to do: from BOOT to CONFIGURE nothing is configured yet. -/
def Mode.operates : Mode → Bool
  | .stop | .run | .runDegraded | .standby | .resync | .service => true
  | _ => false

/-- A pending start in a pair (14 R480): where the partner has become active the unit joins; where the partner starts too, the higher
slot code leaves the start to it and joins afterwards. -/
def State.startInPair (s : State) (warm : Bool) : State :=
  let dropped := (s.withCyc fun c => { c with pendingStart := none }).clearLate CYC_CMDSEQ_LASTCMD
  if s.mayJoin then dropped.startJoin
  else if s.pairMode ≠ 0 ∧ s.anyPath ∧ s.pair.partnerStarts ∧ !s.lowerSlot then dropped.withPair fun b => { b with rejoin := true }
  else s.startTakesEffect warm

/-- A start pending in STOP takes effect unless a resync starts at this edge (05 R190) or the complex is halted (02 R73). -/
def State.startStep (s : State) (due : Option Nat) : State :=
  match s.cyc.pendingStart with
  | some warm => if s.mode = .stop ∧ due.isNone ∧ !s.bit CORE_STAT_HALTED then s.startInPair warm else s
  | none => s

/-- A stop that no longer finds running tasks of this unit is void. -/
def State.dropStop (s : State) : State :=
  if s.mode = .run ∨ s.mode = .runDegraded ∨ s.mode = .resync then s else s.withCyc fun c => { c with pendingStop := false }

/-- The active of a SWITCH command steps down at step 5 (14 R483). -/
def State.switchOver (s : State) : State := if s.pair.switching then (s.stepDown 4).toMode .standby 10 else s

/-- The ten steps of an edge (01 R39); `delay`: from the edge to step 10, or to step 7 where a switch begins. In POWERUP the module
is in reset and has no tick edge (15 R547). -/
def State.tickSteps (s : State) (delay : Nat) (disagree : List Nat) : State :=
  if s.mode = .safe ∨ !s.sys.demands.isEmpty ∨ s.mode = .powerup then s
  else if !s.mode.operates then s.pairStep
  else
    let s := s.pairStep
    let due := s.resyncDue s.tick
    let s := (s.startStep due).dropStop
    let stop := s.cyc.pendingStop && (s.mode == .run || s.mode == .runDegraded)
    match s.commitCheck.outputRelease stop with
    | (s, log) =>
      let s := ((((s.afterRelease (log.released != 0) disagree).pairCounter log).switchOver).overlayStep)
      (s.when stop State.stopTakesEffect).stepsFrom7 due log.work delay stop

def execTickEdge (t delay : Nat) (disagree : List (Fin 256)) (s : State) : Host.Outcome State Fault Refusal :=
  if t % 125000 = 0 ∧ s.mono ≤ t then .next ((s.advance t).tickSteps delay (disagree.map (·.val)))
  else .next (s.advance t)

/-- A cycle dispatched after its release edge has missed its deadline: no step 3 finds it (05 R195). -/
def State.missLate (s : State) (n : Nat) : State :=
  match (s.task n).cycle with
  | some c => if c.open_ ∧ c.release ≤ s.tick then s.missDeadline n c else s
  | none => s

/-- The delayed steps 9 and 10 after a switch (01 R44; 05 R197). -/
def State.afterSwitch (s : State) (w : RunningSwitch) (delay : Nat) (excess : Bool) : State :=
  match s.inputLatch w.sampled w.tick (s.startingTasks w.tick) with
  | (s, log) =>
    let late := w.waiting.filter fun e => s.runningTasks.contains e.1
    let l := log.tasks.map (fun n => (n, w.tick)) ++ late
    let s := (s.dispatch l w.tick delay false excess).reportWork w.tick (w.work + log.work)
    (l.map (·.1)).foldl State.missLate s

/-- A switch that took longer than computed: event 0x3010; it may cost the cycles running meanwhile their deadlines (05 R195). -/
def State.overTime (s : State) (ns : Nat) : State :=
  let mark : TaskState → TaskState := fun t => { t with cycle := t.cycle.map fun c => { c with overSwitch := c.overSwitch || c.open_ } }
  (s.withCyc fun b => { b with tasks := CMap.mapValues (fun _ => {}) mark b.tasks }).emit 0x3010 [3, ns]

/-- The switch completes (05 R197); `delay`: from its tick edge to step 10. -/
def State.endSwitch (s : State) (w : RunningSwitch) (delay : Nat) : State :=
  match if w.revert then s.cyc.undo else s.cyc.change with
  | some p =>
    let ns := s.mono - w.start
    let excess := decide (switchTime p < ns)
    let held := s.changedTasks s.changeParts
    let s := (s.withCyc fun c => { c with switching := none }).completeSwitch p ns w.revert
    let s := held.foldl (fun (s : State) n => s.setBit (CYC_TnSTAT_HELD n) false) s
    (s.when excess fun s => s.overTime ns).afterSwitch w delay excess
  | none => s.withCyc fun c => { c with switching := none }

def execOnlineChangeSwitchEnd (t delay : Nat) (s : State) : Host.Outcome State Fault Refusal :=
  let s := s.advance t
  match s.cyc.switching with
  | some w => if s.mode = .safe then .next s else .next (s.endSwitch w delay)
  | none => .next s

end Sys2Proof.Machine
end

