-- ==== Sys2Proof/Machine/Dispatch.lean ====
section
/-!
DEFINITION. The dispatch of a command to its meaning: one arm per constructor of Instr.
-/

namespace Sys2Proof.Machine

def exec (i : Instr) (s : State) : Host.Outcome State Fault Refusal :=
  match i with
  | .registerWrite t user size addr value pkg => Sys2Proof.Machine.execRegisterWrite t user size addr value pkg s
  | .moduleReset t => Sys2Proof.Machine.execModuleReset t s
  | .powerGood t => Sys2Proof.Machine.execPowerGood t s
  | .powerFailureSignal t mv => Sys2Proof.Machine.execPowerFailureSignal t mv s
  | .powerFailureClear t mv => Sys2Proof.Machine.execPowerFailureClear t mv s
  | .railsOutOfRegulation t => Sys2Proof.Machine.execRailsOutOfRegulation t s
  | .supplySample t mv => Sys2Proof.Machine.execSupplySample t mv s
  | .tickEdge t delay disagree => Sys2Proof.Machine.execTickEdge t delay disagree s
  | .onlineChangeSwitchEnd t delay => Sys2Proof.Machine.execOnlineChangeSwitchEnd t delay s
  | .resyncRelease t outcome => Sys2Proof.Machine.execResyncRelease t outcome s
  | .bandwidthWindowEnd t shorts => Sys2Proof.Machine.execBandwidthWindowEnd t shorts s
  | .voterCompare t fetch data nonCode => Sys2Proof.Machine.execVoterCompare t fetch data nonCode s
  | .dbgHalt t cseq => Sys2Proof.Machine.execDbgHalt t cseq s
  | .debugHaltTaken t => Sys2Proof.Machine.execDebugHaltTaken t s
  | .dbgResume t cseq o => Sys2Proof.Machine.execDbgResume t cseq o s
  | .dbgStep t cseq o => Sys2Proof.Machine.execDbgStep t cseq o s
  | .dbgReadGp t cseq index => Sys2Proof.Machine.execDbgReadGp t cseq index s
  | .dbgWriteGp t cseq index => Sys2Proof.Machine.execDbgWriteGp t cseq index s
  | .dbgReadFp t cseq index => Sys2Proof.Machine.execDbgReadFp t cseq index s
  | .dbgWriteFp t cseq index => Sys2Proof.Machine.execDbgWriteFp t cseq index s
  | .dbgReadSpecial t cseq index => Sys2Proof.Machine.execDbgReadSpecial t cseq index s
  | .dbgWriteSpecial t cseq index => Sys2Proof.Machine.execDbgWriteSpecial t cseq index s
  | .dbgLoad t cseq bus => Sys2Proof.Machine.execDbgLoad t cseq bus s
  | .dbgStore t cseq bus pkg => Sys2Proof.Machine.execDbgStore t cseq bus pkg s
  | .dbgSetBreakpoint t cseq index => Sys2Proof.Machine.execDbgSetBreakpoint t cseq index s
  | .dbgClearBreakpoint t cseq index => Sys2Proof.Machine.execDbgClearBreakpoint t cseq index s
  | .breakpointMatch t index access => Sys2Proof.Machine.execBreakpointMatch t index access s
  | .scWatchdogKick t core key => Sys2Proof.Machine.execScWatchdogKick t core key s
  | .scWatchdogExpiry t core => Sys2Proof.Machine.execScWatchdogExpiry t core s
  | .ricLoRead => Sys2Proof.Machine.execRicLoRead s
  | .intRegisterOp c op rd ra rb => Sys2Proof.Machine.execIntRegisterOp c op rd ra rb s
  | .intImmediateOp c op rd ra imm => Sys2Proof.Machine.execIntImmediateOp c op rd ra imm s
  | .load c k rd ra imm => Sys2Proof.Machine.execLoad c k rd ra imm s
  | .store c k rs ra imm pkg => Sys2Proof.Machine.execStore c k rs ra imm pkg s
  | .flwFld c double fd ra imm => Sys2Proof.Machine.execFlwFld c double fd ra imm s
  | .fswFsd c double fs ra imm pkg => Sys2Proof.Machine.execFswFsd c double fs ra imm pkg s
  | .ldl c rd ra => Sys2Proof.Machine.execLdl c rd ra s
  | .stc c rd ra rb => Sys2Proof.Machine.execStc c rd ra rb s
  | .branch c b ra rb off => Sys2Proof.Machine.execBranch c b ra rb off s
  | .j c off => Sys2Proof.Machine.execJ c off s
  | .jl c off => Sys2Proof.Machine.execJl c off s
  | .jr c ra imm => Sys2Proof.Machine.execJr c ra imm s
  | .jlr c rd ra imm => Sys2Proof.Machine.execJlr c rd ra imm s
  | .fpOperation c op p fd fa fb fc => Sys2Proof.Machine.execFpOperation c op p fd fa fb fc s
  | .pld c ra imm => Sys2Proof.Machine.execPld c ra imm s
  | .sys c code => Sys2Proof.Machine.execSys c code s
  | .sysSafeCall c => Sys2Proof.Machine.execSysSafeCall c s
  | .bistCoreSliceCall t => Sys2Proof.Machine.execBistCoreSliceCall t s
  | .brk c code => Sys2Proof.Machine.execBrk c code s
  | .eret c => Sys2Proof.Machine.execEret c s
  | .mfs c rd spec => Sys2Proof.Machine.execMfs c rd spec s
  | .mts c spec ra => Sys2Proof.Machine.execMts c spec ra s
  | .barM c => Sys2Proof.Machine.execBarM c s
  | .barMComplete c => Sys2Proof.Machine.execBarMComplete c s
  | .barW c rd => Sys2Proof.Machine.execBarW c rd s
  | .barWComplete c => Sys2Proof.Machine.execBarWComplete c s
  | .trd t c rd ra => Sys2Proof.Machine.execTrd t c rd ra s
  | .trs t c rd ra => Sys2Proof.Machine.execTrs t c rd ra s
  | .cyw c rd => Sys2Proof.Machine.execCyw c rd s
  | .cywExecutiveReturn c => Sys2Proof.Machine.execCywExecutiveReturn c s
  | .imc c rd => Sys2Proof.Machine.execImc c rd s
  | .cmo c op ra => Sys2Proof.Machine.execCmo c op ra s
  | .interruptTaken c => Sys2Proof.Machine.execInterruptTaken c s
  | .tcmpMatch c t => Sys2Proof.Machine.execTcmpMatch c t s
  | .mergeEntryTimeout t => Sys2Proof.Machine.execMergeEntryTimeout t s
  | .correctionWriteback t reread => Sys2Proof.Machine.execCorrectionWriteback t reread s
  | .codeRefetchComplete r => Sys2Proof.Machine.execCodeRefetchComplete r s
  | .pqinfoRead => Sys2Proof.Machine.execPqinfoRead s
  | .sramInitDone t => Sys2Proof.Machine.execSramInitDone t s
  | .dramInitDone t => Sys2Proof.Machine.execDramInitDone t s
  | .scrubWord t walker reread => Sys2Proof.Machine.execScrubWord t walker reread s
  | .scrubLapOvertime t => Sys2Proof.Machine.execScrubLapOvertime t s
  | .flipArm => Sys2Proof.Machine.execFlipArm s
  | .flipDisarm => Sys2Proof.Machine.execFlipDisarm s
  | .rangeClear cseq go => Sys2Proof.Machine.execRangeClear cseq go s
  | .rangeClearDone t => Sys2Proof.Machine.execRangeClearDone t s
  | .cycRunWrite t task valid => Sys2Proof.Machine.execCycRunWrite t task valid s
  | .budgetExpiry t => Sys2Proof.Machine.execBudgetExpiry t s
  | .dispRead => Sys2Proof.Machine.execDispRead s
  | .cywValueRead task => Sys2Proof.Machine.execCywValueRead task s
  | .timerStart t timer => Sys2Proof.Machine.execTimerStart t timer s
  | .timerStop t timer => Sys2Proof.Machine.execTimerStop t timer s
  | .timerExpiry t timer => Sys2Proof.Machine.execTimerExpiry t timer s
  | .edgeFifoRead => Sys2Proof.Machine.execEdgeFifoRead s
  | .forceSet cseq type tool => Sys2Proof.Machine.execForceSet cseq type tool s
  | .forceRemove cseq tool => Sys2Proof.Machine.execForceRemove cseq tool s
  | .forceRemoveAll cseq tool => Sys2Proof.Machine.execForceRemoveAll cseq tool s
  | .forceRead cseq => Sys2Proof.Machine.execForceRead cseq s
  | .coldStart cseq => Sys2Proof.Machine.execColdStart cseq s
  | .warmStart cseq => Sys2Proof.Machine.execWarmStart cseq s
  | .stopCommand cseq => Sys2Proof.Machine.execStopCommand cseq s
  | .prepare cseq pkg => Sys2Proof.Machine.execPrepare cseq pkg s
  | .arm cseq => Sys2Proof.Machine.execArm cseq s
  | .revert cseq => Sys2Proof.Machine.execRevert cseq s
  | .confirmChange cseq => Sys2Proof.Machine.execConfirmChange cseq s
  | .abandon cseq => Sys2Proof.Machine.execAbandon cseq s
  | .afeFrameStart t codes => Sys2Proof.Machine.execAfeFrameStart t codes s
  | .peRawWordReceive t group w => Sys2Proof.Machine.execPeRawWordReceive t group w s
  | .intakeDeadline t => Sys2Proof.Machine.execIntakeDeadline t s
  | .peSlotStart t bundles upsets => Sys2Proof.Machine.execPeSlotStart t bundles upsets s
  | .contextCut t => Sys2Proof.Machine.execContextCut t s
  | .slotDeadline t => Sys2Proof.Machine.execSlotDeadline t s
  | .verify t cseq cx => Sys2Proof.Machine.execVerify t cseq cx s
  | .verifyComplete t => Sys2Proof.Machine.execVerifyComplete t s
  | .enable t cseq cx => Sys2Proof.Machine.execEnable t cseq cx s
  | .disable t cseq cx => Sys2Proof.Machine.execDisable t cseq cx s
  | .parameterCommand t cseq cx go => Sys2Proof.Machine.execParameterCommand t cseq cx go s
  | .calibrationStart t group => Sys2Proof.Machine.execCalibrationStart t group s
  | .calibrationPhase t group => Sys2Proof.Machine.execCalibrationPhase t group s
  | .calibrationEnd t group r => Sys2Proof.Machine.execCalibrationEnd t group r s
  | .referenceCheck t r0 r1 r2 r3 => Sys2Proof.Machine.execReferenceCheck t r0 r1 r2 r3 s
  | .peVectorOp o => Sys2Proof.Machine.execPeVectorOp o s
  | .vld vd m => Sys2Proof.Machine.execVld vd m s
  | .vst vs m => Sys2Proof.Machine.execVst vs m s
  | .peScalarOp o => Sys2Proof.Machine.execPeScalarOp o s
  | .lds sd m => Sys2Proof.Machine.execLds sd m s
  | .sts ss m => Sys2Proof.Machine.execSts ss m s
  | .peAccumulatorOp o => Sys2Proof.Machine.execPeAccumulatorOp o s
  | .brf fa sense off => Sys2Proof.Machine.execBrf fa sense off s
  | .bra off => Sys2Proof.Machine.execBra off s
  | .loopBegin k m => Sys2Proof.Machine.execLoopBegin k m s
  | .endEntry => Sys2Proof.Machine.execEndEntry s
  | .lidx sd level => Sys2Proof.Machine.execLidx sd level s
  | .trp t k fa => Sys2Proof.Machine.execTrp t k fa s
  | .trg t j fa => Sys2Proof.Machine.execTrg t j fa s
  | .girthPdataWrite v => Sys2Proof.Machine.execGirthPdataWrite v s
  | .girthLoad t cseq => Sys2Proof.Machine.execGirthLoad t cseq s
  | .instrst t cseq index => Sys2Proof.Machine.execInstrst t cseq index s
  | .girthClrout t cseq index readback => Sys2Proof.Machine.execGirthClrout t cseq index readback s
  | .girthSafeLatch t => Sys2Proof.Machine.execGirthSafeLatch t s
  | .girthChannelMismatch t group => Sys2Proof.Machine.execGirthChannelMismatch t group s
  | .dynamicEnableLoss t driver => Sys2Proof.Machine.execDynamicEnableLoss t driver s
  | .gltripPulseEnd t => Sys2Proof.Machine.execGltripPulseEnd t s
  | .watchdogResponse t v => Sys2Proof.Machine.execWatchdogResponse t v s
  | .watchdogTimeout t => Sys2Proof.Machine.execWatchdogTimeout t s
  | .filteredStateChange t input => Sys2Proof.Machine.execFilteredStateChange t input s
  | .discrepancyFault t pair => Sys2Proof.Machine.execDiscrepancyFault t pair s
  | .refreshTimeout t out => Sys2Proof.Machine.execRefreshTimeout t out s
  | .safetyExternalDrive t out => Sys2Proof.Machine.execSafetyExternalDrive t out s
  | .switchTestStart t out => Sys2Proof.Machine.execSwitchTestStart t out s
  | .switchTestCheck t off changed => Sys2Proof.Machine.execSwitchTestCheck t off changed s
  | .girthRawWordReceive t w => Sys2Proof.Machine.execGirthRawWordReceive t w s
  | .rawLost t ch => Sys2Proof.Machine.execRawLost t ch s
  | .peSilentChange t => Sys2Proof.Machine.execPeSilentChange t s
  | .tripRelease t trip => Sys2Proof.Machine.execTripRelease t trip s
  | .tripOverloadCutoff t trip => Sys2Proof.Machine.execTripOverloadCutoff t trip s
  | .tripConfirmCheck t trip ma => Sys2Proof.Machine.execTripConfirmCheck t trip ma s
  | .tcsStateChange t trip supplyMv currentUa acrossMv => Sys2Proof.Machine.execTcsStateChange t trip supplyMv currentUa acrossMv s
  | .tcsResume t trip => Sys2Proof.Machine.execTcsResume t trip s
  | .recEventReceive t => Sys2Proof.Machine.execRecEventReceive t s
  | .rateLimitRefill t entry => Sys2Proof.Machine.execRateLimitRefill t entry s
  | .eventProgramDone t n failed => Sys2Proof.Machine.execEventProgramDone t n failed s
  | .opsecSave t => Sys2Proof.Machine.execOpsecSave t s
  | .frost t cseq tool => Sys2Proof.Machine.execFrost t cseq tool s
  | .thaw t cseq tool => Sys2Proof.Machine.execThaw t cseq tool s
  | .trigger t cseq => Sys2Proof.Machine.execTrigger t cseq s
  | .exportRecord t cseq => Sys2Proof.Machine.execExportRecord t cseq s
  | .exportComplete t => Sys2Proof.Machine.execExportComplete t s
  | .readRecord cseq => Sys2Proof.Machine.execReadRecord cseq s
  | .captureStored t failedBlocks => Sys2Proof.Machine.execCaptureStored t failedBlocks s
  | .wireBreakChange t input ua => Sys2Proof.Machine.execWireBreakChange t input ua s
  | .counterEdge t counter => Sys2Proof.Machine.execCounterEdge t counter s
  | .outputOverload t out ma => Sys2Proof.Machine.execOutputOverload t out ma s
  | .outputExternalDrive t out => Sys2Proof.Machine.execOutputExternalDrive t out s
  | .testPulseStart t out => Sys2Proof.Machine.execTestPulseStart t out s
  | .testPulseCheck t off changed => Sys2Proof.Machine.execTestPulseCheck t off changed s
  | .openLoad t out ma => Sys2Proof.Machine.execOpenLoad t out ma s
  | .fieldSupplyStateChange t second mv => Sys2Proof.Machine.execFieldSupplyStateChange t second mv s
  | .fioClrout t cseq index readback => Sys2Proof.Machine.execFioClrout t cseq index readback s
  | .clrfs t cseq index => Sys2Proof.Machine.execClrfs t cseq index s
  | .loopBandChange t ch ua headroomMv => Sys2Proof.Machine.execLoopBandChange t ch ua headroomMv s
  | .loopFlagChange t ch compl => Sys2Proof.Machine.execLoopFlagChange t ch compl s
  | .loopOverload t ch ua => Sys2Proof.Machine.execLoopOverload t ch ua s
  | .loopOverloadRetry t ch ua => Sys2Proof.Machine.execLoopOverloadRetry t ch ua s
  | .loopReleaseTimeout t ch => Sys2Proof.Machine.execLoopReleaseTimeout t ch s
  | .jumperChange t ch pos => Sys2Proof.Machine.execJumperChange t ch pos s
  | .hartGo t cseq ch len => Sys2Proof.Machine.execHartGo t cseq ch len s
  | .hartTransactionEnd t second result response => Sys2Proof.Machine.execHartTransactionEnd t second result response s
  | .hartBurstFrame ch => Sys2Proof.Machine.execHartBurstFrame ch s
  | .keySel t down => Sys2Proof.Machine.execKeySel t down s
  | .keyZero t k => Sys2Proof.Machine.execKeyZero t k s
  | .keySpan t k => Sys2Proof.Machine.execKeySpan t k s
  | .clrtrim t cseq ch => Sys2Proof.Machine.execClrtrim t cseq ch s
  | .pdReceive t port h data => Sys2Proof.Machine.execPdReceive t port h data s
  | .safeCopyReceive t port h data unitsAgree => Sys2Proof.Machine.execSafeCopyReceive t port h data unitsAgree s
  | .skewWindowEnd t flow => Sys2Proof.Machine.execSkewWindowEnd t flow s
  | .flowTimeout t flow => Sys2Proof.Machine.execFlowTimeout t flow s
  | .safeDeadlineMiss t flow port benef shortfall => Sys2Proof.Machine.execSafeDeadlineMiss t flow port benef shortfall s
  | .ringFrameReceive t port kind tagged frame => Sys2Proof.Machine.execRingFrameReceive t port kind tagged frame s
  | .arpIcmpReceive t port arp tagged frame => Sys2Proof.Machine.execArpIcmpReceive t port arp tagged frame s
  | .txRingPost t head => Sys2Proof.Machine.execTxRingPost t head s
  | .frameBoundary t port => Sys2Proof.Machine.execFrameBoundary t port s
  | .linkChange t port speed => Sys2Proof.Machine.execLinkChange t port speed s
  | .acksafe cseq flow executive => Sys2Proof.Machine.execAcksafe cseq flow executive s
  | .netClrcnt cseq flow => Sys2Proof.Machine.execNetClrcnt cseq flow s
  | .endsess cseq => Sys2Proof.Machine.execEndsess cseq s
  | .maintDatagram t mac ip d => Sys2Proof.Machine.execMaintDatagram t mac ip d s
  | .maintSessionTimeout t => Sys2Proof.Machine.execMaintSessionTimeout t s
  | .ptpMessageReceive t port m => Sys2Proof.Machine.execPtpMessageReceive t port m s
  | .ptpInterval t port m => Sys2Proof.Machine.execPtpInterval t port m s
  | .masterLost t sync state => Sys2Proof.Machine.execMasterLost t sync state s
  | .monoCompUpdate t temp pairDiff => Sys2Proof.Machine.execMonoCompUpdate t temp pairDiff s
  | .timeStep t cseq => Sys2Proof.Machine.execTimeStep t cseq s
  | .monoRead t => Sys2Proof.Machine.execMonoRead t s
  | .syncRead t => Sys2Proof.Machine.execSyncRead t s
  | .octBasicPeriodStart t => Sys2Proof.Machine.execOctBasicPeriodStart t s
  | .octEntryDue t entry delay intruder => Sys2Proof.Machine.execOctEntryDue t entry delay intruder s
  | .octFrameReceive t ch start f => Sys2Proof.Machine.execOctFrameReceive t ch start f s
  | .octReplySend t ch => Sys2Proof.Machine.execOctReplySend t ch s
  | .octEventSend t entry => Sys2Proof.Machine.execOctEventSend t entry s
  | .octPortTimeout t port => Sys2Proof.Machine.execOctPortTimeout t port s
  | .octMasterLoss t => Sys2Proof.Machine.execOctMasterLoss t s
  | .coldStartTimerEnd t => Sys2Proof.Machine.execColdStartTimerEnd t s
  | .octCollision t ch => Sys2Proof.Machine.execOctCollision t ch s
  | .handover cseq addr => Sys2Proof.Machine.execHandover cseq addr s
  | .revoke cseq addr => Sys2Proof.Machine.execRevoke cseq addr s
  | .octClrcnt cseq => Sys2Proof.Machine.execOctClrcnt cseq s
  | .octStartTimeRead => Sys2Proof.Machine.execOctStartTimeRead s
  | .pcieLinkChange t up speed width => Sys2Proof.Machine.execPcieLinkChange t up speed width s
  | .pcieCompletionReceive t tag status flaws data => Sys2Proof.Machine.execPcieCompletionReceive t tag status flaws data s
  | .completionTimeout t tag => Sys2Proof.Machine.execCompletionTimeout t tag s
  | .flushTimer t win => Sys2Proof.Machine.execFlushTimer t win s
  | .pcieErrorMessage t wins log => Sys2Proof.Machine.execPcieErrorMessage t wins log s
  | .postedWriteTimeout t => Sys2Proof.Machine.execPostedWriteTimeout t s
  | .pcieInboundRequest t r => Sys2Proof.Machine.execPcieInboundRequest t r s
  | .resume cseq win => Sys2Proof.Machine.execResume cseq win s
  | .cfgrd t cseq => Sys2Proof.Machine.execCfgrd t cseq s
  | .cfgwr t cseq => Sys2Proof.Machine.execCfgwr t cseq s
  | .wefinfoRead => Sys2Proof.Machine.execWefinfoRead s
  | .pflinfoRead => Sys2Proof.Machine.execPflinfoRead s
  | .readaheadExpiry t => Sys2Proof.Machine.execReadaheadExpiry t s
  | .stationReadStart t station => Sys2Proof.Machine.execStationReadStart t station s
  | .stationReadTimeout t station => Sys2Proof.Machine.execStationReadTimeout t station s
  | .sidebandInputChange t levels => Sys2Proof.Machine.execSidebandInputChange t levels s
  | .sidebandOutputWrite levels => Sys2Proof.Machine.execSidebandOutputWrite levels s
  | .routeCopy t kind source lost => Sys2Proof.Machine.execRouteCopy t kind source lost s
  | .heartbeatReceive t path data delay => Sys2Proof.Machine.execHeartbeatReceive t path data delay s
  | .liveLineLoss t => Sys2Proof.Machine.execLiveLineLoss t s
  | .pairBlockReceive t m => Sys2Proof.Machine.execPairBlockReceive t m s
  | .commitRecordReceive t r good => Sys2Proof.Machine.execCommitRecordReceive t r good s
  | .snapshotReceive t tick entries => Sys2Proof.Machine.execSnapshotReceive t tick entries s
  | .partnerBlockReceive t words => Sys2Proof.Machine.execPartnerBlockReceive t words s
  | .join t cseq => Sys2Proof.Machine.execJoin t cseq s
  | .joinPhaseComplete t p => Sys2Proof.Machine.execJoinPhaseComplete t p s
  | .joinFail t reason => Sys2Proof.Machine.execJoinFail t reason s
  | .switch cseq => Sys2Proof.Machine.execSwitch cseq s
  | .leavePair t cseq => Sys2Proof.Machine.execLeavePair t cseq s
  | .firmwareLoaded t f => Sys2Proof.Machine.execFirmwareLoaded t f s
  | .startTestComplete t f => Sys2Proof.Machine.execStartTestComplete t f s
  | .loadComplete t check cfg => Sys2Proof.Machine.execLoadComplete t check cfg s
  | .configureComplete t => Sys2Proof.Machine.execConfigureComplete t s
  | .phaseOverrun t => Sys2Proof.Machine.execPhaseOverrun t s
  | .girthSilent t ns => Sys2Proof.Machine.execGirthSilent t ns s
  | .service t cseq tool => Sys2Proof.Machine.execService t cseq tool s
  | .leave t cseq => Sys2Proof.Machine.execLeave t cseq s
  | .resetCommand t cseq tool => Sys2Proof.Machine.execResetCommand t cseq tool s
  | .safeCommand t cseq => Sys2Proof.Machine.execSafeCommand t cseq s
  | .stage t cseq => Sys2Proof.Machine.execStage t cseq s
  | .sysVerify t cseq => Sys2Proof.Machine.execSysVerify t cseq s
  | .install t cseq => Sys2Proof.Machine.execInstall t cseq s
  | .activate t cseq => Sys2Proof.Machine.execActivate t cseq s
  | .confirm t cseq => Sys2Proof.Machine.execConfirm t cseq s
  | .pkgload t cseq => Sys2Proof.Machine.execPkgload t cseq s
  | .lcadv t cseq tool => Sys2Proof.Machine.execLcadv t cseq tool s
  | .sysFlashCommandDone t checks payload => Sys2Proof.Machine.execSysFlashCommandDone t checks payload s
  | .ovselWrite tmode => Sys2Proof.Machine.execOvselWrite tmode s
  | .bistSlice t slice failed => Sys2Proof.Machine.execBistSlice t slice failed s
  | .bistLapLate t => Sys2Proof.Machine.execBistLapLate t s
  | .bistManualRun t cseq item go => Sys2Proof.Machine.execBistManualRun t cseq item go s
  | .bistManualDone t failed => Sys2Proof.Machine.execBistManualDone t failed s
  | .ledRefresh t trafficA trafficB => Sys2Proof.Machine.execLedRefresh t trafficA trafficB s
  | .illegalInstruction c w => Sys2Proof.Machine.execIllegalInstruction c w s
  | .liveLineReturn t => Sys2Proof.Machine.execLiveLineReturn t s
  | .calibrationAgeExceeded t ch => Sys2Proof.Machine.execCalibrationAgeExceeded t ch s
  | .coldStartFrameEnd t => Sys2Proof.Machine.execColdStartFrameEnd t s
  | .carrier t ch => Sys2Proof.Machine.execCarrier t ch s
  | .fuseWriteComplete t => Sys2Proof.Machine.execFuseWriteComplete t s

end Sys2Proof.Machine
end

