-- ==== Sys2Proof/Machine/PeEncode.lean ====
section
/-!
DEFINITION. The words that encode PE's operations and bundles (07 R244 to R252), from the encoding tables; the operations and pairs
that have an encoding.
-/

namespace Sys2Proof.Machine

/-- The code of a condition (07 R252). -/
def condCode : PeCond → Nat
  | .eq => 0 | .ne => 1 | .lt => 2 | .le => 3 | .gt => 4 | .ge => 5

/-- The opcode of a VR operation, and whether it has a vb and a vc field (07 R249). -/
def vArithCode : VArith → Nat × Bool × Bool
  | .vadd => (0x01, true, false)
  | .vsub => (0x02, true, false)
  | .vmul => (0x03, true, false)
  | .vdiv => (0x04, true, false)
  | .vfma => (0x05, true, true)
  | .vfms => (0x06, true, true)
  | .vmin => (0x07, true, false)
  | .vmax => (0x08, true, false)
  | .vabs => (0x09, false, false)
  | .vneg => (0x0A, false, false)
  | .vsqrt => (0x0B, false, false)
  | .vmov => (0x0C, false, false)
  | .vsel => (0x0D, true, true)
  | .vhadd => (0x0E, true, false)

/-- A word: its opcode in bits 31 to 26, then fields each placed at its lowest bit. -/
def peFields (op : Nat) (fields : List (Nat × Nat)) : Nat := fields.foldl (fun w f => w + f.1 * 2 ^ f.2) (op * 2 ^ 26)

/-- The fields of a memory operand (07 R246). -/
def memFields (m : PeMem) : List (Nat × Nat) := [(m.xs.val, 18), (m.space.val, 16), (m.off.toNat, 0)]

/-- The word of a V-slot operation (07 R248, R249). -/
def encodeVector : PeVectorSlot → Nat
  | .op .vnop => 0
  | .op (.arith o vd va vb vc) => peFields (vArithCode o).1 [(vd.val, 22), (va.val, 18), (vb.val, 14), (vc.val, 10)]
  | .op (.vperm vd va sel) => peFields 0x0F [(vd.val, 22), (va.val, 18), (sel.toNat, 2)]
  | .op (.vspl vd sa) => peFields 0x10 [(vd.val, 22), (sa.val, 18)]
  | .op (.vins vd sa lane) => peFields 0x11 [(vd.val, 22), (sa.val, 18), (lane.val, 10)]
  | .op (.vext sd va lane) => peFields 0x12 [(sd.val, 22), (va.val, 18), (lane.val, 10)]
  | .op (.vcmp fd all va vb mask cond) =>
    peFields 0x18 [(fd.val, 23), (all.toNat, 22), (va.val, 18), (vb.val, 14), (mask.toNat, 10), (condCode cond, 7)]
  | .vld vd m => peFields 0x20 ((vd.val, 22) :: memFields m)
  | .vst vs m => peFields 0x21 ((vs.val, 22) :: memFields m)

/-- Opcodes of the families of the S-slot (07 R251). -/
def sIntCode : SInt → Nat
  | .sadd => 0x01 | .ssub => 0x02 | .sand => 0x03 | .sor => 0x04 | .sxor => 0x05 | .smul => 0x0C

def sShiftCode : SShift → Nat
  | .sshl => 0x06 | .sshr => 0x07 | .ssra => 0x08

def sFloatCode : SFloat → Nat
  | .fadd => 0x10 | .fsub => 0x11 | .fmul => 0x12 | .fdiv => 0x13 | .fmin => 0x14 | .fmax => 0x15

def sUnaryCode : SUnary → Nat
  | .fabs => 0x16 | .fsqrt => 0x17 | .fcvti => 0x19 | .fcvtf => 0x1A | .flg2 => 0x1B | .fex2 => 0x1C

/-- The word of a scalar operation. -/
def encodeScalar : PeScalar → Nat
  | .snop => 0
  | .int op sd sa sb => peFields (sIntCode op) [(sd.val, 22), (sa.val, 18), (sb.val, 14)]
  | .shift op sd sa n => peFields (sShiftCode op) [(sd.val, 22), (sa.val, 18), (n.val, 0)]
  | .saddi sd sa imm => peFields 0x09 [(sd.val, 22), (sa.val, 18), (imm.toNat, 0)]
  | .sori sd sa imm => peFields 0x0A [(sd.val, 22), (sa.val, 18), (imm.toNat, 0)]
  | .slih sd imm => peFields 0x0B [(sd.val, 22), (imm.toNat, 0)]
  | .scmp fd sa sb cond => peFields 0x0D [(fd.val, 23), (sa.val, 18), (sb.val, 14), (condCode cond, 11)]
  | .float op sd sa sb => peFields (sFloatCode op) [(sd.val, 22), (sa.val, 18), (sb.val, 14)]
  | .unary op sd sa => peFields (sUnaryCode op) [(sd.val, 22), (sa.val, 18)]
  | .fcmp fd sa sb cond => peFields 0x18 [(fd.val, 23), (sa.val, 18), (sb.val, 14), (condCode cond, 11)]
  | .flop fd fa fb op => peFields 0x30 [(fd.val, 23), (fa.val, 20), (fb.val, 17), (op.val, 14)]
  | .ftos sd => peFields 0x31 [(sd.val, 22)]
  | .stof sa => peFields 0x32 [(sa.val, 18)]

/-- The word of an accumulator operation. -/
def encodeAccumulator : PeAccumulator → Nat
  | .aadd ad va lane => peFields 0x24 [(ad.val, 23), (va.val, 18), (lane.val, 16)]
  | .asub ad va lane => peFields 0x25 [(ad.val, 23), (va.val, 18), (lane.val, 16)]
  | .aadds ad sa => peFields 0x26 [(ad.val, 23), (sa.val, 18)]
  | .asubs ad sa => peFields 0x27 [(ad.val, 23), (sa.val, 18)]
  | .ald ad m => peFields 0x28 ((ad.val, 23) :: memFields m)
  | .ast ad m => peFields 0x29 ((ad.val, 23) :: memFields m)
  | .aseti ad imm => peFields 0x2A [(ad.val, 23), (imm.toNat, 0)]
  | .acmp fd ad ab cond => peFields 0x2B [(fd.val, 23), (ad.val, 20), (ab.val, 17), (condCode cond, 11)]
  | .aflt sd ab => peFields 0x2C [(sd.val, 22), (ab.val, 17)]
  | .amov ad ab => peFields 0x2D [(ad.val, 23), (ab.val, 17)]
  | .amax0 ad => peFields 0x2E [(ad.val, 23)]

/-- The word of an S-slot operation (07 R250, R251, R255). -/
def encodeSlot : PeSlot → Nat
  | .scalar o => encodeScalar o
  | .lds sd m => peFields 0x20 ((sd.val, 22) :: memFields m)
  | .sts ss m => peFields 0x21 ((ss.val, 22) :: memFields m)
  | .acc o => encodeAccumulator o
  | .brf fa sense off => peFields 0x38 [(fa.val, 23), (sense.toNat, 22), (off.toNat, 0)]
  | .bra off => peFields 0x39 [(off.toNat, 0)]
  | .loop k m => peFields 0x3A [(k.toNat, 14), (m.toNat, 0)]
  | .lidx sd level => peFields 0x3E [(sd.val, 22), (level.val, 16)]
  | .end_ => peFields 0x3B []
  | .trp k fa => peFields 0x3C [(k.val, 21), (fa.val, 18)]
  | .trg j fa => peFields 0x3D [(j.val, 23), (fa.val, 20)]

/-- The operation has an encoding: fields its word does not have are 0, its memory operand is defined (07 R246, R249). -/
def vectorDefined : PeVectorSlot → Bool
  | .op (.arith o _ _ vb vc) =>
    ((vArithCode o).2.1 || vb.val == 0) && ((vArithCode o).2.2 || vc.val == 0) && (o != .vsel || decide (vc.val < 8))
  | .op _ => true
  | .vld _ m => memDefined m true false
  | .vst _ m => memDefined m true true

/-- The operation has an encoding: its memory operand is defined, in a space and at an offset the accumulator operations take; an
offset of a branch is not 0 (07 R246, R251, R255). -/
def slotDefined : PeSlot → Bool
  | .lds _ m => memDefined m false false
  | .sts _ m => memDefined m false true
  | .acc (.ald _ m) => (m.space.val == 0 || m.space.val == 3) && memDefined m false false && m.off.toNat % 2 == 0
  | .acc (.ast _ m) => (m.space.val == 0 || m.space.val == 3) && memDefined m false true && m.off.toNat % 2 == 0
  | .brf _ _ off => off != 0
  | .bra off => off != 0
  | _ => true

/-- The pair may stand in one bundle: no register written twice, no two accesses to one kind of memory (07 R245). -/
def bundleAllowed (v : PeVectorSlot) (o : PeSlot) : Bool :=
  !((vectorWrites v).any fun x => (slotWrites o).contains x) &&
    match vectorMem v, slotMem o with
    | some (a, _), some (b, _, _) => (a.space.val == 1) != (b.space.val == 1)
    | _, _ => true

end Sys2Proof.Machine
end

