-- ==== Sys2Proof/Safety.lean ====
section
/-!
DEFINITION. The terms in which claims speak: what a core does besides its result, what a mailbox accepts, the canonical forms,
the safe state.
-/

namespace Sys2Proof.Machine

/-! ### Cores -/

/-- Core `c` executes, and the fetch of the instruction at its PC passes and leaves the state `u` (03 R86, R87). -/
def State.Runs (s : State) (c : Master) (u : State) : Prop := s.executes c = true ∧ s.fetch c = (u, .ok)

/-- Nothing but core `c` differs between `u` and `t`: no register of a block, no memory word, no other core. -/
def CoreOnly (c : Master) (u t : State) : Prop := t = u.onCore c fun _ => t.coreOf c

/-- The instruction retired and the next one follows (02 R59; 03 R91). -/
def Retired (x y : CoreState) : Prop := y.pc = x.pc + 4 ∧ y.ric = x.ric + 1

/-- GP `rd` received `v`, GP0 excepted; every other general register, every floating-point and special register is unchanged
(03 R81). -/
def GpWritten (x y : CoreState) (rd : RegNo) (v : Word) : Prop :=
  y.gpr rd = (if rd = 0 then 0 else v) ∧ (∀ n, n ≠ rd → y.gpr n = x.gpr n) ∧ y.fp = x.fp ∧ y.spr = x.spr

/-- No register of the core changed. -/
def RegistersKept (x y : CoreState) : Prop := y.gp = x.gp ∧ y.fp = x.fp ∧ y.spr = x.spr

/-- Exception entry to the executive (false) or the monitor (true) (03 R119): the saved registers, STATUS, the vector; no general or
floating-point register changes. -/
def Entered (x y : CoreState) (m : Bool) (cause sub : Nat) (epc eaddr : Word) : Prop :=
  y.special (sprEPC m) = epc ∧ y.special (sprECAUSE m) = BitVec.ofNat 32 (cause + sub % 256 * 256) ∧
  y.special (sprEADDR m) = eaddr ∧
  fieldGet (y.special (sprESTAT m)) 0 2 = x.priv ∧ fieldGet (y.special (sprESTAT m)) 2 1 = x.ie.toNat ∧
  fieldGet (y.special (sprESTAT m)) 8 5 = x.part ∧
  y.priv = (if m then 2 else 1) ∧ y.ie = false ∧ (if m then y.exlm else y.exle) = true ∧ y.part = x.part ∧
  y.pc = BitVec.ofNat 32 ((x.special (if m then sprMVBASE else sprEVBASE)).toNat / 2048 * 2048 + cause * 0x40) ∧
  y.gp = x.gp ∧ y.fp = x.fp

/-! ### Frames -/

/-- No core, service core or memory word differs. -/
def CoresAndMemoryKept (s t : State) : Prop :=
  t.cx = s.cx ∧ t.sc0 = s.sc0 ∧ t.sc1 = s.sc1 ∧ t.mem = s.mem ∧ t.memb = s.memb

/-- No core or service core differs. -/
def CoresKept (s t : State) : Prop := t.cx = s.cx ∧ t.sc0 = s.sc0 ∧ t.sc1 = s.sc1

/-- No core or service core differs, and no memory word but those with these keys. -/
def OnlyWordsOf (keys : List Nat) (s t : State) : Prop := CoresKept s t ∧ ∀ k, k ∉ keys → t.stored k = s.stored k

/-- No core, service core or memory word differs, but for what a core keeps of its last TRS, which a step of SYNC drops (03 R106). -/
def CoresOverStepAndMemoryKept (s t : State) : Prop :=
  (∀ c, t.coreOf c = { s.coreOf c with trsNs := (t.coreOf c).trsNs }) ∧ t.mem = s.mem ∧ t.memb = s.memb

/-- The window of a block in which the register with this key lies: bits 31 to 20 of its address (00 R3). -/
def windowOf (key : Nat) : Nat := key % 2 ^ 32 / 2 ^ 20

/-- Every register outside these windows reads as before. -/
def OnlyRegistersOf (windows : List Nat) (s t : State) : Prop := ∀ k, windowOf k ∉ windows → t.rd k = s.rd k

/-- These events and no others, in this order, were emitted between `s` and `t`, at the MONO of `t`. -/
def EventsAdded (s t : State) (l : List (Nat × List Nat)) : Prop :=
  t.emitted = s.emitted ++ l.map fun e => ⟨e.1, e.2, t.mono⟩

/-! ### Memory -/

/-- No merge-buffer entry holds bytes of the word (04 R144). -/
abbrev State.NotMerged (s : State) (k : Nat) : Prop := ∀ e ∈ s.memb.merge, e.key ≠ k

/-! ### Mailboxes -/

/-- The mailbox accepts the sequence number (00 R9). -/
abbrev State.Accepts (s : State) (last : Fld) (cseq : Nat) : Prop := s.acceptance last cseq = .accept

/-- The mailbox has taken the sequence number and shows this result (00 R9). -/
def State.Answered (t : State) (last res : Fld) (cseq r : Nat) : Prop := t.get last = cseq % 0x10000 ∧ t.get res = r

/-! ### Canonical forms -/

/-- The canonical form of a memory: addresses rising, no word listed that an unlisted address reads as. -/
abbrev Memory.wf (m : List (Nat × MWord)) : Bool := CMap.wf (fun _ => unwrittenMarker) m

/-- Memory and registers are in their canonical form: equal contents are equal data. -/
def State.Canonical (s : State) : Prop :=
  Memory.wf s.mem = true ∧ CMap.wf resetOf s.regs = true

/-! ### The safe state -/

/-- Girth has latched SAFE and permits no safety output (08 R284). -/
abbrev State.SafeLatched (s : State) : Prop :=
  s.get Reg.GIRTH_STAT_STATE = 2 ∧ ∀ j < 4, s.get (Reg.GIRTH_SOUT_PERMIT j) = 0

end Sys2Proof.Machine
end

