-- ==== Sys2Proof/WellFormed.lean ====
section
/-!
DEFINITION. Which commands are well formed: the ranges of the operands that the types of Syntax.lean leave wider than the
spec has them. A command's meaning is total and does not rest on these checks; they say what a sender may send.
-/

namespace Sys2Proof

namespace WellFormed

/-- A number of `n` bits. -/
def below (n v : Nat) : Bool := decide (v < 2 ^ n)

/-- A MONO value, 64 bits (00 R7). -/
def time (t : Nat) : Bool := below 64 t

/-- A tick edge: MONO a multiple of 125 µs (01 R22). -/
def edgeTime (t : Nat) : Bool := time t && decide (t % 125000 = 0)

/-- A word address. -/
def aligned (a : Nat) : Bool := below 32 a && decide (a % 4 = 0)

/-- A received PD header: a 32-bit address, 40 bytes (11 R383). -/
def header (h : PdHeader) : Bool := below 32 h.src && decide (h.bytes.length = 40)

/-- A maintenance datagram: 32-bit number and address (11 R406). -/
def datagram : MaintDatagram → Bool
  | .request | .answer _ => true
  | .access seq crc addr _ => below 32 seq && below 32 crc && below 32 addr

/-- A message of the pair: blocks of 64 bytes (14 R472), VIDs and types of a force. -/
def message : PairMessage → Bool
  | .block key words => below 32 key && decide (words.length = 16)
  | .forces l => decide (l.length ≤ 256) && l.all fun f => below 3 f.type
  | .switch tick => below 32 tick
  | .prepared identity => below 32 identity
  | .held tick => below 32 tick
  | .change tick _ => below 32 tick
  | .starting => true
  | .bulk _ timers _ => timers.all fun i => decide (i.index < 32)

/-- A commit record: a task of the sixteen, its timers of the thirty-two (14 R472). -/
def record (r : CommitRecord) : Bool :=
  decide (r.task < 16) && r.timers.all fun i => decide (i.index < 32)

/-- Phase 2 of a join names a pair mode of two bits (14 R480). -/
def joined : JoinPhase → Bool
  | .configuration _ mode => below 2 mode
  | .identity | .time | .copy | .tasks => true

/-- A variable of a table: type code of three bits, image entry of 1024 (05 R173, R186). -/
def varEntry (v : VarEntry) : Bool := below 3 v.type && decide (v.entry < 1024)

/-- A change package: image entries, tasks and region sources that exist (05 R193). -/
def package (p : ChangePackage) : Bool :=
  p.entries.all (fun e => decide (e.index < 1024)) && p.tasks.all (fun k => decide (k.task < 16)) &&
    p.sources.all (fun x => decide (x.1 < 32)) && p.vars.all varEntry

/-- A change package that may be there. -/
def offered : Option ChangePackage → Bool
  | none => true
  | some p => package p

/-- The check of a slot: a security version, a program identity, a serial number (15 R511). -/
def slot (c : SlotCheck) : Bool := below 8 c.svn && below 32 c.pid && below 32 c.serial

/-- A partition of the thirty-two, its window in order (01 R16). -/
def partition (p : PartitionDecl) : Bool := decide (p.index < 32) && decide (p.lo ≤ p.hi) && decide (p.bank < 3)

/-- A configuration: register keys are word addresses, partitions are distinct (15 R500), library items as Durad links them (07 R257). -/
def configuration (c : Configuration) : Bool :=
  c.values.all (fun e => aligned e.1) && c.parts.all partition && decide (c.parts.map (·.index)).Nodup &&
    decide (c.keys.length ≤ 4) && c.program.vars.all varEntry && c.schemes.all (fun e => Machine.schemeOk e.2)

end WellFormed

open WellFormed in
/-- The well-formed commands. -/
def Instr.wellFormed : Instr → Bool
  | .registerWrite t _ _ _ _ pkg => time t && offered pkg
  | .moduleReset t => time t
  | .powerGood t => time t
  | .powerFailureSignal t _ => time t
  | .powerFailureClear t _ => time t
  | .railsOutOfRegulation t => time t
  | .supplySample t _ => time t
  | .tickEdge t _ disagree => edgeTime t && decide disagree.Nodup
  | .onlineChangeSwitchEnd t _ => time t
  | .resyncRelease t _ => time t
  | .bandwidthWindowEnd t _ => time t && decide (t % 1000000 = 0)
  | .voterCompare t _ _ _ => time t
  | .dbgHalt t cseq => time t && below 16 cseq
  | .debugHaltTaken t => time t
  | .dbgResume t cseq _ => time t && below 16 cseq
  | .dbgStep t cseq _ => time t && below 16 cseq
  | .dbgReadGp t cseq _ => time t && below 16 cseq
  | .dbgWriteGp t cseq _ => time t && below 16 cseq
  | .dbgReadFp t cseq _ => time t && below 16 cseq
  | .dbgWriteFp t cseq _ => time t && below 16 cseq
  | .dbgReadSpecial t cseq _ => time t && below 16 cseq
  | .dbgWriteSpecial t cseq _ => time t && below 16 cseq
  | .dbgLoad t cseq _ => time t && below 16 cseq
  | .dbgStore t cseq _ pkg => time t && below 16 cseq && offered pkg
  | .dbgSetBreakpoint t cseq _ => time t && below 16 cseq
  | .dbgClearBreakpoint t cseq _ => time t && below 16 cseq
  | .breakpointMatch t _ _ => time t
  | .scWatchdogKick t _ _ => time t
  | .scWatchdogExpiry t _ => time t
  | .ricLoRead => true
  | .intRegisterOp _ _ _ _ _ => true
  | .intImmediateOp _ _ _ _ _ => true
  | .load _ _ _ _ _ => true
  | .store _ _ _ _ _ pkg => offered pkg
  | .flwFld _ _ _ _ _ => true
  | .fswFsd _ _ _ _ _ pkg => offered pkg
  | .ldl _ _ _ => true
  | .stc _ _ _ _ => true
  | .branch _ _ _ _ _ => true
  | .j _ _ => true
  | .jl _ _ => true
  | .jr _ _ _ => true
  | .jlr _ _ _ _ => true
  | .fpOperation _ _ _ _ _ _ _ => true
  | .pld _ _ _ => true
  | .sys _ _ => true
  | .sysSafeCall _ => true
  | .bistCoreSliceCall t => time t
  | .brk _ _ => true
  | .eret _ => true
  | .mfs _ _ _ => true
  | .mts _ _ _ => true
  | .barM _ => true
  | .barMComplete _ => true
  | .barW _ _ => true
  | .barWComplete _ => true
  | .trd t _ _ _ => time t
  | .trs t _ _ _ => time t
  | .cyw _ _ => true
  | .cywExecutiveReturn _ => true
  | .imc _ _ => true
  | .cmo _ _ _ => true
  | .interruptTaken _ => true
  | .tcmpMatch _ t => time t
  | .mergeEntryTimeout t => time t
  | .correctionWriteback t _ => time t
  | .codeRefetchComplete r => time r.t
  | .pqinfoRead => true
  | .sramInitDone t => time t
  | .dramInitDone t => time t
  | .scrubWord t _ _ => time t
  | .scrubLapOvertime t => time t
  | .flipArm => true
  | .flipDisarm => true
  | .rangeClear cseq _ => below 16 cseq
  | .rangeClearDone t => time t
  | .cycRunWrite t task _ => time t && below 4 task
  | .budgetExpiry t => time t
  | .dispRead => true
  | .cywValueRead _ => true
  | .timerStart t _ => time t
  | .timerStop t _ => time t
  | .timerExpiry t _ => time t
  | .edgeFifoRead => true
  | .forceSet cseq type _ => below 16 cseq && below 3 type
  | .forceRemove cseq _ => below 16 cseq
  | .forceRemoveAll cseq _ => below 16 cseq
  | .forceRead cseq => below 16 cseq
  | .coldStart cseq => below 16 cseq
  | .warmStart cseq => below 16 cseq
  | .stopCommand cseq => below 16 cseq
  | .prepare cseq pkg => below 16 cseq && package pkg
  | .arm cseq => below 16 cseq
  | .revert cseq => below 16 cseq
  | .confirmChange cseq => below 16 cseq
  | .abandon cseq => below 16 cseq
  | .afeFrameStart t codes => time t && codes.all fun e => decide (e.1 < 24)
  | .peRawWordReceive t _ _ => time t
  | .intakeDeadline t => time t
  | .peSlotStart t _ upsets => time t && upsets.all fun e => below 32 e.1
  | .contextCut t => time t
  | .slotDeadline t => time t
  | .verify t cseq _ => time t && below 16 cseq
  | .verifyComplete t => time t
  | .enable t cseq _ => time t && below 16 cseq
  | .disable t cseq _ => time t && below 16 cseq
  | .parameterCommand t cseq _ _ => time t && below 16 cseq
  | .calibrationStart t _ => time t
  | .calibrationPhase t _ => time t
  | .calibrationEnd t _ _ => time t
  | .referenceCheck t _ _ _ _ => time t
  | .peVectorOp _ => true
  | .vld _ _ => true
  | .vst _ _ => true
  | .peScalarOp _ => true
  | .lds _ _ => true
  | .sts _ _ => true
  | .peAccumulatorOp _ => true
  | .brf _ _ _ => true
  | .bra _ => true
  | .loopBegin _ _ => true
  | .endEntry => true
  | .lidx _ _ => true
  | .trp t _ _ => time t
  | .trg t _ _ => time t
  | .girthPdataWrite _ => true
  | .girthLoad t cseq => time t && below 16 cseq
  | .instrst t cseq _ => time t && below 16 cseq
  | .girthClrout t cseq _ _ => time t && below 16 cseq
  | .girthSafeLatch t => time t
  | .girthChannelMismatch t _ => time t
  | .dynamicEnableLoss t _ => time t
  | .gltripPulseEnd t => time t
  | .watchdogResponse t _ => time t
  | .watchdogTimeout t => time t
  | .filteredStateChange t _ => time t
  | .discrepancyFault t _ => time t
  | .refreshTimeout t _ => time t
  | .safetyExternalDrive t _ => time t
  | .switchTestStart t _ => time t
  | .switchTestCheck t _ _ => time t
  | .girthRawWordReceive t _ => time t
  | .rawLost t _ => time t
  | .peSilentChange t => time t
  | .tripRelease t _ => time t
  | .tripOverloadCutoff t _ => time t
  | .tripConfirmCheck t _ _ => time t
  | .tcsStateChange t _ _ _ _ => time t
  | .tcsResume t _ => time t
  | .recEventReceive t => time t
  | .rateLimitRefill t _ => time t
  | .eventProgramDone t _ _ => time t
  | .opsecSave t => time t
  | .frost t cseq _ => time t && below 16 cseq
  | .thaw t cseq _ => time t && below 16 cseq
  | .trigger t cseq => time t && below 16 cseq
  | .exportRecord t cseq => time t && below 16 cseq
  | .exportComplete t => time t
  | .readRecord cseq => below 16 cseq
  | .captureStored t failedBlocks => time t && decide failedBlocks.Nodup
  | .wireBreakChange t _ _ => time t
  | .counterEdge t _ => time t
  | .outputOverload t _ _ => time t
  | .outputExternalDrive t _ => time t
  | .testPulseStart t _ => time t
  | .testPulseCheck t _ _ => time t
  | .openLoad t _ _ => time t
  | .fieldSupplyStateChange t _ _ => time t
  | .fioClrout t cseq _ _ => time t && below 16 cseq
  | .clrfs t cseq _ => time t && below 16 cseq
  | .loopBandChange t _ _ _ => time t
  | .loopFlagChange t _ _ => time t
  | .loopOverload t _ _ => time t
  | .loopOverloadRetry t _ _ => time t
  | .loopReleaseTimeout t _ => time t
  | .jumperChange t _ _ => time t
  | .hartGo t cseq _ len => time t && below 16 cseq && below 9 len
  | .hartTransactionEnd t _ _ response => time t && decide (response.length ≤ 272)
  | .hartBurstFrame _ => true
  | .keySel t _ => time t
  | .keyZero t _ => time t
  | .keySpan t _ => time t
  | .clrtrim t cseq _ => time t && below 16 cseq
  | .pdReceive t _ h data => time t && header h && decide (data.length ≤ 1432)
  | .safeCopyReceive t _ h data _ => time t && header h && decide (data.length ≤ 1432)
  | .skewWindowEnd t _ => time t
  | .flowTimeout t _ => time t
  | .safeDeadlineMiss t _ _ _ _ => time t
  | .ringFrameReceive t _ _ _ frame => time t && decide (frame.length ≤ 1522)
  | .arpIcmpReceive t _ _ _ frame => time t && decide (frame.length ≤ 1522)
  | .txRingPost t _ => time t
  | .frameBoundary t _ => time t
  | .linkChange t _ _ => time t
  | .acksafe cseq _ _ => below 16 cseq
  | .netClrcnt cseq _ => below 16 cseq
  | .endsess cseq => below 16 cseq
  | .maintDatagram t mac ip d => time t && below 48 mac && below 32 ip && datagram d
  | .maintSessionTimeout t => time t
  | .ptpMessageReceive t _ _ => time t
  | .ptpInterval t _ _ => time t
  | .masterLost t _ _ => time t
  | .monoCompUpdate t _ _ => time t
  | .timeStep t cseq => time t && below 16 cseq
  | .monoRead t => time t
  | .syncRead t => time t
  | .octBasicPeriodStart t => time t
  | .octEntryDue t _ _ _ => time t
  | .octFrameReceive t _ start f => time t && time start && decide (f.payload.length ≤ 127)
  | .octReplySend t _ => time t
  | .octEventSend t _ => time t
  | .octPortTimeout t _ => time t
  | .octMasterLoss t => time t
  | .coldStartTimerEnd t => time t
  | .octCollision t _ => time t
  | .handover cseq _ => below 16 cseq
  | .revoke cseq _ => below 16 cseq
  | .octClrcnt cseq => below 16 cseq
  | .octStartTimeRead => true
  | .pcieLinkChange t _ speed width => time t && [1, 2, 3].contains speed && [1, 2, 4].contains width
  | .pcieCompletionReceive t tag status _ data => time t && below 8 tag && below 3 status && decide (data.length ≤ 64)
  | .completionTimeout t tag => time t && below 8 tag
  | .flushTimer t win => time t && decide (win < 272)
  | .pcieErrorMessage t wins _ => time t && wins.all fun w => decide (w < 272)
  | .postedWriteTimeout t => time t
  | .pcieInboundRequest t r => time t && below 16 r.requester && below 32 r.addr
  | .resume cseq _ => below 16 cseq
  | .cfgrd t cseq => time t && below 16 cseq
  | .cfgwr t cseq => time t && below 16 cseq
  | .wefinfoRead => true
  | .pflinfoRead => true
  | .readaheadExpiry t => time t
  | .stationReadStart t _ => time t
  | .stationReadTimeout t _ => time t
  | .sidebandInputChange t _ => time t
  | .sidebandOutputWrite _ => true
  | .routeCopy t _ _ _ => time t
  | .heartbeatReceive t _ _ _ => time t
  | .liveLineLoss t => time t
  | .pairBlockReceive t m => time t && message m
  | .commitRecordReceive t r _ => time t && record r
  | .snapshotReceive t tick entries => time t && below 32 tick && entries.all fun e => decide (e.1 < 1024) && decide (e.2.length ≤ 358)
  | .partnerBlockReceive t words => time t && decide (words.length ≤ 256)
  | .join t cseq => time t && below 16 cseq
  | .joinPhaseComplete t p => time t && joined p
  | .joinFail t _ => time t
  | .switch cseq => below 16 cseq
  | .leavePair t cseq => time t && below 16 cseq
  | .firmwareLoaded t f => time t && slot f.slotA && slot f.slotB && f.words.all fun e => aligned e.1 && decide (f.jumpers.length = 8)
  | .startTestComplete t f => time t && f.words.all fun e => aligned e.1 && decide (f.failed.map (·.1)).Nodup
  | .loadComplete t check cfg => time t && slot check && configuration cfg
  | .configureComplete t => time t
  | .phaseOverrun t => time t
  | .girthSilent t _ => time t
  | .service t cseq _ => time t && below 16 cseq
  | .leave t cseq => time t && below 16 cseq
  | .resetCommand t cseq _ => time t && below 16 cseq
  | .safeCommand t cseq => time t && below 16 cseq
  | .stage t cseq => time t && below 16 cseq
  | .sysVerify t cseq => time t && below 16 cseq
  | .install t cseq => time t && below 16 cseq
  | .activate t cseq => time t && below 16 cseq
  | .confirm t cseq => time t && below 16 cseq
  | .pkgload t cseq => time t && below 16 cseq
  | .lcadv t cseq _ => time t && below 16 cseq
  | .sysFlashCommandDone t checks _ => time t && decide (checks.length ≤ 2)
  | .ovselWrite _ => true
  | .bistSlice t _ _ => time t
  | .bistLapLate t => time t
  | .bistManualRun t cseq _ _ => time t && below 16 cseq
  | .bistManualDone t _ => time t
  | .ledRefresh t _ _ => time t
  | .illegalInstruction _ _ => true
  | .liveLineReturn t => time t
  | .calibrationAgeExceeded t _ => time t
  | .coldStartFrameEnd t => time t
  | .carrier t _ => time t
  | .fuseWriteComplete t => time t

end Sys2Proof
end

