-- ==== Sys2Proof/Certificates/Slice0/Obligations.lean ====
section
/-!
DEFINITION. The statements for the provers. Each names its rules; what rests on a choice of the model names the log entry.
-/

open Sys2Proof Sys2Proof.Machine Sys2Proof.Machine.Reg

/-- A step runs the command at the front of the queue; an empty queue idles (the model's queue, log entry 1).
(00_scope.md R1) For every command c, list rest and state s, step of s with c at the front of its queue is exec c on s
with the queue's rest; step of a state with an empty queue answers that state. -/
def Obligations.StepRunsFrontCommand : Prop :=
  (∀ (c : Instr) (rest : List Instr) (s : State), step { s with pending := c :: rest } = exec c { s with pending := rest }) ∧
  (∀ s : State, s.pending = [] → step s = .next s)

/-- An integer register or immediate operation writes its result to rd and nothing else. (03 R81, 03 R93, 03 R94) On a
core that executes and whose fetch passes, an integer register operation with a result (no divisor 0; rb = 0 for CLZ
and the extensions) and an immediate operation (ra = 0 for LUI) complete: rd receives the result (GP0 stays 0), every
other general, floating-point and special register is unchanged, PC advances by 4, the instruction counts as retired,
and nothing outside the core changes. -/
def Obligations.IntegerOperationsWriteResult : Prop :=
  (∀ (c : Master) (op : IntOp) (rd ra rb : RegNo) (s u : State) (v : Word), s.Runs c u → (intUnary op = true → rb = 0) →
    intResult op ((u.coreOf c).gpr ra) ((u.coreOf c).gpr rb) rb.val = some v →
    ∃ t, exec (.intRegisterOp c op rd ra rb) s = .next t ∧ CoreOnly c u t ∧
      GpWritten (u.coreOf c) (t.coreOf c) rd v ∧ Retired (u.coreOf c) (t.coreOf c)) ∧
  (∀ (c : Master) (op : ImmOp) (rd ra : RegNo) (imm : BitVec 16) (s u : State), s.Runs c u → (op = .lui → ra = 0) →
    ∃ t, exec (.intImmediateOp c op rd ra imm) s = .next t ∧ CoreOnly c u t ∧
      GpWritten (u.coreOf c) (t.coreOf c) rd (immResult op ((u.coreOf c).gpr ra) imm) ∧ Retired (u.coreOf c) (t.coreOf c))

/-- DIV and REM round toward zero and wrap, a divisor of 0 traps; MULH and MULHU give the high half of the product;
CLZ counts. (03 R93, 03 R114, 03 R117) For a divisor that is not 0, DIV gives the quotient of the signed values
rounded toward zero and REM the remainder with the sign of the dividend, except that 0x80000000 divided by 0xFFFFFFFF
gives 0x80000000; the quotient times the divisor plus the remainder is the dividend modulo 2^32. MULH and MUL together
are the signed product, MULHU and MUL the unsigned one. CLZ of a word that is not 0 is the number of zero bits above
its highest one, CLZ of 0 is 32. On a core that executes, whose fetch passes, at partition or executive privilege with
EXLE = 0: DIV, DIVU, REM or REMU with a divisor register that reads 0 takes exception cause 8 to the executive with
the instruction's address in EPC_E and 0 in EADDR_E, no general or floating-point register written, no register of a
block and no memory word changed. -/
def Obligations.DivisionAndProductResults : Prop :=
  (∀ (a b : Word) (n : Nat),
    (b ≠ 0 → ∃ q r, intResult .div a b n = some q ∧ intResult .rem a b n = some r ∧ q * b + r = a ∧
      (¬ (a = 0x80000000#32 ∧ b = 0xFFFFFFFF#32) → q.toInt = a.toInt.tdiv b.toInt) ∧ r.toInt = a.toInt.tmod b.toInt) ∧
    intResult .div 0x80000000#32 0xFFFFFFFF#32 n = some 0x80000000#32 ∧ intResult .rem 0x80000000#32 0xFFFFFFFF#32 n = some 0#32 ∧
    (∃ h l, intResult .mulh a b n = some h ∧ intResult .mul a b n = some l ∧ a.toInt * b.toInt = h.toInt * 2 ^ 32 + l.toNat) ∧
    (∃ h l, intResult .mulhu a b n = some h ∧ intResult .mul a b n = some l ∧ a.toNat * b.toNat = h.toNat * 2 ^ 32 + l.toNat) ∧
    (∃ z, intResult .clz a b n = some z ∧ z.toNat ≤ 32 ∧ (z.toNat = 32 ↔ a = 0) ∧
      (a ≠ 0 → a.getLsbD (31 - z.toNat) = true ∧ ∀ i, 31 - z.toNat < i → a.getLsbD i = false))) ∧
  (∀ (c : Master) (op : IntOp) (rd ra rb : RegNo) (s u : State), s.Runs c u →
    (op = .div ∨ op = .divu ∨ op = .rem ∨ op = .remu) → (u.coreOf c).gpr rb = 0 →
    (u.coreOf c).priv ≤ 1 → (u.coreOf c).exle = false →
    ∃ t, exec (.intRegisterOp c op rd ra rb) s = .next t ∧
      Entered (u.coreOf c) (t.coreOf c) false 8 0 (u.coreOf c).pc 0 ∧ (t.coreOf c).ric = (u.coreOf c).ric ∧
      t.regs = u.regs ∧ t.mem = u.mem)

/-- A branch goes to PC + off x 4 when its condition holds, else on; J, JL, JR and JLR set PC and their link register.
(03 R91, 03 R94) On a core that executes and whose fetch passes: a branch whose condition holds sets PC to PC + off x
4, otherwise PC + 4, and changes no register; J sets PC to PC + off x 4; JL also writes PC + 4 to GP31; JR and JLR
with a word-aligned target ra + sext(imm), ra read before rd is written, set PC to it, JLR writing PC + 4 to rd. Each
retires one instruction and changes nothing outside the core. A JR or JLR target that is not word-aligned, at
partition or executive privilege with EXLE = 0, takes cause 4 with the target in EADDR_E and writes no register. -/
def Obligations.BranchesAndJumpsSetPc : Prop :=
  (∀ (c : Master) (b : BranchCond) (ra rb : RegNo) (off : BitVec 16) (s u : State), s.Runs c u →
    ∃ t, exec (.branch c b ra rb off) s = .next t ∧ CoreOnly c u t ∧ RegistersKept (u.coreOf c) (t.coreOf c) ∧
      (t.coreOf c).ric = (u.coreOf c).ric + 1 ∧
      (t.coreOf c).pc = if branchHolds b ((u.coreOf c).gpr ra) ((u.coreOf c).gpr rb)
        then (u.coreOf c).pc + off.signExtend 32 * 4 else (u.coreOf c).pc + 4) ∧
  (∀ (c : Master) (off : BitVec 26) (s u : State), s.Runs c u →
    (∃ t, exec (.j c off) s = .next t ∧ CoreOnly c u t ∧ RegistersKept (u.coreOf c) (t.coreOf c) ∧
      (t.coreOf c).ric = (u.coreOf c).ric + 1 ∧ (t.coreOf c).pc = (u.coreOf c).pc + off.signExtend 32 * 4) ∧
    (∃ t, exec (.jl c off) s = .next t ∧ CoreOnly c u t ∧ GpWritten (u.coreOf c) (t.coreOf c) 31 ((u.coreOf c).pc + 4) ∧
      (t.coreOf c).ric = (u.coreOf c).ric + 1 ∧ (t.coreOf c).pc = (u.coreOf c).pc + off.signExtend 32 * 4)) ∧
  (∀ (c : Master) (rd ra : RegNo) (imm : BitVec 16) (s u : State), s.Runs c u →
    ((u.coreOf c).gpr ra + imm.signExtend 32).toNat % 4 = 0 →
    (∃ t, exec (.jr c ra imm) s = .next t ∧ CoreOnly c u t ∧ RegistersKept (u.coreOf c) (t.coreOf c) ∧
      (t.coreOf c).ric = (u.coreOf c).ric + 1 ∧ (t.coreOf c).pc = (u.coreOf c).gpr ra + imm.signExtend 32) ∧
    (∃ t, exec (.jlr c rd ra imm) s = .next t ∧ CoreOnly c u t ∧ GpWritten (u.coreOf c) (t.coreOf c) rd ((u.coreOf c).pc + 4) ∧
      (t.coreOf c).ric = (u.coreOf c).ric + 1 ∧ (t.coreOf c).pc = (u.coreOf c).gpr ra + imm.signExtend 32)) ∧
  (∀ (c : Master) (rd ra : RegNo) (imm : BitVec 16) (s u : State), s.Runs c u →
    ((u.coreOf c).gpr ra + imm.signExtend 32).toNat % 4 ≠ 0 → (u.coreOf c).priv ≤ 1 → (u.coreOf c).exle = false →
    (∃ t, exec (.jr c ra imm) s = .next t ∧
      Entered (u.coreOf c) (t.coreOf c) false 4 0 (u.coreOf c).pc ((u.coreOf c).gpr ra + imm.signExtend 32)) ∧
    (∃ t, exec (.jlr c rd ra imm) s = .next t ∧
      Entered (u.coreOf c) (t.coreOf c) false 4 0 (u.coreOf c).pc ((u.coreOf c).gpr ra + imm.signExtend 32)))

/-- A floating-point operation writes its result and sets the sticky flags; an enabled flag raises cause 9 instead.
(R97) On a core that executes and whose fetch passes, a defined floating-point operation whose raised flags are not
enabled in FPSR.TE writes its result (a floating-point register, a general register, or the high half of a
floating-point register), sets its flags in FPSR[6:2] besides those set before, leaves every other register, and
retires. One with an enabled flag, at partition or executive privilege with EXLE = 0, writes no destination, sets the
sticky flags, and takes cause 9 with the raised flags as the subcause. -/
def Obligations.FloatingPointOperationsWriteResult : Prop :=
  ∀ (c : Master) (op : FpOp) (p : Bool) (fd fa fb fc : RegNo) (s u : State), s.Runs c u → fpDefined op p fb.val fc.val = true →
    let x := u.coreOf c
    let r := fpResult op p (Rounding.ofCode (x.sprField sprFPSR 0 2)) (x.fpr fa) (x.fpr fb) (x.fpr fc) (x.gpr fa)
    (Nat.land r.flags (x.sprField sprFPSR 7 5) = 0 →
      ∃ t, exec (.fpOperation c op p fd fa fb fc) s = .next t ∧ CoreOnly c u t ∧ Retired x (t.coreOf c) ∧
        (t.coreOf c).special sprFPSR = x.special sprFPSR ||| BitVec.ofNat 32 (r.flags * 4) ∧
        (∀ n, n ≠ sprFPSR → (t.coreOf c).special n = x.special n) ∧
        match r with
        | .fp bits _ => (t.coreOf c).fpr fd = BitVec.ofNat 64 bits ∧ (∀ n, n ≠ fd → (t.coreOf c).fpr n = x.fpr n) ∧
            (t.coreOf c).gp = x.gp
        | .gp v _ => (t.coreOf c).gpr fd = (if fd = 0 then 0 else v) ∧ (∀ n, n ≠ fd → (t.coreOf c).gpr n = x.gpr n) ∧
            (t.coreOf c).fp = x.fp
        | .high v => (t.coreOf c).fpr fd = v ++ (x.fpr fd).extractLsb' 0 32 ∧ (∀ n, n ≠ fd → (t.coreOf c).fpr n = x.fpr n) ∧
            (t.coreOf c).gp = x.gp) ∧
    (Nat.land r.flags (x.sprField sprFPSR 7 5) ≠ 0 → x.priv ≤ 1 → x.exle = false →
      ∃ t, exec (.fpOperation c op p fd fa fb fc) s = .next t ∧
        Entered x (t.coreOf c) false 9 r.flags x.pc (wordF fd fa fb fc p.toNat (fpCode op)) ∧
        (t.coreOf c).special sprFPSR = x.special sprFPSR ||| BitVec.ofNat 32 (r.flags * 4) ∧ (t.coreOf c).ric = x.ric)

/-- SYS, an undefined word and an interrupt enter their level with the saved registers the manual names. (03 R92, 03
R98, 03 R114, 03 R117, 03 R119, 03 R122, 02 R48) On a core that executes and whose fetch passes: SYS at partition
privilege with EXLE = 0 enters the executive with cause 10, SYS at executive privilege the monitor with cause 13, EPC
being the next instruction and the SYS retired; an undefined word at partition or executive privilege with EXLE = 0
enters the executive with cause 1 and the word in EADDR_E; a fetched word in which the complex finds a check error,
with cause 7 and the PC in EADDR_E. A word that decodes to a core instruction is that instruction's own word. The
lowest pending and enabled interrupt line, where an interrupt can be taken and the fetch raises nothing, enters the
executive with the line as cause, EPC the instruction not executed and EADDR_E 0. -/
def Obligations.CallsAndTrapsEnterTheirLevel : Prop :=
  (∀ (c : Master) (code : BitVec 11) (s u : State), s.Runs c u →
    (((u.coreOf c).priv = 0 → (u.coreOf c).exle = false → ∃ t, exec (.sys c code) s = .next t ∧
      Entered (u.coreOf c) (t.coreOf c) false 10 0 ((u.coreOf c).pc + 4) (wordY 0 0 code.toNat 0) ∧
      (t.coreOf c).ric = (u.coreOf c).ric + 1) ∧
    ((u.coreOf c).priv = 1 → ∃ t, exec (.sys c code) s = .next t ∧
      Entered (u.coreOf c) (t.coreOf c) true 13 0 ((u.coreOf c).pc + 4) (wordY 0 0 code.toNat 0) ∧
      (t.coreOf c).ric = (u.coreOf c).ric + 1))) ∧
  (∀ (c : Master) (w : Word) (s u : State), s.Runs c u → definedEncoding w = false → (u.coreOf c).priv ≤ 1 →
    (u.coreOf c).exle = false →
    ∃ t, exec (.illegalInstruction ⟨c, 0⟩ w) s = .next t ∧ Entered (u.coreOf c) (t.coreOf c) false 1 0 (u.coreOf c).pc w ∧
      (t.coreOf c).ric = (u.coreOf c).ric ∧ t.mem = u.mem) ∧
  (∀ (w : Word) (s u : State), s.Runs .cx u → u.cx.priv ≤ 1 → u.cx.exle = false →
    ∃ t, exec (.illegalInstruction ⟨.cx, 1⟩ w) s = .next t ∧ Entered u.cx t.cx false 7 0 u.cx.pc u.cx.pc ∧
      t.cx.ric = u.cx.ric ∧ t.mem = u.mem) ∧
  (∀ (c : Master) (n : Nat) (pkg : Option ChangePackage) (w : Word) (i : Instr), decodeWord c n pkg w = some i → coreWord i = some w) ∧
  (∀ (c : Master) (i : Nat) (s : State), s.interruptible c = true → s.fetchRaises c = false → takenLine (s.coreOf c) (s.ipend c).2 = some i →
    ∃ t, exec (.interruptTaken c) s = .next t ∧ Entered (s.coreOf c) (t.coreOf c) false i 0 (s.coreOf c).pc 0 ∧
      (t.coreOf c).ric = (s.coreOf c).ric ∧ t.mem = s.mem ∧ t.regs = s.regs)

/-- BRK and a matching comparator halt the complex where halting debug is available; elsewhere BRK raises cause 11.
(R118) On the complex, executing with its fetch passed, halting debug available and no resync under way, BRK halts the
complex at the instruction: CORE_STAT.HALTED is 1, PC, the retired-instruction count and every register stay those
before it. Where halting debug is refused, and on a service core, BRK at partition or executive privilege with EXLE =
0 takes cause 11 with EPC the next instruction, retired. A set comparator whose address matches (an instruction
comparator the PC, a data comparator the word accessed) halts the running complex where halting debug is available and
no resync is under way, at its PC with every register kept, and leaves the state after its time where halting debug is
refused. -/
def Obligations.BreakHaltsUnderDebug : Prop :=
  (∀ (code : BitVec 11) (s u : State), s.Runs .cx u → u.haltOpen = true →
    ∃ t, exec (.brk .cx code) s = .next t ∧ t.bit CORE_STAT_HALTED = true ∧ t.cx.pc = u.cx.pc ∧ t.cx.ric = u.cx.ric ∧
      RegistersKept u.cx t.cx) ∧
  (∀ (c : Master) (code : BitVec 11) (s u : State), s.Runs c u → (c ≠ .cx ∨ u.debugRefused ≠ none) →
    (u.coreOf c).priv ≤ 1 → (u.coreOf c).exle = false →
    ∃ t, exec (.brk c code) s = .next t ∧
      Entered (u.coreOf c) (t.coreOf c) false 11 0 ((u.coreOf c).pc + 4) (wordY 0 0 code.toNat 1) ∧
      (t.coreOf c).ric = (u.coreOf c).ric + 1) ∧
  (∀ (n : Nat) (index : Fin 6) (access : Word) (s : State), s.core.cmpSet.contains index.val = true →
    (s.cx.special (0x200 + index.val) = if index.val < 4 then s.cx.pc else access) →
    ((s.advance n).executes .cx = true → s.haltOpen = true →
      ∃ t, exec (.breakpointMatch n index access) s = .next t ∧ t.bit CORE_STAT_HALTED = true ∧ t.cx.pc = s.cx.pc ∧
        t.cx.ric = s.cx.ric ∧ RegistersKept s.cx t.cx) ∧
    (s.debugRefused ≠ none → ∃ t, exec (.breakpointMatch n index access) s = .next t ∧ t = s.advance n))

/-- ERET restores PC, privilege, interrupt enable and partition, clears EXL of its level and the reservation. (R120)
On a core at executive or monitor privilege that executes and whose fetch passes, with an ESTAT of its level whose
PPRIV is not above its privilege and a word-aligned EPC: ERET sets PC to EPC, STATUS.PRIV, IE and PART to the saved
ones, clears EXL of the level and the core's reservation, and leaves general and floating-point registers. At
executive privilege with EXLE = 0 a PPRIV above the privilege raises cause 2 in the executive, at monitor privilege
with EXLM = 0 in the monitor; so does an ERET at partition privilege with EXLE = 0 in the executive. (An EPC that is
not word-aligned is the model's choice, log entry 38, and is outside this statement.) -/
def Obligations.ReturnRestoresSavedState : Prop :=
  (∀ (c : Master) (s u : State), s.Runs c u → (u.coreOf c).priv = 0 → (u.coreOf c).exle = false →
    ∃ t, exec (.eret c) s = .next t ∧ Entered (u.coreOf c) (t.coreOf c) false 2 0 (u.coreOf c).pc (wordY 0 0 0 2)) ∧
  ∀ (c : Master) (m : Bool) (s u : State), s.Runs c u → (u.coreOf c).priv = (if m then 2 else 1) →
    (fieldGet ((u.coreOf c).special (sprESTAT m)) 0 2 ≤ (u.coreOf c).priv → ((u.coreOf c).special (sprEPC m)).toNat % 4 = 0 →
      ∃ t, exec (.eret c) s = .next t ∧ (t.coreOf c).pc = (u.coreOf c).special (sprEPC m) ∧
        (t.coreOf c).priv = fieldGet ((u.coreOf c).special (sprESTAT m)) 0 2 ∧
        (t.coreOf c).ie.toNat = fieldGet ((u.coreOf c).special (sprESTAT m)) 2 1 ∧
        (t.coreOf c).part = fieldGet ((u.coreOf c).special (sprESTAT m)) 8 5 ∧
        (if m then (t.coreOf c).exlm else (t.coreOf c).exle) = false ∧
        (if m then (t.coreOf c).exle = (u.coreOf c).exle else (t.coreOf c).exlm = (u.coreOf c).exlm) ∧
        (t.coreOf c).gp = (u.coreOf c).gp ∧ (t.coreOf c).fp = (u.coreOf c).fp ∧
        (∀ k, t.memb.resv.contains (c, k) = false) ∧ t.mem = u.mem ∧ t.regs = u.regs) ∧
    ((u.coreOf c).priv < fieldGet ((u.coreOf c).special (sprESTAT m)) 0 2 →
      (if m then (u.coreOf c).exlm else (u.coreOf c).exle) = false →
      ∃ t, exec (.eret c) s = .next t ∧
        Entered (u.coreOf c) (t.coreOf c) m 2 0 (u.coreOf c).pc (wordY 0 0 0 2))

/-- MFS reads a special register into rd, MTS writes its writable bits, at the privilege the table gives. (03 R84, 03
R85, 03 R98) On a core that executes and whose fetch passes, at a privilege not below the level the table gives for
reading: MFS writes the special register to rd (IPEND is drawn, RIC_LO latches RIC_HI; both in their own clauses of 03
R84 and R121) and retires. At a privilege not below the level for writing, MTS replaces the writable bits of the
special register by those of ra, leaves its other bits and every other special, general and floating-point register,
and retires. Below these levels both take cause 2, at partition or executive privilege with EXLE = 0. -/
def Obligations.SpecialRegistersReadAndWritten : Prop :=
  (∀ (c : Master) (rd : RegNo) (spec : BitVec 11) (s u : State) (l : Nat), s.Runs c u → sprReadLevel spec.toNat = some l →
    (l ≤ (u.coreOf c).priv → spec.toNat ≠ sprIPEND → spec.toNat ≠ sprRIC_LO →
      ∃ t, exec (.mfs c rd spec) s = .next t ∧ CoreOnly c u t ∧ Retired (u.coreOf c) (t.coreOf c) ∧
        GpWritten (u.coreOf c) (t.coreOf c) rd ((u.coreOf c).special spec.toNat)) ∧
    (l ≤ (u.coreOf c).priv → spec.toNat = sprRIC_LO →
      ∃ t, exec (.mfs c rd spec) s = .next t ∧ CoreOnly c u t ∧ Retired (u.coreOf c) (t.coreOf c) ∧
        (t.coreOf c).gpr rd = (if rd = 0 then 0 else (u.coreOf c).ric.setWidth 32) ∧
        (t.coreOf c).special sprRIC_HI = ((u.coreOf c).ric >>> 32).setWidth 32) ∧
    ((u.coreOf c).priv < l → (u.coreOf c).exle = false → (u.coreOf c).priv ≤ 1 →
      ∃ t, exec (.mfs c rd spec) s = .next t ∧
        Entered (u.coreOf c) (t.coreOf c) false 2 0 (u.coreOf c).pc (wordY rd 0 spec.toNat 3))) ∧
  (∀ (c : Master) (ra : RegNo) (spec : BitVec 11) (s u : State) (l : Nat), s.Runs c u → sprWriteLevel spec.toNat = some l →
    (l ≤ (u.coreOf c).priv →
      ∃ t, exec (.mts c spec ra) s = .next t ∧ CoreOnly c u t ∧ Retired (u.coreOf c) (t.coreOf c) ∧
        (t.coreOf c).special spec.toNat = ((u.coreOf c).special spec.toNat &&& ~~~sprMask spec.toNat) |||
          ((u.coreOf c).gpr ra &&& sprMask spec.toNat) ∧
        (∀ n, n ≠ spec.toNat → (t.coreOf c).special n = (u.coreOf c).special n) ∧
        (t.coreOf c).gp = (u.coreOf c).gp ∧ (t.coreOf c).fp = (u.coreOf c).fp ∧
        (spec.toNat = sprTCMP_LO → (t.coreOf c).tarmed = true ∧ (t.coreOf c).tline = false)) ∧
    ((u.coreOf c).priv < l → (u.coreOf c).exle = false → (u.coreOf c).priv ≤ 1 →
      ∃ t, exec (.mts c spec ra) s = .next t ∧
        Entered (u.coreOf c) (t.coreOf c) false 2 0 (u.coreOf c).pc (wordY 0 ra spec.toNat 4)))

/-- A load whose target answers writes the extracted value to its register; LDL also sets the reservation. (03 R94, 03
R95, 03 R112, 03 R114, 02 R48) On a core that executes and whose fetch passes, with an aligned effective address whose
access passes its checks and whose target answers with the word w at once and no check error: LW, LH, LHU, LB and LBU
write the bytes of w at ea, extended as their kind says, to rd; FLW writes w to bits [31:0] of fd and 0 to the rest;
FLD writes both words; LDL, in SRAM or the DRAM window, writes w to rd and leaves the core with a reservation on that
word and on no other. Each retires and changes no other register. On the complex at partition or executive privilege
with EXLE = 0, a check error found in the word read takes cause 7 with the word's address in EADDR_E and writes no
register. An ea that is not aligned takes cause 5 at partition or executive privilege with EXLE = 0. -/
def Obligations.LoadsWriteTheirRegister : Prop :=
  (∀ (c : Master) (k : LoadKind) (rd ra : RegNo) (imm : BitVec 16) (s u v : State) (w : Word), s.Runs c u →
    u.ea c ra imm % 2 ^ loadSize k = 0 → u.loadPart c (.gp k rd) (u.ea c ra imm) = (v, .data w) →
    ∃ t, exec (.load ⟨c, 0⟩ k rd ra imm) s = .next t ∧ CoreOnly c v t ∧ Retired (v.coreOf c) (t.coreOf c) ∧
      GpWritten (v.coreOf c) (t.coreOf c) rd (loadValue k (u.ea c ra imm) w)) ∧
  (∀ (c : Master) (fd ra : RegNo) (imm : BitVec 16) (s u v : State) (w : Word), s.Runs c u →
    u.ea c ra imm % 4 = 0 → u.loadPart c (.flw fd) (u.ea c ra imm) = (v, .data w) →
    ∃ t, exec (.flwFld ⟨c, 0⟩ false fd ra imm) s = .next t ∧ CoreOnly c v t ∧ Retired (v.coreOf c) (t.coreOf c) ∧
      (t.coreOf c).gp = (v.coreOf c).gp ∧ (t.coreOf c).spr = (v.coreOf c).spr ∧
      ∀ n, (t.coreOf c).fpr n = if n = fd then w.setWidth 64 else (v.coreOf c).fpr n) ∧
  (∀ (c : Master) (fd ra : RegNo) (imm : BitVec 16) (s u v x : State) (lo hi : Word), s.Runs c u →
    u.ea c ra imm % 8 = 0 → u.loadPart c (.fld fd none) (u.ea c ra imm) = (v, .data lo) →
    v.loadPart c (.fld fd (some lo)) (u.ea c ra imm + 4) = (x, .data hi) →
    ∃ t, exec (.flwFld ⟨c, 0⟩ true fd ra imm) s = .next t ∧ CoreOnly c x t ∧ Retired (x.coreOf c) (t.coreOf c) ∧
      (t.coreOf c).gp = (x.coreOf c).gp ∧ (t.coreOf c).spr = (x.coreOf c).spr ∧
      ∀ n, (t.coreOf c).fpr n = if n = fd then hi ++ lo else (x.coreOf c).fpr n) ∧
  (∀ (c : Master) (rd ra : RegNo) (s u v : State) (w : Word) (k : Nat), s.Runs c u →
    ((u.coreOf c).gpr ra).toNat % 4 = 0 → linkable ((u.coreOf c).gpr ra).toNat = true →
    u.loadPart c (.ldl rd) ((u.coreOf c).gpr ra).toNat = (v, .data w) →
    memoryKey (v.dramBank c) ((u.coreOf c).gpr ra).toNat = some k →
    ∃ t, exec (.ldl ⟨c, 0⟩ rd ra) s = .next t ∧ Retired (v.coreOf c) (t.coreOf c) ∧ GpWritten (v.coreOf c) (t.coreOf c) rd w ∧
      t.memb.resv.contains (c, k) = true ∧ (∀ j, j ≠ k → t.memb.resv.contains (c, j) = false) ∧ t.mem = v.mem ∧ t.regs = v.regs) ∧
  (∀ (rd ra : RegNo) (s u v : State) (w : Word), s.Runs .cx u → v.cx.priv ≤ 1 → v.cx.exle = false →
    (∀ (k : LoadKind) (imm : BitVec 16), u.ea .cx ra imm % 2 ^ loadSize k = 0 →
      u.loadPart .cx (.gp k rd) (u.ea .cx ra imm) = (v, .data w) →
      ∃ t, exec (.load ⟨.cx, 1⟩ k rd ra imm) s = .next t ∧
        Entered v.cx t.cx false 7 0 v.cx.pc (BitVec.ofNat 32 (u.ea .cx ra imm))) ∧
    (∀ (double : Bool) (imm : BitVec 16), u.ea .cx ra imm % (if double then 8 else 4) = 0 →
      u.loadPart .cx (if double then .fld rd none else .flw rd) (u.ea .cx ra imm) = (v, .data w) →
      ∃ t, exec (.flwFld ⟨.cx, 1⟩ double rd ra imm) s = .next t ∧
        Entered v.cx t.cx false 7 0 v.cx.pc (BitVec.ofNat 32 (u.ea .cx ra imm))) ∧
    ((u.cx.gpr ra).toNat % 4 = 0 → linkable (u.cx.gpr ra).toNat = true →
      u.loadPart .cx (.ldl rd) (u.cx.gpr ra).toNat = (v, .data w) →
      ∃ t, exec (.ldl ⟨.cx, 1⟩ rd ra) s = .next t ∧ Entered v.cx t.cx false 7 0 v.cx.pc (u.cx.gpr ra))) ∧
  (∀ (c : Master) (k : LoadKind) (rd ra : RegNo) (imm : BitVec 16) (s u : State), s.Runs c u →
    u.ea c ra imm % 2 ^ loadSize k ≠ 0 → (u.coreOf c).priv ≤ 1 → (u.coreOf c).exle = false →
    ∃ t, exec (.load ⟨c, 0⟩ k rd ra imm) s = .next t ∧
      Entered (u.coreOf c) (t.coreOf c) false 5 0 (u.coreOf c).pc (BitVec.ofNat 32 (u.ea c ra imm)))

/-- A store to memory retires, changes no register, and changes stored words only at its word or at words in the merge
buffer. (03 R94, 03 R95, 04 R144, 04 R145) On a core that executes and whose fetch passes: SW, SH, SB and FSW at an
aligned ea whose access passes its checks, complete where the target takes the store: every register keeps its value
and PC advances. Where the target is a word of SRAM, DRAM or MRAM that a service core's caches do not take, a stored
word other than the target's that no merge-buffer entry holds stays as it was and stays out of the merge buffer. FSD
completes where both its words are taken. -/
def Obligations.StoresReachTheirWordOnly : Prop :=
  (∀ (c : Master) (k : StoreKind) (rs ra : RegNo) (imm : BitVec 16) (pkg : Option ChangePackage) (s u v : State), s.Runs c u →
    u.ea c ra imm % 2 ^ storeSize k = 0 →
    u.storePart c pkg false (u.ea c ra imm) (storeSize k) ((u.coreOf c).gpr rs) = (v, .done) →
    ∃ t, exec (.store c k rs ra imm pkg) s = .next t ∧ CoreOnly c v t ∧ Retired (v.coreOf c) (t.coreOf c) ∧
      RegistersKept (v.coreOf c) (t.coreOf c) ∧
      ∀ a, u.target c (u.ea c ra imm) = .word a → u.cacheKey c (u.ea c ra imm) = none → ∀ j, j ≠ a → u.NotMerged j →
        t.stored j = u.stored j ∧ t.NotMerged j) ∧
  (∀ (c : Master) (fs ra : RegNo) (imm : BitVec 16) (pkg : Option ChangePackage) (s u v : State), s.Runs c u →
    u.ea c ra imm % 4 = 0 →
    u.storePart c pkg false (u.ea c ra imm) 2 (((u.coreOf c).fpr fs).setWidth 32) = (v, .done) →
    ∃ t, exec (.fswFsd c false fs ra imm pkg) s = .next t ∧ CoreOnly c v t ∧ Retired (v.coreOf c) (t.coreOf c) ∧
      RegistersKept (v.coreOf c) (t.coreOf c) ∧
      ∀ a, u.target c (u.ea c ra imm) = .word a → u.cacheKey c (u.ea c ra imm) = none → ∀ j, j ≠ a → u.NotMerged j →
        t.stored j = u.stored j ∧ t.NotMerged j) ∧
  (∀ (c : Master) (fs ra : RegNo) (imm : BitVec 16) (pkg : Option ChangePackage) (s u v x : State), s.Runs c u →
    u.ea c ra imm % 8 = 0 →
    u.storePart c pkg true (u.ea c ra imm) 2 (((u.coreOf c).fpr fs).setWidth 32) = (v, .done) →
    v.storePart c pkg true (u.ea c ra imm + 4) 2 ((((u.coreOf c).fpr fs) >>> 32).setWidth 32) = (x, .done) →
    ∃ t, exec (.fswFsd c true fs ra imm pkg) s = .next t ∧ CoreOnly c x t ∧ Retired (x.coreOf c) (t.coreOf c) ∧
      RegistersKept (x.coreOf c) (t.coreOf c))

/-- STC stores and answers 1 only under the master's own reservation; both outcomes clear it. (R113) On a core that
executes and whose fetch passes, at an aligned address in SRAM or the DRAM window whose checks pass and where no image
is frozen: with a reservation on the word and no flip mask armed on it STC stores rb's value with its check bits and
writes 1 to rd; without one it stores nothing (the words are as the write-back of the core's cached word and the
merge-buffer flush before it left them) and writes 0. Afterwards the core holds no reservation; no other register
changes and STC retires. A write of the word by another core's store or by another bus master, performed first, clears
the reservation. -/
def Obligations.StoreConditionalNeedsReservation : Prop :=
  (∀ (c e : Master) (s : State) (k part master : Nat) (be : BitVec 4) (d : Word),
    (s.agentWrite k be d master part).memb.resv.contains (c, k) = false ∧
    (e ≠ c → (s.mergeStore e k be d part).memb.resv.contains (c, k) = false)) ∧
  ∀ (c : Master) (rd ra rb : RegNo) (s u : State) (k : Nat), s.Runs c u →
    ((u.coreOf c).gpr ra).toNat % 4 = 0 → linkable ((u.coreOf c).gpr ra).toNat = true →
    u.checkAccess c .wr ((u.coreOf c).gpr ra).toNat (((u.coreOf c).gpr ra).toNat + 3) = (u, none) →
    u.frozenAt c ((u.coreOf c).gpr ra).toNat = false → u.target c ((u.coreOf c).gpr ra).toNat = .word k →
    let v := (u.bypassCache c ((u.coreOf c).gpr ra).toNat).flushWord k
    ∃ t, exec (.stc c rd ra rb) s = .next t ∧ Retired (u.coreOf c) (t.coreOf c) ∧
      GpWritten (u.coreOf c) (t.coreOf c) rd (if v.memb.resv.contains (c, k) then 1 else 0) ∧
      (∀ j, t.memb.resv.contains (c, j) = false) ∧
      (v.memb.resv.contains (c, k) = false → t.mem = v.mem) ∧
      (v.memb.resv.contains (c, k) = true → v.memb.flip ≠ some k →
        t.stored k = encodeWord ((u.coreOf c).gpr rb) ∧ ∀ j, j ≠ k → t.stored j = v.stored j)

/-- A written word is stored without error and reads back; one flipped bit of D or C is corrected. (04 R134, 04 R135,
04 R138) A word written with its check bits is classified as written without error, whatever its value. With any one
bit of D or C inverted it is classified as written with that value, corrected. A word as written by a bus master with
no flip mask armed on it and no entry in the merge buffer reads back its value to every reader, and no other word
changes. -/
def Obligations.WrittenWordReadsBack : Prop :=
  (∀ d : Word, classify (encodeWord d) = .written d false false) ∧
  (∀ (d : Word) (i : Nat), i < 39 → classify (encodeWord d ^^^ BitVec.ofNat 40 (2 ^ i)) = .written d true false) ∧
  (∀ (s : State) (k : Nat) (d : Word) (r : Reader), s.NotMerged k → s.memb.flip ≠ some k →
    ((s.writeWord k d).readWord k r).2 = .data d ∧ ∀ j, j ≠ k → (s.writeWord k d).stored j = s.stored j)

/-- BAR.M and BAR.W drain the merge buffer and wait; they complete with their status; PLD and CMO change no register.
(03 R107, 03 R108, 03 R110, 03 R98, 13 R453) On a core that executes and whose fetch passes: BAR.M empties the merge
buffer of the core's words and waits; BAR.W does the same and waits with rd. Waiting at BAR.M, with none of its words
in the merge buffer and allowed to go on, the core completes it and retires. Waiting at BAR.W, with no untracked
posted write of its partition, it completes with the partition's count of failed writes in rd and the count at 0. PLD
retires and changes no register. CMO with op 0 to 3 at executive privilege or above retires and changes no register;
on the complex, and on a service core whose caches hold no word of the line, nothing else changes; on a service core
op 0 and op 2 leave no word of the line in its caches. -/
def Obligations.BarriersAndHintsComplete : Prop :=
  (∀ (c : Master) (rd : RegNo) (s u : State), s.Runs c u →
    (∃ t, exec (.barM c) s = .next t ∧ (t.coreOf c).wait = .barM ∧ (∀ e ∈ t.memb.merge, e.owner ≠ c) ∧ t.brg.ahead = []) ∧
    (∃ t, exec (.barW c rd) s = .next t ∧ (t.coreOf c).wait = .barW rd ∧ (∀ e ∈ t.memb.merge, e.owner ≠ c))) ∧
  (∀ (c : Master) (s : State), (s.coreOf c).wait = .barM → s.mayComplete c = true → (∀ e ∈ s.memb.merge, e.owner ≠ c) →
    ∃ t, exec (.barMComplete c) s = .next t ∧ CoreOnly c s t ∧ (t.coreOf c).wait = .none ∧ Retired (s.coreOf c) (t.coreOf c) ∧
      RegistersKept (s.coreOf c) (t.coreOf c)) ∧
  (∀ (c : Master) (rd : RegNo) (s : State), (s.coreOf c).wait = .barW rd → s.mayComplete c = true →
    s.openOf (s.coreOf c).part = [] →
    ∃ t, exec (.barWComplete c) s = .next t ∧ (t.coreOf c).wait = .none ∧ Retired (s.coreOf c) (t.coreOf c) ∧
      GpWritten (s.coreOf c) (t.coreOf c) rd (s.rd (bank BRG_PWFAIL (s.coreOf c).part)) ∧
      t.get (BRG_PWFAIL_COUNT.at (s.coreOf c).part) = 0 ∧ t.mem = s.mem) ∧
  (∀ (c : Master) (ra : RegNo) (imm : BitVec 16) (s u : State), s.Runs c u →
    ∃ t, exec (.pld c ra imm) s = .next t ∧ Retired (u.coreOf c) (t.coreOf c) ∧ RegistersKept (u.coreOf c) (t.coreOf c)) ∧
  (∀ (c : Master) (op : BitVec 11) (ra : RegNo) (s u : State), s.Runs c u → op.toNat ≤ 3 → (u.coreOf c).priv ≠ 0 →
    ∃ t, exec (.cmo c op ra) s = .next t ∧ Retired (u.coreOf c) (t.coreOf c) ∧ RegistersKept (u.coreOf c) (t.coreOf c) ∧
      (c = .cx → CoreOnly c u t) ∧
      ∀ k, memoryKey (u.dramBank c) ((u.coreOf c).gpr ra).toNat = some k →
        (u.cacheLine c k = [] → CoreOnly c u t) ∧ (c ≠ .cx → op = 0 ∨ op = 2 → t.cacheLine c k = []))

/-- TRD and TRS write a snapshot of MONO and SYNC; MONO reaching an armed TCMP makes line 19 pending. (03 R105, 03
R106, 03 R121) On a core that executes and whose fetch passes at MONO t, with rd and ra different: TRD writes bits
[31:0] of a MONO value m to rd and bits [63:32] to ra, where m lies 4 to 7 ns before the time reached (the model's
reading, log entry 41) or at the start of MONO; TRS writes nanoseconds and seconds of a SYNC value to rd and ra, not
below SYNC at such an m and above that of an earlier TRS of the core, and latches the upper seconds and NOACQ in TSHI.
GP0 stays 0, no other general register changes and one instruction retires. TCMP_MATCH with the compare armed and MONO
at or past TCMP makes line 19 of the core pending and changes nothing else of the core. -/
def Obligations.TimeReadsGiveOneSnapshot : Prop :=
  (∀ (n : Nat) (c : Master) (rd ra : RegNo) (s u : State), (s.advance n).Runs c u → rd ≠ ra →
    (∃ t m, exec (.trd n c rd ra) s = .next t ∧ u.mono - 7 ≤ m ∧ m ≤ u.mono - 4 ∧
      (t.coreOf c).gpr rd = (if rd = 0 then 0 else BitVec.ofNat 32 m) ∧
      (t.coreOf c).gpr ra = (if ra = 0 then 0 else BitVec.ofNat 32 (m / 2 ^ 32)) ∧
      (∀ r, r ≠ rd → r ≠ ra → (t.coreOf c).gpr r = (u.coreOf c).gpr r) ∧ Retired (u.coreOf c) (t.coreOf c) ∧
      (t.coreOf c).spr = (u.coreOf c).spr ∧ (t.coreOf c).fp = (u.coreOf c).fp ∧ t.regs = u.regs ∧ t.mem = u.mem) ∧
    (∃ t m, exec (.trs n c rd ra) s = .next t ∧ u.mono - 7 ≤ m ∧ m ≤ u.mono - 4 ∧ u.syncNs m ≤ u.syncSnapshot c m ∧
      ((u.coreOf c).trsAt < u.mono → (u.coreOf c).trsNs < u.syncSnapshot c m) ∧
      (t.coreOf c).gpr rd = (if rd = 0 then 0 else BitVec.ofNat 32 (u.syncSnapshot c m % 1000000000)) ∧
      (t.coreOf c).gpr ra = (if ra = 0 then 0 else BitVec.ofNat 32 (u.syncSnapshot c m / 1000000000)) ∧
      fieldGet ((t.coreOf c).special sprTSHI) 0 16 = u.syncSnapshot c m / 1000000000 / 2 ^ 32 % 2 ^ 16 ∧
      fieldGet ((t.coreOf c).special sprTSHI) 31 1 = u.get TIME_STAT_NOACQ ∧
      (∀ r, r ≠ rd → r ≠ ra → (t.coreOf c).gpr r = (u.coreOf c).gpr r) ∧ Retired (u.coreOf c) (t.coreOf c) ∧
      (t.coreOf c).fp = (u.coreOf c).fp ∧ t.regs = u.regs ∧ t.mem = u.mem)) ∧
  (∀ (c : Master) (n : Nat) (s : State), ((s.advance n).coreOf c).tarmed = true →
    (((s.advance n).coreOf c).special sprTCMP_LO).toNat + (((s.advance n).coreOf c).special sprTCMP_HI).toNat * 2 ^ 32
      ≤ (s.advance n).mono →
    ∃ t, exec (.tcmpMatch c n) s = .next t ∧ CoreOnly c (s.advance n) t ∧
      t.coreOf c = { (s.advance n).coreOf c with tline := true })

/-- CYW hands the task to the executive or waits for the dispatch; IMC commits once, before the release edge. (03
R101, 03 R102, 03 R103) On the complex, executing with its fetch passed: CYW at partition privilege with a valid TASK
and EXLE = 0 records the task as waiting and enters the executive with cause 12 and EPC the next instruction, retired;
at executive privilege it waits with rd. A complex that waits so, when line 16 is held and it may go on, writes
CYC_DISP.MASK to rd, releases the line and retires. IMC at partition privilege with a valid TASK, after BAR.M, answers
0, sets COMMIT and freezes the output image when tasks run, the task has a dispatched cycle not yet committed and its
release edge lies ahead; 1 when it was committed in this cycle; 2 without a dispatched cycle, with tasks stopped, or
past the release edge. It writes rd only and retires. -/
def Obligations.CycleWaitAndCommit : Prop :=
  (∀ (rd : RegNo) (s u : State), s.Runs .cx u →
    (u.cx.priv = 0 → u.cx.taskValid = true → u.cx.exle = false →
      ∃ t, exec (.cyw .cx rd) s = .next t ∧ Entered u.cx t.cx false 12 0 (u.cx.pc + 4) (wordY rd 0 0 9) ∧
        t.cx.ric = u.cx.ric + 1 ∧ t.bit (CYC_TnSTAT_WAIT u.cx.taskIndex) = true) ∧
    (u.cx.priv = 1 → ∃ t, exec (.cyw .cx rd) s = .next t ∧ CoreOnly .cx u t ∧ t.cx = { u.cx with wait := .cyw rd })) ∧
  (∀ (rd : RegNo) (s : State), s.cx.wait = .cyw rd → s.mayComplete .cx = true → s.cyc.line16 = true →
    ∃ t, exec (.cywExecutiveReturn .cx) s = .next t ∧ t.cyc.line16 = false ∧ t.cx.wait = .none ∧ Retired s.cx t.cx ∧
      GpWritten s.cx t.cx rd (s.rd CYC_DISP &&& 0xFFFF#32) ∧ t.mem = s.mem ∧ t.regs = s.regs) ∧
  (∀ (rd : RegNo) (s u : State), s.Runs .cx u → u.cx.priv = 0 → u.cx.taskValid = true →
    ∃ t v, exec (.imc .cx rd) s = .next t ∧ GpWritten (u.barrier .cx).cx t.cx rd v ∧ Retired (u.barrier .cx).cx t.cx ∧
      (((u.barrier .cx).task u.cx.taskIndex).cycle = none → v = 2) ∧
      ((u.barrier .cx).bit CYC_STAT_RUN = false → v = 2) ∧
      (∀ y, ((u.barrier .cx).task u.cx.taskIndex).cycle = some y → (u.barrier .cx).bit CYC_STAT_RUN = true →
        ((u.barrier .cx).bit (CYC_TnSTAT_COMMIT u.cx.taskIndex) = true → v = 1) ∧
        ((u.barrier .cx).bit (CYC_TnSTAT_COMMIT u.cx.taskIndex) = false →
          (y.release ≤ (u.barrier .cx).tick → v = 2) ∧
          ((u.barrier .cx).tick < y.release → v = 0 ∧ t.bit (CYC_TnSTAT_COMMIT u.cx.taskIndex) = true ∧
            (t.task u.cx.taskIndex).frozen = true))))

/-- SYS 0x7FE makes SYS demand SAFE with code 8; SYS 0x7FF answers in GP1 whether a core slice ran. (15 R503, 15 R506,
03 R98) On the complex, executing with its fetch passed, at partition privilege with EXLE = 0 or at executive
privilege, SYS 0x7FE adds a SAFE demand of cause 3 with detail 8 to those on their way to Girth, and records code 8 in
SYS_SAFED if no demand was recorded since reset (that it holds at every privilege is the model's reading, log entry
39). SYS 0x7FF at executive privilege with a word-aligned PC returns to the next instruction at executive privilege
with 1 in GP1 if a slice ran, which needs a mode with periodic BIST and the next tick edge at least 45 microseconds
away, else 0; no other general register changes. -/
def Obligations.SafeCallAndSliceCall : Prop :=
  (∀ s u : State, s.Runs .cx u → (u.cx.priv = 1 ∨ (u.cx.priv = 0 ∧ u.cx.exle = false)) →
    ∃ t, exec (.sysSafeCall .cx) s = .next t ∧ t.sys.demands = u.sys.demands ++ [(3, 8)] ∧
      (u.get SYS_SAFED_CODE = 0 → t.get SYS_SAFED_CODE = 8) ∧
      (u.get SYS_SAFED_CODE ≠ 0 → t.get SYS_SAFED_CODE = u.get SYS_SAFED_CODE)) ∧
  (∀ (n : Nat) (s u : State), (s.advance n).Runs .cx u → u.cx.priv = 1 → u.cx.pc.toNat % 4 = 0 →
    ∃ t, exec (.bistCoreSliceCall n) s = .next t ∧ t.cx.pc = u.cx.pc + 4 ∧ t.cx.priv = 1 ∧ t.cx.ie = u.cx.ie ∧
      t.cx.gpr 1 = (if u.mode.slices && decide (u.mono + 45000 ≤ (u.tick + 1) * 125000) then 1 else 0) ∧
      ∀ r, r ≠ 1 → t.cx.gpr r = u.cx.gpr r)

/-- Merge timeout, write-back, scrubber, lap overtime, initialisation: what each leaves. (04 R137, 04 R139, 04 R140,
04 R145, 04 R149, 04 R150) MERGE_ENTRY_TIMEOUT leaves no merge-buffer entry 160 ns old. CORRECTION_WRITEBACK with a
queued correction takes the oldest from the queue and, the reread giving the corrected word, leaves that word stored
and every other as it was. SCRUB_WORD of an enabled walker at a word without error in the middle of its lap advances
the walker and leaves every word. SCRUB_LAP_OVERTIME of a running lap past LAPMAX promotes the scrubber and emits
0x2009. SRAM_INIT_DONE and DRAM_INIT_DONE out of POWERUP, not done before, leave every word of their space reading as
the unwritten marker, set SINIT or DINIT and leave every other word. -/
def Obligations.MemoryCommandsDoTheirWork : Prop :=
  (∀ (n : Nat) (s : State), ∃ t, exec (.mergeEntryTimeout n) s = .next t ∧ ∀ e ∈ t.memb.merge, t.mono < e.time + 160) ∧
  (∀ (n k : Nat) (fixed : MWord) (rest : List (Nat × MWord)) (s : State), s.memb.wback = (k, fixed) :: rest →
    ∃ t, exec (.correctionWriteback n fixed) s = .next t ∧ t.memb.wback = rest ∧ t.stored k = fixed ∧
      ∀ j, j ≠ k → t.stored j = s.stored j) ∧
  (∀ (n : Nat) (w : Fin 6) (reread : MWord) (s : State) (i : Nat), (s.advance n).bit MEM_SCRCTL_EN = true →
    s.memb.walker[w.val]? = some i → i + 1 < walkerWords w.val →
    (classify (s.stored (walkerKey w.val i)) = .unwritten false ∨ classify (s.stored (walkerKey w.val i)) = .poisoned ∨
      ∃ d v, classify (s.stored (walkerKey w.val i)) = .written d false v) →
    ∃ t, exec (.scrubWord n w reread) s = .next t ∧ t.memb.walker = s.memb.walker.set w.val (i + 1) ∧ t.mem = s.mem) ∧
  (∀ (n : Nat) (s : State), (s.advance n).bit MEM_SCRCTL_EN = true → (s.advance n).bit MEM_STAT_PROMO = false →
    (s.advance n).get MEM_SCRCTL_LAPMAX * 1000000000 < (s.advance n).mono - s.memb.lapStart →
    ∃ t, exec (.scrubLapOvertime n) s = .next t ∧ t.bit MEM_STAT_PROMO = true ∧
      t.emitted = (s.advance n).emitted ++ [⟨0x2009, [((s.advance n).mono - s.memb.lapStart) / 1000000,
        (s.advance n).get MEM_SCRCTL_LAPMAX], (s.advance n).mono⟩]) ∧
  (∀ (n : Nat) (s : State), s.mode ≠ .powerup →
    (s.bit MEM_STAT_SINIT = false → ∃ t, exec (.sramInitDone n) s = .next t ∧ t.bit MEM_STAT_SINIT = true ∧
      ∀ k, t.stored k = if k ≤ 0x7FFFFF then unwrittenMarker else s.stored k) ∧
    (s.bit MEM_STAT_DINIT = false → ∃ t, exec (.dramInitDone n) s = .next t ∧ t.bit MEM_STAT_DINIT = true ∧
      ∀ k, t.stored k = if dramBase ≤ k ∧ k ≤ dramBase + 0xBFFFFFFF then unwrittenMarker else s.stored k))

/-- The flip mask arms on a valid target and disarms; range clear and the poison queue's read. (04 R153, 04 R158, 04
R160) FLIP_ARM with MEM_FLIPA in SRAM, MRAM or the DRAM window of the complex's bank arms the mask on that word;
elsewhere, or in the DRAM window with bank 3, ARM stays 0 and BAD is set. FLIP_DISARM clears ARM. The next whole-word
write to the armed word stores D, C and V each exclusive-ORed with its mask after the check bits, clears ARM and sets
DONE; a write elsewhere leaves the mask armed. An accepted RANGE_CLEAR with GO, a valid range and not busy sets
CLRBUSY with result 0; its completion leaves every word of the range reading as the unwritten marker, clears CLRBUSY
and leaves every other word. PQINFO_READ answers with MEM_PQINFO, removes the head entry and clears OVF. -/
def Obligations.FlipClearAndPoisonQueue : Prop :=
  (∀ s : State, (∀ k, memoryKey (s.get MEM_DBANK_CX) (s.get MEM_FLIPA_VALUE) = some k →
      ∃ t, exec .flipArm s = .next t ∧ t.bit MEM_FLIPCTL_ARM = true ∧ t.memb.flip = some k ∧ t.mem = s.mem) ∧
    (memoryKey (s.get MEM_DBANK_CX) (s.get MEM_FLIPA_VALUE) = none →
      ∃ t, exec .flipArm s = .next t ∧ t.bit MEM_FLIPCTL_ARM = false ∧ t.bit MEM_FLIPCTL_BAD = true ∧ t.mem = s.mem)) ∧
  (∀ s : State, ∃ t, exec .flipDisarm s = .next t ∧ t.bit MEM_FLIPCTL_ARM = false ∧ t.memb.flip = none ∧ t.mem = s.mem) ∧
  (∀ (s : State) (k j : Nat) (d : Word), s.memb.flip = some k →
    ((s.writeWord k d).stored k = encodeWord d ^^^
        mword (s.bit MEM_FLIPC_VAL) (BitVec.ofNat 7 (s.get MEM_FLIPC_CHK)) (s.rd MEM_FLIPD) ∧
      (s.writeWord k d).bit MEM_FLIPCTL_ARM = false ∧ (s.writeWord k d).bit MEM_FLIPCTL_DONE = true) ∧
    (j ≠ k → (s.writeWord j d).stored j = encodeWord d ∧ (s.writeWord j d).memb.flip = some k)) ∧
  (∀ (cseq : Nat) (s : State) (r : Nat × Nat), s.Accepts MEM_CLRSEQ_LASTCMD cseq → s.clearRange = some r →
    s.bit MEM_STAT_CLRBUSY = false →
    ∃ t, exec (.rangeClear cseq true) s = .next t ∧ t.bit MEM_STAT_CLRBUSY = true ∧ t.memb.clear = some r ∧
      t.get MEM_CLRRES_RESULT = 0 ∧ t.get MEM_CLRSEQ_LASTCMD = cseq % 0x10000) ∧
  (∀ (n lo hi : Nat) (s : State), s.memb.clear = some (lo, hi) →
    ∃ t, exec (.rangeClearDone n) s = .next t ∧ t.bit MEM_STAT_CLRBUSY = false ∧ t.memb.clear = none ∧
      ∀ k, t.stored k = if lo ≤ k ∧ k ≤ hi then unwrittenMarker else s.stored k) ∧
  (∀ s : State, ∃ t, exec .pqinfoRead s = .next t ∧ t.busData = s.rd MEM_PQINFO ∧ t.memb.pq = s.memb.pq.drop 1 ∧
    t.bit MEM_PQINFO_OVF = false ∧ t.mem = s.mem)

/-- A completed code refetch rewrites the word from flash and lets the cores that wait for it go on. (04 R152, 04
R138) CODE_REFETCH_COMPLETE with a refetch of an uncorrectable word in progress, the flash page not erased and its
word readable: with no core waiting on a load or fetch of that word, the word is stored again from the flash image
with new check bits, the refetch is no longer in progress, and every other word is as it was. With the complex waiting
to fetch it, the wait also ends. -/
def Obligations.CodeRefetchRestoresTheWord : Prop :=
  (∀ (n : RefetchEnd) (s : State) (r : Refetch) (rest : List Refetch), s.memb.refetch = r :: rest →
    classify (s.stored r.key) = .uncorrectable →
    (let off := (s.advance n.t).imageOffset r.key r.region
     (s.flashBad.contains (off - off % 4) = false ∧ s.flashErased off = false ∧
      (∀ c, (s.coreOf c).wait = .none) →
      ∃ t, exec (.codeRefetchComplete n) s = .next t ∧ t.stored r.key = encodeWord (s.flashWord off) ∧
        t.memb.refetch = rest ∧ ∀ j, j ≠ r.key → t.stored j = s.stored j) ∧
     (s.flashBad.contains (off - off % 4) = false ∧ s.flashErased off = false ∧
      s.cx.wait = .fetch s.cx.pc.toNat ∧ memoryKey ((s.advance n.t).dramBank .cx) s.cx.pc.toNat = some r.key ∧
      s.sc0.wait = .none ∧ s.sc1.wait = .none →
      ∃ t, exec (.codeRefetchComplete n) s = .next t ∧ t.stored r.key = encodeWord (s.flashWord off) ∧ t.cx.wait = .none)))

/-- A mailbox accepts the last sequence plus 1, answers a repeat again without executing it, rejects any other. (R9)
For every mailbox (its sequence and result fields in different registers, both within their registers, the sequence 16
bits wide) whose action leaves the sequence field alone: the last sequence plus 1 modulo 2^16 is accepted, the last
accepted sequence advances and the action's result is reported, whatever it is; the last accepted sequence is a repeat
that only shows the last accepted command's result, or nothing while that command is in progress; every other sequence
only shows the sequence-error result. The same holds for a mailbox whose result may come later, whose accepted command
without a result yet changes no register beyond what its action does and leaves a repeat nothing to show. After an
accepted command with a result that result is what a repeat shows. A sequence error emits nothing where the mailbox
gives no refusal of its own. -/
def Obligations.MailboxSequenceRule : Prop :=
  ∀ (s : State) (last res : Fld) (cseq err : Nat) (act : State → State × Nat) (later : State → State × Option Nat),
    last.reg ≠ res.reg → last.w = 16 → last.lo + 16 ≤ 32 → res.lo + res.w ≤ 32 →
    (∀ x, (act x).1.get last = x.get last) → (∀ x, (later x).1.get last = x.get last) →
    (cseq % 0x10000 = (s.get last + 1) % 0x10000 →
      (s.mailbox last res cseq act err).get last = cseq % 0x10000 ∧
      (s.mailbox last res cseq act err).get res = (act (s.set last cseq)).2 % 2 ^ res.w ∧
      (s.mailboxLater last res cseq later err).get last = cseq % 0x10000 ∧
      (∀ r, (later (s.set last cseq)).2 = some r → (s.mailboxLater last res cseq later err).get res = r % 2 ^ res.w) ∧
      (s.mailbox last res cseq act err).lastResult last.reg = some (act (s.set last cseq)).2 ∧
      ((later (s.set last cseq)).2 = none →
        (∀ k, (s.mailboxLater last res cseq later err).rd k = (later (s.set last cseq)).1.rd k) ∧
        (s.mailboxLater last res cseq later err).lastResult last.reg = none)) ∧
    (cseq % 0x10000 = s.get last →
      (∀ r, s.lastResult last.reg = some r → s.mailbox last res cseq act err = s.set res r ∧
        s.mailboxLater last res cseq later err = s.set res r) ∧
      (s.lastResult last.reg = none → s.mailbox last res cseq act err = s ∧ s.mailboxLater last res cseq later err = s)) ∧
    (cseq % 0x10000 ≠ (s.get last + 1) % 0x10000 → cseq % 0x10000 ≠ s.get last →
      s.mailbox last res cseq act err = s.set res err ∧ s.mailboxLater last res cseq later err = s.set res err)

/-- Debug HALT, the halt's taking, RESUME and STEP: what each leaves. (02 R66, 02 R67, 02 R71, 02 R72, 03 R123)
Accepted with halting debug available: HALT of a running complex makes a halt pending with result 0 and leaves memory.
A pending halt is taken where halting debug is available, no resync or running switch is under way and the complex is
free and at an instruction boundary: CORE_STAT.HALTED is 1, CORE_DBGHRIC shows the retired-instruction count, Girth's
HALT is set, and event 0x100A gives the count and the cause (the cause codes are the model's, log entry 35) before
0x6016. RESUME of the halted complex whose signatures agree, in 2oo3, empties the action log, emits 0x100B with the
number of logged actions and the count, then 0x6016, and lets the cores run. STEP does the same and makes a halt
pending that is due once one instruction has retired (that a step emits 0x100B is the model's choice, log entry 35).
Where the halt preceded the exception of an access, RESUME takes it, below monitor privilege, as at the instruction;
else none of the four changes a general, floating-point or special register, PC or the count. -/
def Obligations.DebugCommandsHaltAndRun : Prop :=
  (∀ (n cseq : Nat) (s : State), s.Accepts CORE_DBGSEQ_LASTCMD cseq → s.debugRefused = none → s.bit CORE_STAT_HALTED = false →
    ∃ t, exec (.dbgHalt n cseq) s = .next t ∧ t.Answered CORE_DBGSEQ_LASTCMD CORE_DBGSTAT_RESULT cseq 0 ∧
      t.get CORE_DBGSTAT_STATE = 1 ∧ t.cx = s.cx ∧ t.mem = s.mem) ∧
  (∀ (n : Nat) (s : State), (s.advance n).haltDue = true → (s.advance n).coreFree .cx = true →
    s.atBoundary = true →
    ∃ t, exec (.debugHaltTaken n) s = .next t ∧ t.bit CORE_STAT_HALTED = true ∧ t.get CORE_DBGSTAT_STATE = 2 ∧
      t.get CORE_DBGHRIC_LO_COUNT + t.get CORE_DBGHRIC_HI_COUNT * 2 ^ 32 = s.cx.ric.toNat ∧
      t.bit GIRTH_STAT_HALT = true ∧ t.cx = s.cx ∧ t.mem = s.mem ∧
      EventsAdded s t [(0x100A, [s.cx.ric.toNat % 2 ^ 32, s.cx.ric.toNat / 2 ^ 32, s.core.haltCause]), (0x6016, [1])]) ∧
  (∀ (n cseq : Nat) (s : State), s.Accepts CORE_DBGSEQ_LASTCMD cseq → s.debugRefused = none → s.bit CORE_STAT_HALTED = true →
    s.get CORE_STAT_VOTE = 0 →
    (∀ cause sub a, s.cx.wait = .exception cause sub a → s.cx.priv ≠ 2 → ∃ t, exec (.dbgResume n cseq .agree) s = .next t ∧
      t.bit CORE_STAT_HALTED = false ∧ t.cx = (s.raiseHere .cx cause sub a).cx) ∧
    ((∀ cause sub a, s.cx.wait ≠ .exception cause sub a) →
    (∃ t, exec (.dbgResume n cseq .agree) s = .next t ∧ t.Answered CORE_DBGSEQ_LASTCMD CORE_DBGSTAT_RESULT cseq 0 ∧
      t.bit CORE_STAT_HALTED = false ∧ t.get CORE_DBGSTAT_STATE = 0 ∧ t.core.dbgLog = [] ∧ t.cx = s.cx ∧ t.mem = s.mem ∧
      EventsAdded s t [(0x100B, [s.core.dbgLog.length, s.cx.ric.toNat % 2 ^ 32]), (0x6016, [0])]) ∧
    (∃ t, exec (.dbgStep n cseq .agree) s = .next t ∧ t.Answered CORE_DBGSEQ_LASTCMD CORE_DBGSTAT_RESULT cseq 0 ∧
      t.bit CORE_STAT_HALTED = false ∧ t.get CORE_DBGSTAT_STATE = 1 ∧ t.core.step = some s.cx.ric ∧ t.core.dbgLog = [] ∧
      t.cx = s.cx ∧ t.mem = s.mem ∧
      EventsAdded s t [(0x100B, [s.core.dbgLog.length, s.cx.ric.toNat % 2 ^ 32]), (0x6016, [0])])))

/-- Debug reads return a register or word; debug writes change exactly it and are logged. (02 R68, 02 R69, 02 R70, 02
R72) Accepted on the halted complex with halting debug available: reads of a general, floating-point or listed special
register return its value in CORE_DBGDATA with result 0; writes, with fewer than 256 entries in the action log, change
that register only and append one entry to the log with the retired-instruction count; setting or clearing a
comparator 0 to 5 changes DBGCMP and is logged; a load of an aligned word that no backplane window holds and its
target answers returns the word; one of a backplane window returns the word the window answers with; a store that its
target takes answers 0 and leaves none of the complex's bytes in the merge buffer, one to a backplane window answers 0
where the window takes it. No address here touches a field of access RS with RSOK at 0. No read, write or comparator
command changes PC, the count or memory. -/
def Obligations.DebugAccessesOfTheLeadCore : Prop :=
  ∀ (n cseq : Nat) (i : RegNo) (s : State), s.Accepts CORE_DBGSEQ_LASTCMD cseq → s.debugRefused = none →
    s.bit CORE_STAT_HALTED = true →
    (∃ t, exec (.dbgReadGp n cseq i) s = .next t ∧ t.Answered CORE_DBGSEQ_LASTCMD CORE_DBGSTAT_RESULT cseq 0 ∧
      t.debugData = (s.cx.gpr i).setWidth 64 ∧ t.cx = s.cx ∧ t.mem = s.mem) ∧
    (∃ t, exec (.dbgReadFp n cseq i) s = .next t ∧ t.Answered CORE_DBGSEQ_LASTCMD CORE_DBGSTAT_RESULT cseq 0 ∧
      t.debugData = s.cx.fpr i ∧ t.cx = s.cx ∧ t.mem = s.mem) ∧
    (sprListed i.val = true → ∃ t, exec (.dbgReadSpecial n cseq i) s = .next t ∧
      t.Answered CORE_DBGSEQ_LASTCMD CORE_DBGSTAT_RESULT cseq 0 ∧ t.debugData = (s.cx.special i.val).setWidth 64 ∧ t.cx = s.cx ∧ t.mem = s.mem) ∧
    (s.core.dbgLog.length < 256 →
      (∃ t, exec (.dbgWriteGp n cseq i) s = .next t ∧ t.Answered CORE_DBGSEQ_LASTCMD CORE_DBGSTAT_RESULT cseq 0 ∧
        t.cx = s.cx.setGpr i (s.rd CORE_DBGDATA_LO) ∧ t.core.dbgLog = s.core.dbgLog ++ [⟨s.cx.ric, 5, i.val, s.debugData⟩] ∧
        t.cx.pc = s.cx.pc ∧ t.cx.ric = s.cx.ric ∧ t.mem = s.mem) ∧
      (∃ t, exec (.dbgWriteFp n cseq i) s = .next t ∧ t.Answered CORE_DBGSEQ_LASTCMD CORE_DBGSTAT_RESULT cseq 0 ∧
        t.cx = s.cx.setFpr i s.debugData ∧ t.core.dbgLog = s.core.dbgLog ++ [⟨s.cx.ric, 7, i.val, s.debugData⟩] ∧
        t.cx.pc = s.cx.pc ∧ t.cx.ric = s.cx.ric ∧ t.mem = s.mem) ∧
      (sprListed i.val = true → ∃ t, exec (.dbgWriteSpecial n cseq i) s = .next t ∧
        t.Answered CORE_DBGSEQ_LASTCMD CORE_DBGSTAT_RESULT cseq 0 ∧
        t.cx = s.cx.writeSpecial i.val (s.rd CORE_DBGDATA_LO) ∧
        t.core.dbgLog = s.core.dbgLog ++ [⟨s.cx.ric, 9, i.val, s.debugData⟩] ∧
        t.cx.pc = s.cx.pc ∧ t.cx.ric = s.cx.ric ∧ t.mem = s.mem) ∧
      (i.val ≤ 5 → ∃ t, exec (.dbgSetBreakpoint n cseq i) s = .next t ∧
        t.Answered CORE_DBGSEQ_LASTCMD CORE_DBGSTAT_RESULT cseq 0 ∧ t.core.cmpSet.contains i.val = true ∧
        t.cx = s.cx.setSpecial (0x200 + i.val) (s.rd CORE_DBGADDR) ∧
        t.core.dbgLog = s.core.dbgLog ++ [⟨s.cx.ric, 12, i.val, (s.rd CORE_DBGADDR).setWidth 64⟩] ∧ t.mem = s.mem) ∧
      (i.val ≤ 5 → ∃ t, exec (.dbgClearBreakpoint n cseq i) s = .next t ∧
        t.Answered CORE_DBGSEQ_LASTCMD CORE_DBGSTAT_RESULT cseq 0 ∧ t.core.cmpSet.contains i.val = false ∧
        t.cx = s.cx.setSpecial (0x200 + i.val) 0 ∧
        t.core.dbgLog = s.core.dbgLog ++ [⟨s.cx.ric, 13, i.val, 0⟩] ∧ t.mem = s.mem)) ∧
    (let v := (s.advance n).set CORE_DBGSEQ_LASTCMD cseq
     let a := (s.rd CORE_DBGADDR).toNat
     s.rsRefused a = false → a % 4 = 0 → (∀ b, v.target .cx a ≠ .backplane b) →
      (∀ x w, v.readTarget (.block 1 v.cx.part) .cx 1 a 2 = (x, .data w) →
        ∃ t, exec (.dbgLoad n cseq none) s = .next t ∧ t.get CORE_DBGSTAT_RESULT = 0 ∧ t.debugData = w.setWidth 64) ∧
      (∀ x pkg, v.writeTarget ⟨false, 1, pkg⟩ .cx v.cx.part a 2 (s.rd CORE_DBGDATA_LO) = (x, .done) →
        ∃ t, exec (.dbgStore n cseq false pkg) s = .next t ∧ t.get CORE_DBGSTAT_RESULT = 0 ∧
          ∀ e ∈ t.memb.merge, e.owner ≠ .cx)) ∧
    (∀ (b w : _), s.rsRefused (s.rd CORE_DBGADDR).toNat = false → (s.rd CORE_DBGADDR).toNat % 4 = 0 →
      ((s.advance n).set CORE_DBGSEQ_LASTCMD cseq).target .cx (s.rd CORE_DBGADDR).toNat = .backplane b →
      (∃ t, exec (.dbgLoad n cseq (some w)) s = .next t ∧ t.Answered CORE_DBGSEQ_LASTCMD CORE_DBGSTAT_RESULT cseq 0 ∧
        t.debugData = w.setWidth 64) ∧
      (∀ pkg, ∃ t, exec (.dbgStore n cseq true pkg) s = .next t ∧ t.Answered CORE_DBGSEQ_LASTCMD CORE_DBGSTAT_RESULT cseq 0))

/-- The voter passes agreement, outvotes one core, demands SAFE without agreement; resync release; service watchdogs.
(02 R50, 02 R51, 02 R52, 02 R54, 02 R56, 02 R58, 02 R61, 02 R63, 02 R77) With no resync under way, outside POWERUP and
SAFE, in which a voter clock changes nothing but time. In 2oo3: agreement at both ports changes nothing but time. One
odd core at one port, the other agreeing, is counted in its OUTV (saturating) with event 0x1001 and the port in LASTK:
in BOOT to CONFIGURE it stays voted and SAFE is demanded (cause 1, the pattern), event 0x1009; else it is excluded
(2oo2, that core odd) and, without DEGALLOW, SAFE is demanded; with it RUN becomes RUN_DEGRADED (0xE001) and the core
waits for its resync, or with RSLIM resyncs in the last 24 h is marked failed (0x1005), with FAILSAFE SAFE being
demanded (cause 1, detail 9). P5 at a port, two different odd cores, or in 2oo2 a difference at a port: SAFE is
demanded (cause 1, detail 5 or 6), event 0x1006 or 0x1007, and the complex gets no response; a non-code output is
cause 2 and 0x1008. The first agreed transaction after a release completes the resync: it counts and the mode returns,
RUN_DEGRADED to RUN. RESYNC_RELEASE 27 to 30 us after the transfer's start, as released, makes all three cores vote,
and the steps of the edge that waited follow unless SAFE is demanded or in force; a failed local test or signature at
most 30 us after it marks the core failed (OK 0, case 1 or 2, 0x1004 first) and the mode returns, or with FAILSAFE
SAFE is demanded (detail 8); a disagreeing pair is detail 6. One at another time, or without a transfer, changes
nothing but time where no edge waits. A kick with 0xA5 restarts a service core's watchdog, any other value changes
nothing but time; a running service core not kicked for WDT ms is reset, sets its WDT bit and emits 0x1010. Only a
reset service core and the response of the complex change in the cores. -/
def Obligations.VoterAndServiceCores : Prop :=
  (∀ (n : Nat) (f d : PortView) (s : State),
    (∀ nc, s.mode = .powerup ∨ s.mode = .safe → ∃ t, exec (.voterCompare n f d nc) s = .next t ∧ t = s.advance n) ∧
    (s.core.resync = .idle → s.mode ≠ .powerup → s.mode ≠ .safe →
      (s.get CORE_STAT_VOTE = 0 →
        (pattern3 f = .p1 → pattern3 d = .p1 → ∃ t, exec (.voterCompare n f d none) s = .next t ∧ t = s.advance n) ∧
        (∀ p c a data, pattern3 f = .odd p c a ∧ pattern3 d = .p1 ∧ data = false ∨
            pattern3 f = .p1 ∧ pattern3 d = .odd p c a ∧ data = true → c < 3 →
          ∃ t, exec (.voterCompare n f d none) s = .next t ∧
            t.get (outvoteField c) = min (s.get (outvoteField c) + 1) (2 ^ 32 - 1) ∧ t.bit CORE_LASTK_PORT = data ∧
            CoresAndMemoryKept s t ∧ OnlyRegistersOf [0x400, 0x401] s t ∧
            (let e := (0x1001, [c, (t.rd CORE_LASTA).toNat, (t.rd CORE_LASTK).toNat, s.cx.ric.toNat % 2 ^ 32])
             let down := if s.mode = .run then [(0xE001, [Mode.run.code, Mode.runDegraded.code, 9])] else []
             if s.mode.starts = true then
               t.get CORE_STAT_VOTE = 0 ∧ t.mode = s.mode ∧ t.sys.demands = s.sys.demands ++ [(1, p)] ∧
               EventsAdded s t [e, (0x1009, [s.mode.code, c])]
             else t.get CORE_STAT_VOTE = 1 ∧ t.get CORE_STAT_ODD = c ∧
               if s.bit CORE_CFG_DEGALLOW = false then
                 t.mode = s.mode ∧ t.sys.demands = s.sys.demands ++ [(1, p)] ∧ EventsAdded s t [e]
               else t.mode = (if s.mode = .run then .runDegraded else s.mode) ∧
                 if (s.advance n).recentResyncs c < s.get CORE_CFG_RSLIM then
                   t.core.odd = some (c, (s.advance n).tick) ∧ t.sys.demands = s.sys.demands ∧ EventsAdded s t (e :: down)
                 else t.isFailed c = true ∧
                   t.sys.demands = s.sys.demands ++ (if s.bit CORE_CFG_FAILSAFE = true then [(1, 9)] else []) ∧
                   EventsAdded s t (e :: down ++ [(0x1005, [c, s.get CORE_CFG_RSLIM])]))) ∧
        (∀ p q c c' a a', (pattern3 f = .p5 ∨ pattern3 d = .p5) ∨
            pattern3 f = .odd p c a ∧ pattern3 d = .odd q c' a' ∧ c ≠ c' →
          ∃ t, exec (.voterCompare n f d none) s = .next t ∧ t.sys.demands = s.sys.demands ++ [(1, 5)] ∧
            t.cx = { s.cx with wait := .noResponse } ∧ t.mem = s.mem ∧ OnlyRegistersOf [0x401] s t ∧
            EventsAdded s t [(0x1006, [(t.rd CORE_LASTA).toNat, (t.rd CORE_LASTK).toNat])])) ∧
      (s.get CORE_STAT_VOTE ≠ 0 →
        (pattern2 f (s.get CORE_STAT_ODD) = .p1 → pattern2 d (s.get CORE_STAT_ODD) = .p1 →
          ∃ t, exec (.voterCompare n f d none) s = .next t ∧ t = s.advance n) ∧
        (pattern2 f (s.get CORE_STAT_ODD) = .p6 ∨ pattern2 d (s.get CORE_STAT_ODD) = .p6 →
          ∃ t, exec (.voterCompare n f d none) s = .next t ∧ t.sys.demands = s.sys.demands ++ [(1, 6)] ∧
            t.cx = { s.cx with wait := .noResponse } ∧ t.mem = s.mem ∧ OnlyRegistersOf [0x401] s t ∧
            EventsAdded s t [(0x1007, [(t.rd CORE_LASTA).toNat, (t.rd CORE_LASTK).toNat])])) ∧
      (∀ port : Bool, ∃ t, exec (.voterCompare n f d (some port)) s = .next t ∧
        t.sys.demands = s.sys.demands ++ [(2, port.toNat)] ∧ t.cx = { s.cx with wait := .noResponse } ∧ t.mem = s.mem ∧
        OnlyRegistersOf [0x401] s t ∧ EventsAdded s t [(0x1008, [port.toNat, (s.advance n).tick % 2 ^ 32])])) ∧
    (∀ core mode start dur, s.core.resync = .released core mode start dur → core < 3 → s.mode = .resync →
      s.get CORE_STAT_VOTE = 0 → pattern3 f = .p1 → pattern3 d = .p1 → presents f = true ∨ presents d = true →
      ∃ t, exec (.voterCompare n f d none) s = .next t ∧ t.core.resync = .idle ∧ t.core.odd = none ∧
        t.get (resyncCountField core) = min (s.get (resyncCountField core) + 1) (2 ^ (resyncCountField core).w - 1) ∧
        t.get CORE_RSLAST_OK = 1 ∧ t.get CORE_RSLAST_DUR = dur % 2 ^ CORE_RSLAST_DUR.w ∧
        t.mode = (if mode = Mode.runDegraded.code then .run else Mode.ofCode mode) ∧ t.cx = s.cx ∧ t.sc0 = s.sc0 ∧
        t.sc1 = s.sc1)) ∧
  (∀ (n : Nat) (s : State),
    (∀ core mode start, s.core.resync = .transfer core mode start →
      let dur := (s.advance n).mono - start
      (27000 ≤ dur → dur ≤ 30000 →
        ∃ t u, exec (.resyncRelease n .released) s = .next t ∧ u.get CORE_STAT_VOTE = 0 ∧ u.get CORE_STAT_ODD = 3 ∧
          u.bit CORE_STAT_LEAD = false ∧ u.get CORE_RSLAST_DUR = dur ∧
          (∀ k, k ≠ CORE_STAT → k ≠ CORE_RSLAST → u.rd k = s.rd k) ∧
          u = { s.advance n with regs := u.regs, core := { s.core with resync := .released core mode start dur, odd := none } } ∧
          (s.cyc.held = none → t = u) ∧
          (∀ h, s.cyc.held = some h → t = if s.sys.demands = [] ∧ s.mode ≠ .safe then u.afterResync h else u)) ∧
      (∀ (o : ResyncOutcome) (case_ : Nat), o = .localTestFailed ∧ case_ = 1 ∨ o = .signatureDiffers ∧ case_ = 2 → dur ≤ 30000 →
        core < 3 → s.mode = .resync → Mode.ofCode mode ≠ .resync → s.cyc.held = none →
        ∃ t, exec (.resyncRelease n o) s = .next t ∧ t.core.resync = .idle ∧ t.isFailed core = true ∧
          t.get CORE_STAT_VOTE = 1 ∧ t.get CORE_STAT_ODD = core ∧ t.get CORE_RSLAST_OK = 0 ∧ t.get CORE_RSLAST_CASE = case_ ∧
          t.get CORE_RSLAST_DUR = dur ∧ CoresAndMemoryKept s t ∧ OnlyRegistersOf [0x400, 0x401] s t ∧
          (if s.bit CORE_CFG_FAILSAFE = true then t.mode = .resync ∧ t.sys.demands = s.sys.demands ++ [(1, 8)] ∧
              EventsAdded s t [(0x1004, [core, case_])]
            else t.mode = Mode.ofCode mode ∧ t.sys.demands = s.sys.demands ∧
              EventsAdded s t [(0x1004, [core, case_]), (0xE001, [Mode.resync.code, (Mode.ofCode mode).code, 9])])) ∧
      (dur ≤ 30000 → ∃ t, exec (.resyncRelease n .agreeingPairDisagrees) s = .next t ∧
        t.sys.demands = s.sys.demands ++ [(1, 6)] ∧ t.cx = { s.cx with wait := .noResponse } ∧ t.mem = s.mem ∧
        OnlyRegistersOf [0x401] s t)) ∧
    (∀ o, s.cyc.held = none →
      (∀ core mode start, s.core.resync = .transfer core mode start → 30000 < (s.advance n).mono - start ∨
        o = .released ∧ (s.advance n).mono - start < 27000) →
      ∃ t, exec (.resyncRelease n o) s = .next t ∧ t = s.advance n)) ∧
  (∀ (n : Nat) (k : Word) (s : State),
    (∃ t, exec (.scWatchdogKick n 0 0xA5) s = .next t ∧
      t = { s.advance n with core := { s.core with kick0 := (s.advance n).mono } }) ∧
    (∃ t, exec (.scWatchdogKick n 1 0xA5) s = .next t ∧
      t = { s.advance n with core := { s.core with kick1 := (s.advance n).mono } }) ∧
    (k ≠ 0xA5 → ∀ i, ∃ t, exec (.scWatchdogKick n i k) s = .next t ∧ t = s.advance n)) ∧
  (∀ (n : Nat) (s : State), s.get CORE_SCCTL_WDT ≠ 0 →
    (s.sc0.stopped = false → s.core.kick0 + s.get CORE_SCCTL_WDT * 1000000 ≤ (s.advance n).mono →
      ∃ t, exec (.scWatchdogExpiry n 0) s = .next t ∧ t.bit CORE_SCSTAT_WDT0 = true ∧
        t.sc0 = CoreState.fresh (!s.scEnabled .sc0) ∧ t.core.kick0 = (s.advance n).mono ∧ t.cx = s.cx ∧ t.sc1 = s.sc1 ∧
        t.mem = s.mem ∧ OnlyRegistersOf [0x401] s t ∧ EventsAdded s t [(0x1010, [0, s.get CORE_SCCTL_WDT])]) ∧
    (s.sc1.stopped = false → s.core.kick1 + s.get CORE_SCCTL_WDT * 1000000 ≤ (s.advance n).mono →
      ∃ t, exec (.scWatchdogExpiry n 1) s = .next t ∧ t.bit CORE_SCSTAT_WDT1 = true ∧
        t.sc1 = CoreState.fresh (!s.scEnabled .sc1) ∧ t.core.kick1 = (s.advance n).mono ∧ t.cx = s.cx ∧ t.sc0 = s.sc0 ∧
        t.mem = s.mem ∧ OnlyRegistersOf [0x401] s t ∧ EventsAdded s t [(0x1010, [1, s.get CORE_SCCTL_WDT])]))

/-- A register write acts on each field by its access type; a refused one changes only the error flag. (00 R3, 00 R5,
00 R6) A whole-word write by the complex at executive or monitor privilege to a register that is no mailbox and has no
action or clear-as-a-whole count of its own: every bit the access types let a write set now takes the value's bit,
every write-1-to-clear bit is cleared where the value's bit is 1, every other bit of it and every other register keeps
its value, and nothing but time changes besides. A write of another size, or to an address without a register, is an
error response and changes nothing else. -/
def Obligations.RegisterWritesByAccessType : Prop :=
  (∀ (n : Nat) (addr value : Word) (pkg : Option ChangePackage) (s : State), (s.advance n).cx.priv ≠ 0 →
    (regInfo addr.toNat).isSome = true →
    addr.toNat ∉ [CORE_DBGCMD, CORE_SCCTL, CORE_SCKICK0, CORE_SCKICK1, MEM_FLIPCTL, CYC_RUN, GIRTH_PDATA, GIRTH_WDRESP,
      NET_TXPTR, SYS_OVSEL] →
    (s.advance n).writeMailbox ⟨false, s.cx.priv, pkg⟩ addr.toNat value = none →
    (s.advance n).hartBusy addr.toNat = false → timerControl addr.toNat = none → clearsWhole addr.toNat = none →
    ∃ t, exec (.registerWrite n (.core .cx) 2 addr value pkg) s = .next t ∧ t.busError = false ∧
      (∀ k, k ≠ s.regKey addr.toNat → t.rd k = s.rd k) ∧
      (∀ i, (t.rd (s.regKey addr.toNat)).getLsbD i =
        if (maskOf (fun x => x == .w1c) addr.toNat).getLsbD i && value.getLsbD i then false
        else if (s.settable addr.toNat).getLsbD i then value.getLsbD i
        else (s.rd (s.regKey addr.toNat)).getLsbD i) ∧
      t = { s.advance n with regs := t.regs, busError := false }) ∧
  (∀ (n : Nat) (user : BusUser) (size : Fin 4) (addr value : Word) (pkg : Option ChangePackage) (s : State),
    (regInfo addr.toNat).isNone = true ∨ size.val ≠ 2 →
    ∃ t, exec (.registerWrite n user size addr value pkg) s = .next t ∧ t = { s.advance n with busError := true })

/-- CYC_RUN names the charged task; the budget expires once; the reads of CYC_DISP, CYC_TnWV and CYC_EDGEINF have
their effects. (05 R170, 05 R171, 05 R185, 05 R202) A write of CYC_RUN sets TASK and VALID and settles the charge.
When the charge of the task CYC_RUN names reaches its budget in a cycle that has not expired, the cycle is charged the
time since the last settlement and marked expired, and the task's bit in CYC_BUDEXP is 1. A read of CYC_DISP returns
it and releases line 16. A read of CYC_TnWV returns it and sets STARTS and OVR to 0. A read of CYC_EDGEINF removes the
head of the edge FIFO, returns input, direction and VALID and latches the time stamp; with the FIFO empty it returns 0
and changes nothing else. No core and no memory word changes and no register outside CYC. -/
def Obligations.CycChargingAndReads : Prop :=
  (∀ (n : Nat) (task : Fin 16) (valid : Bool) (s : State), ∃ t, exec (.cycRunWrite n task.val valid) s = .next t ∧
    t.get CYC_RUN_TASK = task.val ∧ t.bit CYC_RUN_VALID = valid ∧ t.cyc.chargedTo = (s.advance n).mono ∧
    CoresAndMemoryKept s t ∧ OnlyRegistersOf [0x403] s t) ∧
  (∀ (n : Nat) (c : Cycle) (s : State), s.bit CYC_RUN_VALID = true → (s.task (s.get CYC_RUN_TASK)).cycle = some c →
    c.expired = false → s.cyc.chargedTo < (s.advance n).mono →
    s.taskBudget (s.get CYC_RUN_TASK) ≤ c.charge + ((s.advance n).mono - s.cyc.chargedTo) →
    ∃ t, exec (.budgetExpiry n) s = .next t ∧
      (t.task (s.get CYC_RUN_TASK)).cycle =
        some { c with charge := c.charge + ((s.advance n).mono - s.cyc.chargedTo), expired := true } ∧
      (t.get CYC_BUDEXP_TASK).testBit (s.get CYC_RUN_TASK) = true ∧ CoresAndMemoryKept s t ∧ OnlyRegistersOf [0x403] s t) ∧
  (∀ s : State, ∃ t, exec .dispRead s = .next t ∧ t = { s with cyc := { s.cyc with line16 := false }, busData := s.rd CYC_DISP }) ∧
  (∀ (task : Fin 16) (s : State), ∃ t, exec (.cywValueRead task) s = .next t ∧ t.busData = s.rd (CYC_TnWV task.val) ∧
    t.get (CYC_TnWV_STARTS task.val) = 0 ∧ t.bit (CYC_TnWV_OVR task.val) = false ∧
    (∀ k, k ≠ CYC_TnWV task.val → t.rd k = s.rd k) ∧ t = { s with regs := t.regs, busData := t.busData }) ∧
  (∀ (e : EdgeEntry) (r : List EdgeEntry) (s : State), s.cyc.edges = e :: r → r.length < 512 →
    ∃ t, exec .edgeFifoRead s = .next t ∧ t.cyc.edges = r ∧ t.get CYC_EDGESTAT_DEPTH = r.length ∧
      t.busData = BitVec.ofNat 32 (e.input + (if e.rise then 256 else 0) + 2 ^ 31) ∧
      t.get CYC_EDGE_LO_MONO = e.stamp % 2 ^ 32 ∧ t.get CYC_EDGE_HI_MONO = e.stamp / 2 ^ 32 % 2 ^ 32 ∧
      CoresAndMemoryKept s t ∧ OnlyRegistersOf [0x403] s t) ∧
  (∀ s : State, s.cyc.edges = [] → ∃ t, exec .edgeFifoRead s = .next t ∧ t = { s with busData := 0 })

/-- A timer with a duration and a mode runs from its start, counts its expiries, and stops. (05 R182) At a time not
before the present one: starting timer n with DUR not 0 and MODE 1 or 2 lets it run from that time with that duration,
periodic in mode 2, RUNNING 1, EXP 0, EXPCNT 0; with DUR 0 or another mode nothing but time changes. Stopping it
clears RUNNING and no running timer n is left. A due expiry of a one-shot timer clears RUNNING and shows EXP 1 and
EXPCNT 1; a periodic timer keeps RUNNING and shows the number of its expiries, at most 65535. No core and no memory
word changes and no register outside CYC. -/
def Obligations.TimersStartStopAndExpire : Prop :=
  ∀ (n : Nat) (timer : Fin 32) (s : State), s.mono ≤ n →
    (let dur := s.get (CYC_TMnDUR_DUR timer.val)
     let mode := s.get (CYC_TMnCTL_MODE timer.val)
     (dur ≠ 0 → mode = 1 ∨ mode = 2 → ∃ t, exec (.timerStart n timer) s = .next t ∧
        ⟨timer.val, n, dur, mode == 2, 0⟩ ∈ t.cyc.timers ∧ (∀ x ∈ t.cyc.timers, x.index = timer.val → x.start = n) ∧
        t.bit (CYC_TMnCTL_RUNNING timer.val) = true ∧ t.bit (CYC_TMnCTL_EXP timer.val) = false ∧
        t.get (CYC_TMnCTL_EXPCNT timer.val) = 0 ∧ CoresAndMemoryKept s t ∧ OnlyRegistersOf [0x403] s t) ∧
     (dur = 0 ∨ (mode ≠ 1 ∧ mode ≠ 2) → ∃ t, exec (.timerStart n timer) s = .next t ∧ t = s.advance n)) ∧
    (∃ t, exec (.timerStop n timer) s = .next t ∧ t.bit (CYC_TMnCTL_RUNNING timer.val) = false ∧
      (∀ x ∈ t.cyc.timers, x.index ≠ timer.val) ∧ CoresAndMemoryKept s t ∧ OnlyRegistersOf [0x403] s t) ∧
    (∀ x : TimerRun, s.cyc.timers.find? (fun y => y.index == timer.val) = some x → x.seen < x.expiries n →
      ∃ t, exec (.timerExpiry n timer) s = .next t ∧ t.bit (CYC_TMnCTL_EXP timer.val) = true ∧
        t.bit (CYC_TMnCTL_RUNNING timer.val) = x.periodic ∧
        t.get (CYC_TMnCTL_EXPCNT timer.val) = (if x.periodic then min (x.expiries n) 65535 else 1) ∧
        CoresAndMemoryKept s t ∧ OnlyRegistersOf [0x403] s t)

/-- The force mailbox sets, reads and removes forces, at most 256, and counts them in CYC_STAT.NFORCE. (05 R186, 05
R188) A command accepted by the force mailbox for a variable of the program: set, with the variable's type, in a mode
that does not refuse it, the variable not yet forced and fewer than 256 forces held, adds the force with the value of
CYC_FVAL modulo its width, result 0; remove of a forced variable leaves no force on it, result 0; read of a forced
variable returns its value in CYC_FVAL and its type, result 0. Remove all leaves no force and result 0. NFORCE is the
number of forces held. An unknown variable gives result 2 and another type result 3, and no force changes. No core and
no memory word changes and no register outside CYC. -/
def Obligations.ForcesAreSetReadAndRemoved : Prop :=
  (∀ (cseq type : Nat) (tool : Bool) (v : VarEntry) (s : State), s.Accepts CYC_FSEQ_LASTCMD cseq →
    s.variable (s.get CYC_FVID_VALUE) = some v →
    (v.type = type → s.forceRefused v = false → (∀ f ∈ s.cyc.forces, f.vid ≠ s.get CYC_FVID_VALUE) → s.cyc.forces.length < 256 →
      ∃ t, exec (.forceSet cseq type tool) s = .next t ∧ t.Answered CYC_FSEQ_LASTCMD CYC_FRES_RESULT cseq 0 ∧
        t.cyc.forces = s.cyc.forces ++ [⟨s.get CYC_FVID_VALUE, type, v.entry, v.bit,
          BitVec.ofNat 64 ((s.get CYC_FVAL_LO_VALUE + s.get CYC_FVAL_HI_VALUE * 2 ^ 32) % 2 ^ typeBits type)⟩] ∧
        t.get CYC_STAT_NFORCE = t.cyc.forces.length ∧ CoresAndMemoryKept s t ∧ OnlyRegistersOf [0x403] s t) ∧
    (v.type ≠ type → ∃ t, exec (.forceSet cseq type tool) s = .next t ∧
      t.Answered CYC_FSEQ_LASTCMD CYC_FRES_RESULT cseq 3 ∧ t.cyc = s.cyc ∧ t.emitted = s.emitted) ∧
    ((∃ f ∈ s.cyc.forces, f.vid = s.get CYC_FVID_VALUE) → s.cyc.forces.length ≤ 256 →
      ∃ t, exec (.forceRemove cseq tool) s = .next t ∧ t.Answered CYC_FSEQ_LASTCMD CYC_FRES_RESULT cseq 0 ∧
        t.cyc.forces = s.cyc.forces.filter (fun f => f.vid != s.get CYC_FVID_VALUE) ∧
        t.get CYC_STAT_NFORCE = t.cyc.forces.length ∧ CoresAndMemoryKept s t ∧ OnlyRegistersOf [0x403] s t) ∧
    (∀ f, s.cyc.forces.find? (fun x => x.vid == s.get CYC_FVID_VALUE) = some f →
      ∃ t, exec (.forceRead cseq) s = .next t ∧ t.Answered CYC_FSEQ_LASTCMD CYC_FRES_RESULT cseq 0 ∧
        t.get CYC_FVAL_LO_VALUE + t.get CYC_FVAL_HI_VALUE * 2 ^ 32 = f.value.toNat ∧ t.get CYC_FRES_TYPE = f.type % 8 ∧
        t.cyc = s.cyc ∧ CoresAndMemoryKept s t ∧ OnlyRegistersOf [0x403] s t)) ∧
  (∀ (cseq type : Nat) (tool : Bool) (s : State), s.Accepts CYC_FSEQ_LASTCMD cseq → s.variable (s.get CYC_FVID_VALUE) = none →
    (∃ t, exec (.forceSet cseq type tool) s = .next t ∧ t.Answered CYC_FSEQ_LASTCMD CYC_FRES_RESULT cseq 2 ∧ t.cyc = s.cyc) ∧
    (∃ t, exec (.forceRemove cseq tool) s = .next t ∧ t.Answered CYC_FSEQ_LASTCMD CYC_FRES_RESULT cseq 2 ∧ t.cyc = s.cyc) ∧
    (∃ t, exec (.forceRead cseq) s = .next t ∧ t.Answered CYC_FSEQ_LASTCMD CYC_FRES_RESULT cseq 2 ∧ t.cyc = s.cyc)) ∧
  (∀ (cseq : Nat) (tool : Bool) (s : State), s.Accepts CYC_FSEQ_LASTCMD cseq →
    ∃ t, exec (.forceRemoveAll cseq tool) s = .next t ∧ t.Answered CYC_FSEQ_LASTCMD CYC_FRES_RESULT cseq 0 ∧
      t.cyc.forces = [] ∧ t.get CYC_STAT_NFORCE = 0 ∧ t.emitted.length = s.emitted.length + s.cyc.forces.length ∧
      CoresAndMemoryKept s t ∧ OnlyRegistersOf [0x403] s t)

/-- Starts and stops wait for their edge; a stop takes effect there; a dispatch shows its tasks and raises line 16.
(05 R190, 05 R171, 01 R39) An accepted start command in STOP, configured, not halted and with no partner to join makes
a cold start pending (a warm one if the retained layouts match), result 0; in RUN or RUN_DEGRADED an accepted stop
makes a stop pending, result 0; no core or memory word changes. At a tick edge of a module without a pair, an odd core
or a SAFE demand, a pending stop in RUN or RUN_DEGRADED takes effect: the mode is STOP and no stop is pending. An edge
in POWERUP, in SAFE or with a SAFE demand waiting changes nothing but time; one from BOOT to CONFIGURE does only the
heartbeat step. A dispatch of at least one task shows the tasks in CYC_DISP.MASK and raises line 16. -/
def Obligations.StartsStopsAndTheEdge : Prop :=
  (∀ (cseq : Nat) (s : State), s.Accepts CYC_CMDSEQ_LASTCMD cseq →
    (s.mode = .stop → s.mayJoin = false → s.bit CORE_STAT_HALTED = false → s.bit SYS_STAT_CFGOK = true →
      (∃ t, exec (.coldStart cseq) s = .next t ∧ t.Answered CYC_CMDSEQ_LASTCMD CYC_CMDRES_RESULT cseq 0 ∧
        t.cyc = { s.cyc with pendingStart := some false } ∧ CoresAndMemoryKept s t ∧ OnlyRegistersOf [0x403] s t) ∧
      (s.layoutMismatch = none → ∃ t, exec (.warmStart cseq) s = .next t ∧
        t.Answered CYC_CMDSEQ_LASTCMD CYC_CMDRES_RESULT cseq 0 ∧ t.cyc = { s.cyc with pendingStart := some true } ∧
        CoresAndMemoryKept s t ∧ OnlyRegistersOf [0x403] s t)) ∧
    (s.mode = .run ∨ s.mode = .runDegraded → ∃ t, exec (.stopCommand cseq) s = .next t ∧
      t.Answered CYC_CMDSEQ_LASTCMD CYC_CMDRES_RESULT cseq 0 ∧ t.cyc = { s.cyc with pendingStop := true } ∧
      CoresAndMemoryKept s t ∧ OnlyRegistersOf [0x403] s t)) ∧
  (∀ (n delay : Nat) (dis : List (Fin 256)) (s : State), n % 125000 = 0 → s.mono ≤ n →
    (s.mode = .run ∨ s.mode = .runDegraded → s.pairMode = 0 → s.sys.demands = [] → s.core.odd = none → s.cyc.pendingStop = true →
      s.cyc.pendingStart = none →
      ∃ t, exec (.tickEdge n delay dis) s = .next t ∧ t.mode = .stop ∧ t.cyc.pendingStop = false ∧ t.bit CYC_STAT_RUN = false) ∧
    (s.mode = .powerup ∨ s.mode = .safe ∨ s.sys.demands ≠ [] →
      ∃ t, exec (.tickEdge n delay dis) s = .next t ∧ t = s.advance n) ∧
    (s.mode.starts = true → s.sys.demands = [] →
      ∃ t, exec (.tickEdge n delay dis) s = .next t ∧ t = (s.advance n).pairStep)) ∧
  (∀ (l : List (Nat × Nat)) (from_ delay : Nat) (resync excess : Bool) (s : State), l ≠ [] →
    (s.dispatch l from_ delay resync excess).cyc.line16 = true ∧
    (s.dispatch l from_ delay resync excess).get CYC_DISP_MASK = l.foldl (fun m e => Nat.lor m (2 ^ e.1)) 0 % 0x10000)

/-- An online change goes from IDLE to PREPARED, ARMED and SWITCHED, and back by REVERT, CONFIRM or ABANDON. (05 R193,
05 R195, 05 R196, 05 R197, 05 R200) A command accepted by the online-change mailbox: PREPARE in IDLE of a package that
passes every check keeps it with its computed switch time and its partitions, state PREPARED, result 0; ARM in
PREPARED (the standby having prepared it) with CYC_OCEDGE 0, or naming an eligible edge, arms that edge, state ARMED,
no hold counted, result 0; REVERT in SWITCHED arms the revert; CONFIRM in SWITCHED and ABANDON in PREPARED or ARMED,
no switch running, drop the change, state IDLE, result 0. No core and no memory word changes and no register outside
CYC. The end of a running switch out of SAFE puts the package's program identity and variable table in force. -/
def Obligations.OnlineChangeRunsItsStates : Prop :=
  (∀ (cseq : Nat) (p : ChangePackage) (s : State), s.Accepts CYC_OCSEQ_LASTCMD cseq →
    let v := s.set CYC_OCSEQ_LASTCMD cseq
    let after := v.uncover.applyDescriptors p
    s.ocState = 0 → p.base = s.sys.program.identity → v.packageAddressesOk p = true → after.checkConfiguration = none →
    v.haveCommonStart (v.changedTasks p.parts) = true → p.plannedNs ≤ 200000 → switchTime p ≤ p.plannedNs →
    firstRefusal (after.checkResponse (switchTime p) after.enabledTasks) after.enabledTasks = none →
    ∃ t, exec (.prepare cseq p) s = .next t ∧ t.Answered CYC_OCSEQ_LASTCMD CYC_OCSTAT_RESULT cseq 0 ∧ t.ocState = 1 ∧
      t.cyc.change = some p ∧ t.cyc.switchNs = switchTime p ∧ t.get CYC_OCPARTS_PARTS = p.parts % 2 ^ 32 ∧
      CoresAndMemoryKept s t ∧ OnlyRegistersOf [0x403] s t) ∧
  (∀ (cseq : Nat) (s : State), s.Accepts CYC_OCSEQ_LASTCMD cseq →
    (s.ocState = 1 → (s.get PAIR_STAT_ROLE ≠ 1 ∨ s.standbyPrepared = true) →
      (s.get CYC_OCEDGE_TICK = 0 → ∃ t, exec (.arm cseq) s = .next t ∧ t.Answered CYC_OCSEQ_LASTCMD CYC_OCSTAT_RESULT cseq 0 ∧
        t.ocState = 2 ∧ t.get CYC_OCSTAT_HOLDS = 0 ∧ t.cyc = { s.cyc with armedEdge := 0 } ∧
        CoresAndMemoryKept s t ∧ OnlyRegistersOf [0x403] s t) ∧
      (∀ e, s.get CYC_OCEDGE_TICK ≠ 0 → s.namedEdge = some e →
        ∃ t, exec (.arm cseq) s = .next t ∧ t.Answered CYC_OCSEQ_LASTCMD CYC_OCSTAT_RESULT cseq 0 ∧
        t.ocState = 2 ∧ t.get CYC_OCSTAT_HOLDS = 0 ∧ t.cyc = { s.cyc with armedEdge := e } ∧
        CoresAndMemoryKept s t ∧ OnlyRegistersOf [0x403] s t)) ∧
    (s.ocState = 3 → ∃ t, exec (.revert cseq) s = .next t ∧ t.Answered CYC_OCSEQ_LASTCMD CYC_OCSTAT_RESULT cseq 0 ∧
      t.ocState = 4 ∧ t.cyc = { s.cyc with armedEdge := 0 } ∧ CoresAndMemoryKept s t ∧ OnlyRegistersOf [0x403] s t) ∧
    (s.ocState = 3 → ∃ t, exec (.confirmChange cseq) s = .next t ∧ t.Answered CYC_OCSEQ_LASTCMD CYC_OCSTAT_RESULT cseq 0 ∧
      t.ocState = 0 ∧ t.cyc = { s.cyc with change := none, undo := none } ∧ CoresAndMemoryKept s t ∧ OnlyRegistersOf [0x403] s t) ∧
    (s.ocState = 1 ∨ s.ocState = 2 → s.cyc.switching = none → ∃ t, exec (.abandon cseq) s = .next t ∧
      t.Answered CYC_OCSEQ_LASTCMD CYC_OCSTAT_RESULT cseq 0 ∧ t.ocState = 0 ∧ t.cyc = { s.cyc with change := none } ∧
      CoresAndMemoryKept s t ∧ OnlyRegistersOf [0x403] s t)) ∧
  (∀ (n delay : Nat) (w : RunningSwitch) (p : ChangePackage) (s : State), s.mode ≠ .safe → s.cyc.switching = some w →
    (if w.revert then s.cyc.undo else s.cyc.change) = some p →
    ∃ t, exec (.onlineChangeSwitchEnd n delay) s = .next t ∧ t.sys.program.identity = p.identity ∧ t.sys.program.vars = p.vars)

/-- A raw word has even parity and gives back the code, the channel, the overrange bit and the frame's parity. (06
R204, 06 R212) For every code of the converter's range, every channel 0 to 31, overrange bit and frame number, the raw
word holds the code as a signed 24-bit number, the channel, the overrange bit and the frame's low bit in their places,
and an even number of bits of it are 1. A code beyond full scale saturates at full scale, and every saturated code is
in range. -/
def Obligations.RawWordCarriesItsFields : Prop :=
  (∀ (c : Int) (ch frame : Nat) (ovr : Bool), -8388607 ≤ c → c ≤ 8388607 → ch < 32 →
    signedOf 24 (fieldGet (rawWord c ch ovr frame) 0 24) = c ∧ fieldGet (rawWord c ch ovr frame) 24 5 = ch ∧
    fieldGet (rawWord c ch ovr frame) 29 1 = ovr.toNat ∧ fieldGet (rawWord c ch ovr frame) 30 1 = frame % 2 ∧
    onesBelow 32 (rawWord c ch ovr frame).toNat % 2 = 0) ∧
  (∀ c : Int, -8388607 ≤ saturateCode c ∧ saturateCode c ≤ 8388607 ∧ (-8388607 ≤ c → c ≤ 8388607 → saturateCode c = c))

/-- A frame samples its channels and opens the intake; a good raw word is taken in; at its deadline the intake closes
and its values enter the history. (06 R203, 06 R206, 06 R212, 06 R213, 06 R214) With the front end started, a frame
start within one AX clock of its place in MONO, of a frame number above the last one, opens the intake of that frame
with nothing received and its channels' trims held, sets LOCK, and the one channel sampled, if converted, shows its
raw word in CHnLAST, of its saturated code (scaled while the spare converter is its source: log entry 80). A raw word
of the right group, channel, frame and parity, received in time, enters the intake with its corrected value in place
of an earlier word of its channel, and no history slot changes; one with odd parity changes nothing but time. At 2 us
after the frame's start an open intake closes: PE_FRAME shows the frame and, if every converted channel was received,
each value received once stands with its check bits in its channel's history slot of the frame (frame 3 or later). No
core and no memory word changes. -/
def Obligations.FramesAreSampledAndTakenIn : Prop :=
  (∀ (n ch k : Nat) (code : Int) (s : State), s.afe.started = true → ch < 24 → frameAt (s.advance n).mono = some k →
    s.pe.frame < k ∨ s.pe.frame = 0 →
    ∃ t, exec (.afeFrameStart n [(ch, code)]) s = .next t ∧ t.pe.frame = k ∧ t.pe.intake = [] ∧
      t.pe.closed = false ∧ t.bit AFE_STAT_LOCK = true ∧ (∀ c < 24, t.pe.trims.getD c 0 = s.rd (AFE_CHnTRIM c)) ∧
      (s.channelOn ch = true → t.rd (AFE_CHnLAST ch) =
        rawWord (saturateCode (s.sourceCode ch code)) ch (overrange (saturateCode (s.sourceCode ch code))) k) ∧
      CoresAndMemoryKept s t ∧ OnlyRegistersOf [0x405, 0x406] s t) ∧
  (∀ (n : Nat) (group : Fin 4) (w : Word) (s : State), s.pe.closed = false →
    (s.advance n).mono ≤ s.pe.frame * 31250 + 2000 →
    (onesBelow 32 w.toNat % 2 = 0 → fieldGet w 24 5 < 24 → fieldGet w 24 5 / 6 = group.val →
      s.channelOn (fieldGet w 24 5) = true → w.getLsbD 30 = (s.pe.frame % 2 == 1) →
      ∃ t, exec (.peRawWordReceive n group w) s = .next t ∧
        t.pe.intake = s.pe.intake.filter (fun e => e.1 != fieldGet w 24 5) ++
          [(fieldGet w 24 5, s.corrected (fieldGet w 24 5) (signedOf 24 (fieldGet w 0 24)))] ∧
        t.pe.mem = s.pe.mem ∧ t.regs = s.regs ∧ CoresAndMemoryKept s t) ∧
    (onesBelow 32 w.toNat % 2 = 1 → ∃ t, exec (.peRawWordReceive n group w) s = .next t ∧ t = s.advance n)) ∧
  (∀ (n : Nat) (s : State), s.pe.closed = false → s.pe.frame * 31250 + 2000 ≤ (s.advance n).mono →
    ∃ t, exec (.intakeDeadline n) s = .next t ∧ t.pe.closed = true ∧ t.get PE_FRAME_N = s.pe.frame % 2 ^ 32 ∧
      t.bit PE_STAT_MISS = (t.pe.missing != 0) ∧
      (∀ ch v, 3 ≤ s.pe.frame → s.intakeComplete = true → s.pe.intake.filter (fun e => e.1 == ch) = [(ch, v)] →
        t.peMem (historyAt ch s.pe.frame) = peWord v) ∧ CoresAndMemoryKept s t ∧ OnlyRegistersOf [0x405, 0x406] s t)

/-- A background calibration starts when due, hands the channel to the spare converter, and ends with new or old
trims. (06 R208, 06 R209, 06 R210, 06 R211) With the front end started, EN set, the group neither suspended nor
calibrating and its interval over, a calibration starts on its next channel. A due phase is counted; the first makes
the spare converter the channel's source with its own trims. A due end makes the own converter the source again and
clears the group's calibration: in a group not suspended meanwhile the new trims apply without a failure, FAILS and
DEG are 0, and with a failure the trims before it apply and FAILS counts it; in a suspended group the trims before it
apply. New trims due to be saved are written to their word of the module's MRAM, no clear under way there (its place:
log entry 79). A group whose reference reading deviates from the median by more than the limit is marked in REFBAD and
suspended. An age above 10 group laps is said once, with event 0x5017. No core and no other memory word changes. -/
def Obligations.CalibrationRunsItsPhases : Prop :=
  (∀ (n : Nat) (g : Fin 4) (s : State),
    (s.afe.started = true → s.bit AFE_CALCFG_EN = true → (s.group g.val).suspended = false → (s.group g.val).cal = none →
      (s.group g.val).lastStart + s.calInterval ≤ (s.advance n).mono →
      ∃ t, exec (.calibrationStart n g) s = .next t ∧
        (t.group g.val).cal = some { channel := 6 * g.val + (s.group g.val).nextChannel, start := (s.advance n).mono } ∧
        (t.group g.val).nextChannel = ((s.group g.val).nextChannel + 1) % 6 ∧ bitOf (t.get AFE_STAT_CALRUN) g.val = true ∧
        CoresAndMemoryKept s t ∧ OnlyRegistersOf [0x405] s t) ∧
    (∀ c, (s.group g.val).cal = some c → c.channel < 24 → c.start + phaseTime c.phase ≤ (s.advance n).mono →
      (c.phase < 3 → ∃ t, exec (.calibrationPhase n g) s = .next t ∧
        (t.group g.val).cal = some { c with phase := c.phase + 1 } ∧
        (c.phase = 0 → t.bit (AFE_CHnCAL_SUBST c.channel) = true ∧ t.rd (AFE_CHnTRIM c.channel) = (s.group g.val).spare ∧
          (t.channel c.channel).trim = s.rd (AFE_CHnTRIM c.channel)) ∧ CoresAndMemoryKept s t ∧ OnlyRegistersOf [0x405] s t) ∧
      (∀ r, c.phase = 3 → ∃ t, exec (.calibrationEnd n g r) s = .next t ∧ (t.group g.val).cal = none ∧
        t.bit (AFE_CHnCAL_SUBST c.channel) = false ∧
        ((s.group g.val).suspended = true → t.rd (AFE_CHnTRIM c.channel) = (s.channel c.channel).trim) ∧
        ((s.group g.val).suspended = false → calFailure (s.channel c.channel) r = none →
          t.rd (AFE_CHnTRIM c.channel) = BitVec.ofNat 32 (patternOf 16 r.gain + patternOf 16 r.off * 65536) ∧
          t.get (AFE_CHnCAL_FAILS c.channel) = 0 ∧ t.bit (AFE_CHnCAL_DEG c.channel) = false ∧
          (t.channel c.channel).calAt = (s.advance n).mono) ∧
        ((s.group g.val).suspended = false → calFailure (s.channel c.channel) r ≠ none → t.rd (AFE_CHnTRIM c.channel) = (s.channel c.channel).trim ∧
          t.get (AFE_CHnCAL_FAILS c.channel) = min (s.get (AFE_CHnCAL_FAILS c.channel) + 1) 15) ∧
        ((s.group g.val).suspended = false → calFailure (s.channel c.channel) r = none → (s.channel c.channel).savedAt = none →
          s.wordReachable (trimAt c.channel) = true → t.stored (trimAt c.channel) = encodeWord (t.rd (AFE_CHnTRIM c.channel))) ∧
        OnlyWordsOf [trimAt c.channel] s t ∧ OnlyRegistersOf [0x405, 0x406] s t))) ∧
  (∀ (n : Nat) (r0 r1 r2 r3 : Int) (s : State), ∃ t, exec (.referenceCheck n r0 r1 r2 r3) s = .next t ∧
    CoresAndMemoryKept s t ∧ OnlyRegistersOf [0x405, 0x406] s t ∧
    ∀ g r, (g, r) ∈ [(0, r0), (1, r1), (2, r2), (3, r3)] →
      (twiceMedian [r0, r1, r2, r3]).natAbs < 2000 * (2 * r - twiceMedian [r0, r1, r2, r3]).natAbs →
      bitOf (t.get AFE_STAT_REFBAD) g = true ∧ (t.group g).suspended = true) ∧
  (∀ (n : Nat) (ch : Fin 24) (s : State), (s.channel ch.val).ageSaid = false →
    60 * (s.calInterval / 1000000000) < (s.advance n).calAge ch.val →
    ∃ t, exec (.calibrationAgeExceeded n ch) s = .next t ∧ (t.channel ch.val).ageSaid = true ∧
      t.emitted = s.emitted ++ [⟨0x5017, [ch.val, (s.advance n).calAge ch.val], (s.advance n).mono⟩] ∧
      CoresAndMemoryKept s t ∧ OnlyRegistersOf [0x406] s t)

/-- VERIFY answers busy, then its result; ENABLE and DISABLE wait for the next slot; a parameter command waits too.
(06 R220, 06 R222, 06 R227, 06 R228) Accepted by the loader mailbox with no VERIFY in progress: VERIFY starts and
answers 10 (busy); in a loader mode ENABLE of a verified context not yet enabled whose worst cases with the others
stay within 12000 makes its request pending, result 0; DISABLE of an enabled context, no stopped safety context being
in question, makes its request pending, result 0. A VERIFY whose time is over ends with the verifier's result on the
program words, single errors in them corrected; 0 sets VOK and VWCET. A parameter command with GO, allowed in the mode
and inside the data area beyond its first four words, waits with its values, result 0. No core and no memory word
changes. -/
def Obligations.PeLoaderAndParameters : Prop :=
  (∀ (n cseq : Nat) (c : Fin 64) (s : State), s.Accepts PE_LSEQ_LASTCMD cseq → s.pe.verify = none →
    (∃ t, exec (.verify n cseq c) s = .next t ∧ t.Answered PE_LSEQ_LASTCMD PE_LRES_RESULT cseq 10 ∧
      t.pe = { s.pe with verify := some (c.val, (s.advance n).mono) } ∧ CoresAndMemoryKept s t ∧ OnlyRegistersOf [0x406] s t) ∧
    (loaderMode s.mode = true → s.willBeEnabled c.val = false → s.bit (PE_CXnSTAT_VOK c.val) = true →
      ((List.range 64).filter fun k => k != c.val && s.willBeEnabled k).foldl (fun v k => v + s.get (PE_CXnSTAT_VWCET k))
        (s.get (PE_CXnSTAT_VWCET c.val)) ≤ 12000 →
      ∃ t, exec (.enable n cseq c) s = .next t ∧ t.Answered PE_LSEQ_LASTCMD PE_LRES_RESULT cseq 0 ∧
        t.cxs c.val = { s.cxs c.val with request := some true } ∧ CoresAndMemoryKept s t ∧ OnlyRegistersOf [0x406] s t) ∧
    (loaderMode s.mode = true → s.willBeEnabled c.val = true →
      (s.lifeCycle < 3 ∨ s.isSafety (s.get (PE_CXnCTL_PART c.val)) = false ∨ s.cxState c.val = cxStopped) →
      ∃ t, exec (.disable n cseq c) s = .next t ∧ t.Answered PE_LSEQ_LASTCMD PE_LRES_RESULT cseq 0 ∧
        t.cxs c.val = { s.cxs c.val with request := some false } ∧ CoresAndMemoryKept s t ∧ OnlyRegistersOf [0x406] s t)) ∧
  (∀ (n c at_ : Nat) (s : State), s.pe.verify = some (c, at_) → c < 64 →
    at_ + (s.get (PE_CXnRANGE_LAST c) + 1 - s.get (PE_CXnRANGE_FIRST c) + 64) * 5 / 2 ≤ (s.advance n).mono →
    let v := (s.advance n).peMend (s.programWords c)
    ∃ t, exec (.verifyComplete n) s = .next t ∧ t.pe.verify = none ∧
      t.get PE_LRES_RESULT = (v.verifyResult c).1 % 16 ∧ t.get PE_LRES_RULE = (v.verifyResult c).2.1 % 8 ∧
      t.get PE_LRES_BUNDLE = (v.verifyResult c).2.2.1 % 2 ^ 15 ∧
      ((v.verifyResult c).1 = 0 → t.bit (PE_CXnSTAT_VOK c) = true ∧
        t.get (PE_CXnSTAT_VWCET c) = (v.verifyResult c).2.2.2 % 2 ^ 14) ∧ CoresAndMemoryKept s t) ∧
  (∀ (n cseq : Nat) (c : Fin 64) (s : State), s.Accepts PE_PSEQ_LASTCMD cseq →
    (s.isSafety (s.get (PE_CXnCTL_PART c.val)) = false ∨ s.mode = .stop ∨ s.mode = .service) →
    4 ≤ s.get PE_PADDR_OFFS → s.get PE_PADDR_OFFS + s.get PE_PADDR_COUNT + 1 ≤ s.dataWords c.val →
    ∃ t, exec (.parameterCommand n cseq c true) s = .next t ∧ t.Answered PE_PSEQ_LASTCMD PE_PRES_RESULT cseq 0 ∧
      t.pe = { s.pe with params := s.pe.params ++ [⟨c.val, s.get PE_PADDR_OFFS,
        (List.range (s.get PE_PADDR_COUNT + 1)).map fun i => s.rd (PE_PDATAi i)⟩] } ∧
      CoresAndMemoryKept s t ∧ OnlyRegistersOf [0x406] s t)

/-- A slot begins once a frame and takes the waiting parameters that fit; a context past its worst case is cut; a slot
ends at its deadline. (06 R220, 06 R222, 06 R223, 06 R225, 06 R226) With the front end started, no slot under way,
none yet begun for the frame and its intake over, PE_SLOT_START, whatever upsets it brings, begins the frame's slot,
and of the waiting parameter commands those that fit its 16 cycles wait no longer. A running context that has executed
its verified worst case is cut: its cuts are counted and event 0x5005 with its number, the frame and the address of
its bundle is emitted. A slot under way at 33.25 us after its frame's start ends: no slot is under way, no context
runs or waits. -/
def Obligations.PeSlotsBeginAndEnd : Prop :=
  (∀ (n bundles : Nat) (upsets : List (Nat × PWord)) (s : State), s.afe.started = true → s.pe.slot = false → s.pe.slotFrame ≠ some s.pe.frame →
    (s.pe.closed = true ∨ s.intakeComplete = true ∨ s.pe.frame * 31250 + 2000 ≤ (s.advance n).mono) →
    ∃ t, exec (.peSlotStart n bundles upsets) s = .next t ∧ t.pe.slotFrame = some s.pe.frame ∧
      t.pe.params = (fitParams 16 s.pe.params).2) ∧
  (∀ (n : Nat) (r : PeRun) (s : State), s.pe.run = some r → r.cx < 64 → s.exhausted r = true →
    ∃ t, exec (.contextCut n) s = .next t ∧
      t.get (PE_CXnCUT_CUTS r.cx) = min (s.get (PE_CXnCUT_CUTS r.cx) + 1) 65535 ∧
      ⟨0x5005, [r.cx, r.frame, 0x50000000 + bundleAt r.pc], (s.advance n).mono⟩ ∈ t.emitted) ∧
  (∀ (n : Nat) (s : State), s.pe.slot = true → s.slotNumber * 31250 + 33250 ≤ (s.advance n).mono →
    ∃ t, exec (.slotDeadline n) s = .next t ∧ t.pe.slot = false ∧ t.pe.run = none ∧ t.pe.rest = [])

/-- A PE bundle's two operations read what stood before it, write their registers, and control goes on or branches.
(07 R244, 07 R248, 07 R249, 07 R250, 07 R251, 07 R254, 07 R255) In an evaluation that has not executed its verified
worst case: a V-slot operation waits as the bundle's vector operation and changes nothing else. An S-slot operation
without memory completes the bundle with the waiting V-slot operation without memory (or none): both read the
registers as they stood before it, the registers become those both effects give, PC goes on, to a branch's target or
round a loop, one bundle is counted, one PX cycle passes and nothing else changes. END of MEAS with LOGIC to follow,
in a context without library items, starts LOGIC with its registers at 0; END of LOGIC ends the evaluation, and the
slot where no context is left. TRP for a flag in the context's mask sets that bit of its contribution; TRG of a set
flag for a line in its mask raises the line. -/
def Obligations.PeOperationsAct : Prop :=
  ∀ (s : State) (r : PeRun), s.pe.run = some r → r.cx < 64 → s.exhausted r = false →
    (∀ v : PeVectorSlot,
      let w := { s with pe := { s.pe with run := some { r with vector := some v } } }
      (∀ o, v = .op o → ∃ t, exec (.peVectorOp o) s = .next t ∧ t = w) ∧
      (∀ d m, v = .vld d m → ∃ t, exec (.vld d m) s = .next t ∧ t = w) ∧
      (∀ d m, v = .vst d m → ∃ t, exec (.vst d m) s = .next t ∧ t = w)) ∧
    (∀ (v : PeVector), r.vector = some (.op v) ∨ (r.vector = none ∧ v = .vnop) →
      let w := fun (o : PeSlot) => { s with pe := { s.pe with
        cycles := s.pe.cycles + 1
        run := some { r with regs := peSlotRegs o r.regs r.loops [] (peVector v r.regs r.regs), pc := (peNext r o).1,
                             loops := (peNext r o).2, count := r.count + 1, vector := none } } }
      (∀ o, ∃ t, exec (.peScalarOp o) s = .next t ∧ t = w (.scalar o)) ∧
      (∀ o, (∀ a m, o ≠ .ald a m) → (∀ a m, o ≠ .ast a m) → ∃ t, exec (.peAccumulatorOp o) s = .next t ∧ t = w (.acc o)) ∧
      (∀ f b off, ∃ t, exec (.brf f b off) s = .next t ∧ t = w (.brf f b off)) ∧
      (∀ off, ∃ t, exec (.bra off) s = .next t ∧ t = w (.bra off)) ∧
      (∀ k m, ∃ t, exec (.loopBegin k m) s = .next t ∧ t = w (.loop k m)) ∧
      (∀ d l, ∃ t, exec (.lidx d l) s = .next t ∧ t = w (.lidx d l)) ∧
      (r.logic = false → r.logicNext = true → s.scheme r.cx = [] → ∃ t x, exec .endEntry s = .next t ∧ t.pe.run = some x ∧ x.logic = true ∧
        x.pc = s.get (PE_CXnPROG_LOGIC r.cx) ∧ x.regs = {} ∧ x.count = r.count + 1 ∧ CoresAndMemoryKept s t) ∧
      (r.logic = true → s.pe.rest = [] → ∃ t, exec .endEntry s = .next t ∧ t.pe.run = none ∧ t.pe.slot = false) ∧
      (∀ n k f, bitOf (s.get (PE_CXnFLM_FLAGS r.cx)) k.val = true → ∃ t, exec (.trp n k f) s = .next t ∧
        (t.cxs r.cx).contrib.getLsbD k.val = r.regs.fl f.val ∧
        (∀ i, i ≠ k.val → (t.cxs r.cx).contrib.getLsbD i = (s.cxs r.cx).contrib.getLsbD i) ∧ CoresAndMemoryKept s t) ∧
      (∀ n j f, bitOf (s.get (PE_CXnCHM_TRIG r.cx)) j.val = true → r.regs.fl f.val = true →
        ∃ t, exec (.trg n j f) s = .next t ∧ bitOf t.pe.triggers j.val = true ∧ CoresAndMemoryKept s t))

/-- LDS and STS, ALD and AST, VLD and VST read and write exactly the words their operand names; an access outside cuts
the context. (07 R246, 07 R247, 07 R250) In an evaluation that has not executed its verified worst case, with no
V-slot operation waiting: LDS from an address inside the allowed areas whose word needs no correction writes it to its
register; STS writes its register to that word with its check bits and no other PE memory word; ALD and AST do the
same with an accumulator and two words, the low one first. With VLD or VST waiting and an S-slot operation that does
nothing, VLD outside the history space writes the four words to the lanes of its register, VST writes the four lanes
to the four words and no other word. No core and no memory word changes and no block register but those of PE. An LDS
outside the allowed areas cuts the context, which runs no further. -/
def Obligations.PeLoadsAndStoresReachTheirWords : Prop :=
  ∀ (s : State) (r : PeRun), s.pe.run = some r → s.exhausted r = false →
    (∀ (d : PeReg) (m : PeMem) (off : Nat), r.vector = none → s.peAddress r m false false 1 = some off →
      ∀ w, peDecode (s.peMem off) = some (w, none) → ∃ t x, exec (.lds d m) s = .next t ∧ t.pe.run = some x ∧
        x.regs = r.regs.setSc d.val w ∧ x.pc = (loopStep (r.pc + 1) r.loops).1 ∧ x.count = r.count + 1 ∧
        t = { s with pe := t.pe } ∧ t.pe.mem = s.pe.mem) ∧
    (∀ (d : PeReg) (m : PeMem) (off : Nat), r.vector = none → s.peAddress r m false true 1 = some off →
      ∃ t x, exec (.sts d m) s = .next t ∧ t.pe.run = some x ∧ x.regs = r.regs ∧ x.count = r.count + 1 ∧
        t.peMem off = peWord (r.regs.sc d.val) ∧ (∀ o, o ≠ off → t.peMem o = s.peMem o) ∧ t = { s with pe := t.pe }) ∧
    (∀ (d : PeAcc) (m : PeMem) (off : Nat) (lo hi : Word), r.vector = none →
      (s.peAddress r m false false 2 = some off → peDecode (s.peMem off) = some (lo, none) →
        peDecode (s.peMem (off + 4)) = some (hi, none) →
        ∃ t x, exec (.peAccumulatorOp (.ald d m)) s = .next t ∧ t.pe.run = some x ∧ x.regs = r.regs.setAc d.val (hi ++ lo) ∧
          x.count = r.count + 1 ∧ t = { s with pe := t.pe } ∧ t.pe.mem = s.pe.mem) ∧
      (s.peAddress r m false true 2 = some off →
        ∃ t x, exec (.peAccumulatorOp (.ast d m)) s = .next t ∧ t.pe.run = some x ∧ x.regs = r.regs ∧ x.count = r.count + 1 ∧
          t.peMem off = peWord ((r.regs.ac d.val).setWidth 32) ∧
          t.peMem (off + 4) = peWord (((r.regs.ac d.val) >>> 32).setWidth 32) ∧
          (∀ o, o ≠ off → o ≠ off + 4 → t.peMem o = s.peMem o) ∧ t = { s with pe := t.pe })) ∧
    (∀ (d : PeReg) (m : PeMem) (off : Nat), r.vector = some (.vld d m) → m.space.val ≠ 1 →
      s.peAddress r m true false 4 = some off →
      ∀ w : Fin 4 → Word, (∀ i, peDecode (s.peMem (off + 4 * i.val)) = some (w i, none)) →
      ∃ t x, exec (.peScalarOp .snop) s = .next t ∧ t.pe.run = some x ∧ (∀ i : Fin 4, x.regs.lane d.val i.val = w i) ∧
        (∀ v i, v ≠ d.val → i < 4 → x.regs.lane v i = r.regs.lane v i) ∧ t = { s with pe := t.pe } ∧ t.pe.mem = s.pe.mem) ∧
    (∀ (d : PeReg) (m : PeMem) (off : Nat), r.vector = some (.vst d m) → s.peAddress r m true true 4 = some off →
      ∃ t x, exec (.peScalarOp .snop) s = .next t ∧ t.pe.run = some x ∧ x.regs = r.regs ∧
        (∀ i : Fin 4, t.peMem (off + 4 * i.val) = peWord (r.regs.lane d.val i.val)) ∧
        (∀ o, (∀ i : Fin 4, o ≠ off + 4 * i.val) → t.peMem o = s.peMem o) ∧ t = { s with pe := t.pe }) ∧
    (∀ (d : PeReg) (m : PeMem), r.vector = none → s.peAddress r m false false 1 = none →
      ∃ t, exec (.lds d m) s = .next t ∧ ⟨0x5005, [r.cx, r.frame, 0x50000000 + bundleAt r.pc], s.mono⟩ ∈ t.emitted)

/-- A duration on Girth's crystal and on MONO differ by at most 50 ppm, and Girth's time never runs back. (08 R276)
For MONO times a and b with a at most b, Girth's time at a is at most that at b, and the Girth duration d and the MONO
duration D between them satisfy D <= d (1 + 50 x 10^-6) and d (1 - 50 x 10^-6) <= D, within 2 ns of rounding to whole
nanoseconds. -/
def Obligations.GirthTimeWithin50ppm : Prop :=
  ∀ a b : Nat, a ≤ b → girthTime a ≤ girthTime b ∧
    (b - a) * 20000 ≤ (girthTime b - girthTime a) * 20001 + 40000 ∧
    (girthTime b - girthTime a) * 19999 ≤ (b - a) * 20000 + 40000

/-- GIRTH_PDATA is written in UNLOADED only; LOAD of a set that passes its checks arms Girth, a wrong CRC gives result
2. (08 R278, 08 R317) A write of GIRTH_PDATA in UNLOADED with an index below 35 changes the word at the index and
nothing else; with another index or in another state it changes nothing. LOAD accepted in UNLOADED of a set whose CRC
is right, whose words are in range and, from the life-cycle state on that fuses the set, whose CRC is the fused one,
arms Girth: STATE 1, PCRC the set's CRC, result 0. A set whose CRC is wrong gives result 2 and Girth stays UNLOADED.
No core and no memory word changes. -/
def Obligations.GirthTakesItsParameterSetOnce : Prop :=
  (∀ (v : Word) (s : State),
    (s.get GIRTH_STAT_STATE = 0 → s.get GIRTH_PIDX_IDX < 35 → ∃ t, exec (.girthPdataWrite v) s = .next t ∧
      t.girthWord (s.get GIRTH_PIDX_IDX) = v ∧ (∀ k, k ≠ bank GIRTH_PDATA (s.get GIRTH_PIDX_IDX) → t.rd k = s.rd k) ∧
      t = { s with regs := t.regs }) ∧
    (s.get GIRTH_STAT_STATE ≠ 0 ∨ 35 ≤ s.get GIRTH_PIDX_IDX → ∃ t, exec (.girthPdataWrite v) s = .next t ∧ t = s)) ∧
  (∀ (n cseq : Nat) (s : State), s.Accepts GIRTH_SEQ_LASTCMD cseq → s.get GIRTH_STAT_STATE = 0 →
    ((s.girthWord 34).toNat = s.girthCrc → s.girthBadWord = none →
      (s.lifeCycle < 3 ∨ (s.girthWord 34).toNat = s.get GIRTH_FCRC_CRC) →
      ∃ t, exec (.girthLoad n cseq) s = .next t ∧ t.Answered GIRTH_SEQ_LASTCMD GIRTH_RES_RESULT cseq 0 ∧
        t.get GIRTH_STAT_STATE = 1 ∧ t.get GIRTH_PCRC_CRC = (s.girthWord 34).toNat ∧ t.girth.accepted = true ∧
        CoresAndMemoryKept s t) ∧
    ((s.girthWord 34).toNat ≠ s.girthCrc → ∃ t, exec (.girthLoad n cseq) s = .next t ∧
      t.Answered GIRTH_SEQ_LASTCMD GIRTH_RES_RESULT cseq 2 ∧ t.get GIRTH_STAT_STATE = 0 ∧ t.girth = s.girth ∧
      CoresAndMemoryKept s t))

/-- A SAFE demand, a channel mismatch or a watchdog violation latches SAFE: no safety output is permitted, the cores
stop. (08 R283, 08 R284, 08 R286, 15 R495) With Girth not in SAFE: the first demand waiting, a mismatch of its
channels (cause 7), an overdue watchdog in ARMED (cause 4), and, while not halted, a watchdog response in ARMED with
the watchdog running that is late (cause 4), early (5) or wrong (6) latch SAFE with that cause and detail: STATE 2 and
no output permitted, and the module, out of POWERUP and SAFE, enters the mode SAFE with the complex stopped and, in a
trial start, TFAIL set; of memory a demand or mismatch changes at most the boot record (log entry 79). A SAFE demand's
latch takes all demands waiting. While not halted, the first correct response in ARMED starts the watchdog; a correct
one in its window shows its interval and gets the next challenge; neither changes STATE. -/
def Obligations.GirthLatchesSafe : Prop :=
  (∀ (n c d : Nat) (r : List (Nat × Nat)) (s : State), s.sys.demands = (c, d) :: r → s.get GIRTH_STAT_STATE ≠ 2 →
    ∃ t, exec (.girthSafeLatch n) s = .next t ∧ t.SafeLatched ∧ t.get GIRTH_SAFEC_CAUSE = c % 16 ∧
      t.get GIRTH_SAFEC_DETAIL = d % 256 ∧ t.sys.demands = [] ∧
      (s.mode ≠ .powerup → s.mode ≠ .safe → t.mode = .safe ∧ t.cx.stopped = true ∧
        (s.bit SYS_STAT_TRIAL = true → t.bit SYS_BOOT_TFAIL = true)) ∧
      (s.bit SYS_STAT_TRIAL = false → t.mem = s.mem) ∧ (∀ k, k ∉ bootWords → t.stored k = s.stored k)) ∧
  (∀ (n : Nat) (g : BitVec 8) (s : State), s.get GIRTH_STAT_STATE ≠ 2 →
    ∃ t, exec (.girthChannelMismatch n g) s = .next t ∧ t.SafeLatched ∧ t.get GIRTH_SAFEC_CAUSE = 7 ∧
      t.get GIRTH_SAFEC_DETAIL = g.toNat ∧ (s.mode ≠ .powerup → s.mode ≠ .safe → t.mode = .safe ∧ t.cx.stopped = true) ∧
      (s.bit SYS_STAT_TRIAL = false → t.mem = s.mem) ∧ (∀ k, k ∉ bootWords → t.stored k = s.stored k)) ∧
  (∀ (n : Nat) (s : State), s.get GIRTH_STAT_STATE = 1 → s.bit GIRTH_STAT_WDRUN = true →
    s.wdMax < (s.advance n).gx - s.girth.wdAt →
    ∃ t, exec (.watchdogTimeout n) s = .next t ∧ t.SafeLatched ∧ t.get GIRTH_SAFEC_CAUSE = 4 ∧
      (s.mode ≠ .powerup → s.mode ≠ .safe → t.mode = .safe ∧ t.cx.stopped = true)) ∧
  (∀ (n : Nat) (v : Word) (s : State), s.get GIRTH_STAT_STATE = 1 → s.bit GIRTH_STAT_HALT = false →
    let d := (s.advance n).gx - s.girth.wdAt
    (s.bit GIRTH_STAT_WDRUN = true →
      (∀ cause, (cause = 4 ∧ s.wdMax < d) ∨ (cause = 5 ∧ d ≤ s.wdMax ∧ d < s.wdMin) ∨
          (cause = 6 ∧ d ≤ s.wdMax ∧ s.wdMin ≤ d ∧ v ≠ ~~~ s.rd GIRTH_WDCHAL) →
        ∃ t, exec (.watchdogResponse n v) s = .next t ∧ t.SafeLatched ∧ t.get GIRTH_SAFEC_CAUSE = cause ∧
          (s.mode ≠ .powerup → s.mode ≠ .safe → t.mode = .safe ∧ t.cx.stopped = true)) ∧
      (d ≤ s.wdMax → s.wdMin ≤ d → v = ~~~ s.rd GIRTH_WDCHAL → ∃ t, exec (.watchdogResponse n v) s = .next t ∧
        t.get GIRTH_STAT_STATE = 1 ∧ t.get GIRTH_WDLAST_INT = d / 10000 % 2 ^ 14 ∧ t.girth.wdAt = (s.advance n).gx ∧
        t.rd GIRTH_WDCHAL = BitVec.ofNat 32 (crcWords [s.rd GIRTH_WDCHAL]) ∧ CoresAndMemoryKept s t)) ∧
    (s.bit GIRTH_STAT_WDRUN = false → v = ~~~ s.rd GIRTH_WDCHAL → ∃ t, exec (.watchdogResponse n v) s = .next t ∧
      t.bit GIRTH_STAT_WDRUN = true ∧ t.get GIRTH_STAT_STATE = 1 ∧ CoresAndMemoryKept s t))

/-- In a latched SAFE no command or event of Girth leaves SAFE or permits a safety output. (08 R284, 08 R293) For
every state in which Girth has latched SAFE and permits no safety output, and every command and event of the families
of Girth named here (parameters, LOAD, CLROUT, INSTRST, demands, mismatch, driver enables, watchdog, discrepancies,
refresh, external drive, switch tests, raw words, silence of PE, trip outputs, supervision), the next state has SAFE
latched and no safety output permitted. -/
def Obligations.NoGirthCommandLeavesSafe : Prop :=
  ∀ (c : Instr) (s t : State), s.SafeLatched → exec c s = .next t →
    ((∃ v, c = .girthPdataWrite v) ∨ (∃ n q, c = .girthLoad n q) ∨ (∃ n q i, c = .instrst n q i) ∨
      (∃ n q i b, c = .girthClrout n q i b) ∨ (∃ n, c = .girthSafeLatch n) ∨ (∃ n g, c = .girthChannelMismatch n g) ∨
      (∃ n d, c = .dynamicEnableLoss n d) ∨ (∃ n, c = .gltripPulseEnd n) ∨ (∃ n v, c = .watchdogResponse n v) ∨
      (∃ n, c = .watchdogTimeout n) ∨ (∃ n p, c = .discrepancyFault n p) ∨ (∃ n o, c = .refreshTimeout n o) ∨
      (∃ n o, c = .safetyExternalDrive n o) ∨ (∃ n o, c = .switchTestStart n o) ∨ (∃ n o x, c = .switchTestCheck n o x) ∨
      (∃ n w, c = .girthRawWordReceive n w) ∨ (∃ n ch, c = .rawLost n ch) ∨ (∃ n, c = .peSilentChange n) ∨
      (∃ n k, c = .tripRelease n k) ∨ (∃ n k, c = .tripOverloadCutoff n k) ∨ (∃ n k m, c = .tripConfirmCheck n k m) ∨
      (∃ n k x y z, c = .tcsStateChange n k x y z) ∨ (∃ n k, c = .tcsResume n k)) →
    t.SafeLatched

/-- Discrepancy, refresh timeout, external drive, switch tests and lost driver enables take a safety output's permit
or current. (08 R282, 08 R289, 08 R294, 08 R295) With its conditions met: a discrepancy that the samples show latches
the pair's fault and takes its plausible value; a refresh timeout sets REFTO and takes the permit; an external drive
not yet latched, in every state of Girth, latches the output's fault and takes the permit; a switch test opens the due
switch of a conducting output; its check ends the test 200 us after the opening with no fault, from 150 us on with the
output's fault if its readback is still on, and at once with both outputs' faults if another output's readback has
changed and the supply is kept. A driver that loses its enable no longer conducts (a safety output), or pulses GLTRIP
(the trip driver); the pulse ends after 180 ms or more. CLROUT with request and readback off clears the fault, result
0. No core and no memory word changes. -/
def Obligations.SafetyOutputsAndPairsFault : Prop :=
  (∀ (n : Nat) (p : Fin 4) (s : State), s.pairOn p.val = true → s.bit (GIRTH_SIN_DISC p.val) = true →
    s.bit (GIRTH_SIN_FAULT p.val) = false →
    (s.pairTimes p.val).unsampled = none → s.pairT p.val < (s.advance n).gx - (s.pairTimes p.val).since + 100000 →
    ∃ t, exec (.discrepancyFault n p) s = .next t ∧ t.bit (GIRTH_SIN_FAULT p.val) = true ∧ t.bit (GIRTH_SIN_PV p.val) = false ∧
      (t.get GIRTH_FAULT_DISC).testBit p.val = true ∧ CoresAndMemoryKept s t) ∧
  (∀ (n r : Nat) (o : Fin 4) (s : State), (s.safetyOut o.val).refreshAt = some r → s.get GIRTH_STAT_STATE ≠ 0 →
    s.gp (29 + o.val) 0 1 = 1 → s.bit (GIRTH_SOUT_REFTO o.val) = false →
    r + s.gp (29 + o.val) 5 10 * 100000 ≤ (s.advance n).gx →
    ∃ t, exec (.refreshTimeout n o) s = .next t ∧ t.bit (GIRTH_SOUT_REFTO o.val) = true ∧
      t.bit (GIRTH_SOUT_PERMIT o.val) = false ∧ CoresAndMemoryKept s t) ∧
  (∀ (n : Nat) (o : Fin 4) (s : State), (s.bit (GIRTH_SOUT_PERMIT o.val) && s.bit (GIRTH_SOUT_REQ o.val)) = false →
    (s.safetyOut o.val).driven = false →
    s.get FIO_STAT_FS1 ≤ 1 →
    ∃ t, exec (.safetyExternalDrive n o) s = .next t ∧ t.bit (GIRTH_SOUT_FAULT o.val) = true ∧
      t.bit (GIRTH_SOUT_PERMIT o.val) = false ∧ (t.get GIRTH_FAULT_EXTD).testBit o.val = true ∧ CoresAndMemoryKept s t) ∧
  (∀ (n : Nat) (o : Fin 4) (s : State), bitOf (s.get GIRTH_STAT_SOUTON) o.val = true → s.girth.test = none →
    s.girth.testEnd + 10000000 ≤ (s.advance n).gx →
    ((s.safetyOut o.val).lowNext = true ∨
      (s.safetyOut o.val).testBase + s.gp (29 + o.val) 15 12 * 1000000000 ≤ (s.advance n).gx) →
    ∃ t, exec (.switchTestStart n o) s = .next t ∧
      t.girth.test = some ⟨o.val, (s.safetyOut o.val).lowNext, (s.advance n).gx⟩ ∧
      bitOf (t.get GIRTH_STAT_SOUTON) o.val = false ∧ CoresAndMemoryKept s t) ∧
  (∀ (n : Nat) (off : Bool) (x : SwitchTest) (s : State), s.girth.test = some x → x.out < 4 →
    (if off then x.at_ + 200000 else x.at_ + 150000) ≤ (s.advance n).gx →
    ∃ t, exec (.switchTestCheck n off 0) s = .next t ∧ t.girth.test = none ∧ t.girth.testEnd = (s.advance n).gx ∧
      t.bit (GIRTH_SOUT_FAULT x.out) = (s.bit (GIRTH_SOUT_FAULT x.out) || !off) ∧ CoresAndMemoryKept s t) ∧
  (∀ (n : Nat) (off : Bool) (changed : BitVec 4) (x : SwitchTest) (j : Fin 4) (s : State), s.girth.test = some x → x.out < 4 →
    j.val ≠ x.out → changed.getLsbD j.val = true → s.get FIO_STAT_FS1 ≤ 1 →
    ∃ t, exec (.switchTestCheck n off changed) s = .next t ∧ t.girth.test = none ∧ t.bit (GIRTH_SOUT_FAULT x.out) = true ∧
      t.bit (GIRTH_SOUT_FAULT j.val) = true ∧ t.bit (GIRTH_SOUT_PERMIT j.val) = false ∧ CoresAndMemoryKept s t) ∧
  (∀ (n : Nat) (d : Fin 5) (s : State), s.girth.enableLost.contains d.val = false →
    ∃ t, exec (.dynamicEnableLoss n d) s = .next t ∧ t.girth.enableLost = d.val :: s.girth.enableLost ∧
      (d.val < 4 → bitOf (t.get GIRTH_STAT_SOUTON) d.val = false) ∧
      (d.val = 4 → t.girth.glPulse = s.girth.glCopied ∧ t.girth.glAt = (s.advance n).mono) ∧ CoresAndMemoryKept s t) ∧
  (∀ (n : Nat) (s : State), s.girth.glPulse ≠ 0 → s.girth.glAt + 180000000 ≤ (s.advance n).mono →
    ∃ t, exec (.gltripPulseEnd n) s = .next t ∧ t = { s.advance n with girth := { s.girth with glPulse := 0 } }) ∧
  (∀ (n cseq : Nat) (i : Fin 16) (s : State), s.Accepts GIRTH_SEQ_LASTCMD cseq → 1 ≤ i.val → i.val ≤ 4 →
    s.get GIRTH_STAT_STATE ≠ 0 → s.bit (GIRTH_SOUT_REQ (i.val - 1)) = false →
    ∃ t, exec (.girthClrout n cseq i false) s = .next t ∧ t.Answered GIRTH_SEQ_LASTCMD GIRTH_RES_RESULT cseq 0 ∧
      t.bit (GIRTH_SOUT_FAULT (i.val - 1)) = false ∧ CoresAndMemoryKept s t)

/-- Trip outputs release, cut off and confirm; supervision changes class and resumes; raw words pick up elements or
are counted. (08 R298, 08 R299, 08 R300, 08 R302, 08 R303, 08 R304, 08 R305, 08 R306) With its conditions met: a trip
output without sources after TMIN goes off; one overloaded for 300 ms goes off and is marked; a current of 50 mA
within 5 ms sets CONF, its want at 5 ms marks TFAIL; a new supervision class is shown; supervision resumes 1 s after
the release; PE becomes silent after 250 us without a strobe and ends so after 64 strobes. A raw word that is
discarded is counted and marked in RAWERR; an accepted one of a channel not lost becomes the channel's last word and
sets each watching element's pickup bit by its threshold; the 32nd in a row of a lost channel restores it; a channel
without words is marked lost. INSTRST of an element not picked up has result 0 and clears its operation unless a lost
channel keeps it. No core and no memory word changes. -/
def Obligations.TripOutputsAndRawPath : Prop :=
  (∀ (n : Nat) (k : Fin 4) (s : State),
    (let v := (s.advance n).driveTrips
     v.bit (GIRTH_TOUT_ON k.val) = true → v.sources k.val = 0 → (v.tripOut k.val).onAt + v.tripMin k.val ≤ v.gx →
      ∃ t, exec (.tripRelease n k) s = .next t ∧ t.bit (GIRTH_TOUT_ON k.val) = false ∧ CoresAndMemoryKept s t) ∧
    (s.bit (GIRTH_TOUT_ON k.val) = true → (s.tripOut k.val).onAt + 300000000 ≤ (s.advance n).gx →
      ∃ t, exec (.tripOverloadCutoff n k) s = .next t ∧ t.bit (GIRTH_TOUT_ON k.val) = false ∧
        (t.get GIRTH_FAULT_TOVL).testBit k.val = true ∧ CoresAndMemoryKept s t) ∧
    (∀ ma, s.bit (GIRTH_TOUT_ON k.val) = true → (s.tripOut k.val).confirm = true →
      50 ≤ ma ∧ (s.advance n).gx ≤ (s.tripOut k.val).onAt + 5000000 ∨ (s.tripOut k.val).onAt + 5000000 ≤ (s.advance n).gx →
      ∃ t, exec (.tripConfirmCheck n k ma) s = .next t ∧ (t.tripOut k.val).confirm = false ∧
        (50 ≤ ma → (s.advance n).gx ≤ (s.tripOut k.val).onAt + 5000000 → t.bit (GIRTH_TOUT_CONF k.val) = true) ∧
        (ma < 50 ∨ (s.tripOut k.val).onAt + 5000000 < (s.advance n).gx → (t.get GIRTH_FAULT_TFAIL).testBit k.val = true) ∧ CoresAndMemoryKept s t ∧ OnlyRegistersOf [0x407] s t) ∧
    (∀ x y z, s.tripOn k.val = true → s.gp (21 + k.val) 13 1 = 1 → s.bit (GIRTH_TOUT_ON k.val) = false →
      s.bit (GIRTH_TCS_SUSP k.val) = false → tcsClass x y z ≠ s.get (GIRTH_TCS_STATE k.val) →
      ∃ t, exec (.tcsStateChange n k x y z) s = .next t ∧ t.get (GIRTH_TCS_STATE k.val) = tcsClass x y z ∧
        CoresAndMemoryKept s t ∧ OnlyRegistersOf [0x407] s t) ∧
    (s.bit (GIRTH_TCS_SUSP k.val) = true → s.bit (GIRTH_TOUT_ON k.val) = false →
      (s.tripOut k.val).releasedAt + 1000000000 ≤ (s.advance n).gx →
      ∃ t, exec (.tcsResume n k) s = .next t ∧ t.bit (GIRTH_TCS_SUSP k.val) = false ∧ CoresAndMemoryKept s t)) ∧
  (∀ (n : Nat) (s : State),
    (s.bit GIRTH_STAT_PESIL = false → s.girth.strobeAt + 250000 ≤ (s.advance n).gx →
      ∃ t, exec (.peSilentChange n) s = .next t ∧ t.bit GIRTH_STAT_PESIL = true ∧ CoresAndMemoryKept s t) ∧
    (s.bit GIRTH_STAT_PESIL = true → 64 ≤ s.girth.strobes →
      ∃ t, exec (.peSilentChange n) s = .next t ∧ t.bit GIRTH_STAT_PESIL = false ∧ CoresAndMemoryKept s t) ∧
    (∀ w, (∀ r, s.rawDiscard w = some r → ∃ t, exec (.girthRawWordReceive n w) s = .next t ∧
        t.get GIRTH_RAWERR_COUNT = min (s.get GIRTH_RAWERR_COUNT + 1) (2 ^ 32 - 1) ∧ t.bit GIRTH_FAULT_RAWERR = true ∧
        CoresAndMemoryKept s t) ∧
      (s.rawDiscard w = none → (s.rawChannel (rawChannelOf w)).lost = false →
        ∃ t, exec (.girthRawWordReceive n w) s = .next t ∧ (t.rawChannel (rawChannelOf w)).ft = some (rawFt w) ∧
          (t.rawChannel (rawChannelOf w)).at_ = (s.advance n).gx ∧
          (∀ e ∈ s.watchers (rawChannelOf w), bitOf (t.get GIRTH_INST_PICK) e =
            (rawOvr w || decide (s.elThresh e ≤ (rawSample w).natAbs))) ∧ CoresAndMemoryKept s t) ∧
      (s.rawDiscard w = none → (s.rawChannel (rawChannelOf w)).lost = true → 31 ≤ (s.rawChannel (rawChannelOf w)).run →
        (s.advance n).gx < (s.rawChannel (rawChannelOf w)).at_ + 125000 →
        ∃ t, exec (.girthRawWordReceive n w) s = .next t ∧ (t.rawChannel (rawChannelOf w)).lost = false ∧
          (∀ e ∈ s.watchers (rawChannelOf w), bitOf (t.get GIRTH_INST_LOST) e = false) ∧ CoresAndMemoryKept s t)) ∧
    (∀ ch : Fin 24, s.get GIRTH_STAT_STATE ≠ 0 → s.watchers ch.val ≠ [] → (s.rawChannel ch.val).lost = false →
      max (s.rawChannel ch.val).at_ s.girth.armedAt + 125000 ≤ (s.advance n).gx →
      ∃ t, exec (.rawLost n ch) s = .next t ∧ (t.rawChannel ch.val).lost = true ∧ t.bit GIRTH_FAULT_RAWLOST = true ∧
        (∀ e ∈ s.watchers ch.val, bitOf (t.get GIRTH_INST_LOST) e = true) ∧ CoresAndMemoryKept s t)) ∧
  (∀ (n cseq : Nat) (i : Fin 16) (s : State), s.Accepts GIRTH_SEQ_LASTCMD cseq → i.val < 8 → s.get GIRTH_STAT_STATE ≠ 0 →
    s.elOn i.val = true → bitOf (s.get GIRTH_INST_PICK) i.val = false →
    ∃ t, exec (.instrst n cseq i) s = .next t ∧ t.Answered GIRTH_SEQ_LASTCMD GIRTH_RES_RESULT cseq 0 ∧
      (s.elLatch i.val = true → (s.elLossTrip i.val && bitOf (s.get GIRTH_INST_LOST) i.val) = false →
        bitOf (t.get GIRTH_INST_OP) i.val = false ∧ t.element i.val = {}) ∧ CoresAndMemoryKept s t)

/-- An event becomes the next record in the queue, the limiter suppresses it, programs take the oldest, READ shows a
record. (09 R318, 09 R319, 09 R321, 09 R322, 09 R324, 09 R328, 09 R544) The oldest event emitted leaves for REC: a
code without a limiter entry, the queue not full, becomes the next record, with the next number, and QDEPTH and NEW
show it; so does a code with a limiter entry and a token left, its record carrying the suppressed count; a code whose
bucket is empty is only counted as suppressed. With no event nothing but time changes. A due refill gives back one
token. A program of the n oldest records takes them from the queue, a failed one takes none. The counters are saved to
their words of the module's MRAM once per minute, no clear under way there (the places of these words: log entry 79).
An accepted READ of a stored record shows its 16 words with result 0 (3 if its CRC fails), of no record zeros with
result 2. No core and no other memory word changes. -/
def Obligations.EventsBecomeRecords : Prop :=
  (∀ (n : Nat) (e : Event) (rest : List Event) (s : State), s.emitted = e :: rest →
    (s.limiter e.code = none → s.recb.queue.length < 256 →
      let k := (s.get REC_ENUM_NUM + 1) % 2 ^ 32
      ∃ t, exec (.recEventReceive n) s = .next t ∧ t.emitted = rest ∧
        t.recb.queue = s.recb.queue ++ [({ s.advance n with emitted := rest }).mkRecord e.code e.vals 0 0 false k] ∧
        t.get REC_ENUM_NUM = k ∧ t.get REC_STAT_QDEPTH = s.recb.queue.length + 1 ∧ t.bit REC_STAT_NEW = true ∧
        CoresAndMemoryKept s t ∧ OnlyRegistersOf [0x40E] s t) ∧
    (∀ i, s.limiter e.code = some i → s.burst i ≤ (s.bucket i).taken →
      ∃ t, exec (.recEventReceive n) s = .next t ∧ t.emitted = rest ∧ t.recb.queue = s.recb.queue ∧
        (t.bucket i).supp = (s.bucket i).supp + 1 ∧ t.regs = s.regs ∧ CoresAndMemoryKept s t) ∧
    (∀ i, s.limiter e.code = some i → (s.bucket i).taken < s.burst i → s.recb.queue.length < 255 →
      ∃ t more, exec (.recEventReceive n) s = .next t ∧ (t.bucket i).supp = 0 ∧ (t.bucket i).taken = (s.bucket i).taken + 1 ∧
        t.recb.queue = s.recb.queue ++ [({ s.advance n with emitted := rest }).mkRecord e.code e.vals (s.bucket i).supp 0 false
          ((s.get REC_ENUM_NUM + 1) % 2 ^ 32)] ++ more ∧ t.bit REC_STAT_NEW = true ∧ CoresAndMemoryKept s t)) ∧
  (∀ (n : Nat) (s : State), s.emitted = [] → ∃ t, exec (.recEventReceive n) s = .next t ∧ t = s.advance n) ∧
  (∀ (n : Nat) (e : Fin 256) (s : State), (s.bucket e.val).taken ≠ 0 →
    (s.bucket e.val).since + s.period e.val * 1000000 ≤ (s.advance n).mono →
    ∃ t, exec (.rateLimitRefill n e) s = .next t ∧ (t.bucket e.val).taken = (s.bucket e.val).taken - 1 ∧ t.regs = s.regs ∧
      CoresAndMemoryKept s t) ∧
  (∀ (n : Nat) (k : Fin 5) (s : State), ∃ t, exec (.eventProgramDone n k false) s = .next t ∧
    t.recb.queue = s.recb.queue.drop k.val ∧ t.get REC_STAT_QDEPTH = min (s.recb.queue.length - k.val) 256 ∧
    CoresAndMemoryKept s t ∧ OnlyRegistersOf [0x40E] s t) ∧
  (∀ (n : Nat) (k : Fin 5) (s : State), ∃ t, exec (.eventProgramDone n k true) s = .next t ∧ t.recb.queue = s.recb.queue ∧
    CoresAndMemoryKept s t ∧ OnlyRegistersOf [0x40E] s t) ∧
  (∀ (n : Nat) (s : State), s.recb.savedAt + 60000000000 ≤ (s.advance n).mono → s.recb.opsFrom ≠ none →
    s.wordReachable opsecAt = true → s.wordReachable powerCyclesAt = true →
    ∃ t, exec (.opsecSave n) s = .next t ∧ t.stored opsecAt = encodeWord (BitVec.ofNat 32 (s.advance n).opsec) ∧
      t.stored powerCyclesAt = encodeWord (s.rd REC_PWRCYC) ∧ t.recb.savedAt = (s.advance n).mono ∧ t.regs = s.regs ∧
      OnlyWordsOf [opsecAt, powerCyclesAt] s t) ∧
  (∀ (cseq : Nat) (s : State), s.Accepts REC_SEQ_LASTCMD cseq →
    (∀ r, s.findRecord (s.get REC_NUM_NUM) = some r → ∃ t, exec (.readRecord cseq) s = .next t ∧
      t.Answered REC_SEQ_LASTCMD REC_RES_RESULT cseq (if r.bad then 3 else 0) ∧
      (∀ i, i < 16 → t.rd (REC_EDATAi i) = (r.words[i]?).getD 0) ∧ t.bit REC_STAT_DONE = true ∧ t.recb = s.recb ∧
      CoresAndMemoryKept s t) ∧
    (s.findRecord (s.get REC_NUM_NUM) = none → ∃ t, exec (.readRecord cseq) s = .next t ∧
      t.Answered REC_SEQ_LASTCMD REC_RES_RESULT cseq 2 ∧ (∀ i, i < 16 → t.rd (REC_EDATAi i) = 0) ∧ CoresAndMemoryKept s t))

/-- FROST freezes, THAW thaws, TRIGGER opens a capture, a capture is stored, EXPORT runs to its completion. (09 R331,
09 R333, 09 R334, 09 R337, 09 R340, 09 R342) Accepted by REC's mailbox: FROST while not frozen freezes with its source
(1 executive, 2 tool), result 0; THAW of a frozen recorder by the tool, or of a freeze by the executive, thaws, result
0; TRIGGER with the core trigger enabled, triggers accepted and no capture held opens a capture with the next number,
result 0; EXPORT with none in progress, of a stored record into a buffer of initialised DRAM that holds it, starts the
export. A completed export of a stored record, DRAM initialised and no clear under way, ends it, result 0, DONE: the
buffer begins with the length of the configuration file (no flip armed) and no word outside the export changes. The
copy of the oldest closed capture, the recorder not frozen, stores it and drops it from the captures, whatever blocks
failed under it; only words of the ring may change by it (corrections). No core changes. -/
def Obligations.RecorderFreezesTriggersAndExports : Prop :=
  (∀ (n cseq : Nat) (tool : Bool) (s : State), s.Accepts REC_SEQ_LASTCMD cseq →
    (s.frozen = false → ∃ t, exec (.frost n cseq tool) s = .next t ∧ t.Answered REC_SEQ_LASTCMD REC_RES_RESULT cseq 0 ∧
      t.frozen = true ∧ t.get REC_STAT_FSRC = (if tool then 2 else 1) ∧ t.recb.savedFrost = (if tool then 2 else 1) ∧
      CoresAndMemoryKept s t ∧ OnlyRegistersOf [0x40E] s t) ∧
    (s.frozen = true → tool = true ∨ s.get REC_STAT_FSRC = 1 → ∃ t, exec (.thaw n cseq tool) s = .next t ∧
      t.Answered REC_SEQ_LASTCMD REC_RES_RESULT cseq 0 ∧ t.frozen = false ∧ t.get REC_STAT_FSRC = 0 ∧ t.recb.savedFrost = 0 ∧
      CoresAndMemoryKept s t ∧ OnlyRegistersOf [0x40E] s t) ∧
    (s.bit REC_TRIGEN_CORE = true → s.recb.triggers = true → s.recb.captures = [] →
      ∃ t c, exec (.trigger n cseq) s = .next t ∧ t.Answered REC_SEQ_LASTCMD REC_RES_RESULT cseq 0 ∧ t.recb.captures = [c] ∧
        c.number = s.get REC_DNUM_NUM + 1 ∧ c.trigger = (s.advance n).mono / 31250 ∧ c.closed = false ∧
        t.get REC_DNUM_NUM = (s.get REC_DNUM_NUM + 1) % 2 ^ 32 ∧ t.bit REC_STAT_OPEN = true ∧
        CoresAndMemoryKept s t ∧ OnlyRegistersOf [0x40E] s t)) ∧
  (∀ (n cseq : Nat) (d : DisturbanceRecord) (s : State), s.Accepts REC_SEQ_LASTCMD cseq →
    let v := (s.advance n).set REC_SEQ_LASTCMD cseq
    s.recb.export_ = none → s.disturbance (s.get REC_NUM_NUM) = some d → s.bit MEM_STAT_DINIT = true →
    bufferOk ((s.rd REC_XADDR).toNat / 4 * 4) (s.rd REC_XLEN).toNat = true →
    exportBytes (v.comtradeConfig d).length (4 * d.dataFile.length) ≤ (s.rd REC_XLEN).toNat →
    ∃ t, exec (.exportRecord n cseq) s = .next t ∧ t.get REC_SEQ_LASTCMD = cseq % 0x10000 ∧
      t.recb.export_ = some (s.get REC_NUM_NUM, (s.rd REC_XADDR).toNat / 4 * 4, (s.rd REC_XLEN).toNat) ∧
      CoresAndMemoryKept s t ∧ OnlyRegistersOf [0x40E] s t) ∧
  (∀ (n k addr len : Nat) (d : DisturbanceRecord) (s : State), s.recb.export_ = some (k, addr, len) → s.disturbance k = some d →
    s.bit MEM_STAT_DINIT = true → s.memb.clear = none →
    ∃ t, exec (.exportComplete n) s = .next t ∧ t.recb.export_ = none ∧ t.get REC_RES_RESULT = 0 ∧ t.bit REC_STAT_DONE = true ∧
      (s.memb.flip = none → t.stored (dramBase + addr) = encodeWord (BitVec.ofNat 32 (s.comtradeConfig d).length)) ∧
      (∀ a, a < dramBase + addr ∨ dramBase + addr + exportBytes (s.comtradeConfig d).length (4 * d.dataFile.length) ≤ a →
        t.stored a = s.stored a) ∧ CoresKept s t ∧ OnlyRegistersOf [0x402, 0x40E] s t) ∧
  (∀ (n : Nat) (bad : List (Fin 3072)) (c : Capture) (s : State), s.frozen = false → s.recb.captures.find? (·.closed) = some c →
    ∃ t, exec (.captureStored n bad) s = .next t ∧ (∃ d ∈ t.recb.stored, d.capture = c) ∧
      (∀ x ∈ t.recb.captures, x.number ≠ c.number) ∧ CoresKept s t ∧ (∀ k, k < ringBase → t.stored k = s.stored k) ∧
      OnlyRegistersOf [0x402, 0x40E] s t)

/-- Inputs flip and count, breaks are shown; outputs fault, are tested and cleared; a supply is lost and cleared. (10
R347, 10 R349, 10 R350, 10 R353, 10 R356, 10 R357, 10 R358, 10 R359, 10 R360) Voltages at each of which the comparator
of an input that is no counter shows the other state, for its filter time, flip its filtered state and no other
input's; a counted edge by the comparator, 2 us after the last, also advances the count by 1, modulo 2^32. A held
current below 150 uA of an off, supervised input shows a wire break, from 300 uA on ends it. A conducting output in
overload latches OVL and conducts no longer; a due test pulse opens its output, its check 200 us later ends the pulse,
latches TPF if the readback stays on, and WIRED of both outputs if another's readback changed and no supply is lost;
the current of a conducting output is shown, and for one of 5 to 16 with OLEN a load below 2 mA shows OPEN, from 5 mA
not. The 41st low sample loses a supply. CLROUT of an output off clears its faults, CLRFS of a recovered supply ends
its loss, result 0. No core changes, and no memory word but the images that a counted edge within 5 us after a tick
edge still belongs to. -/
def Obligations.FieldInputsAndOutputsFollow : Prop :=
  (∀ (n : Nat) (i : Fin 24) (s : State),
    (∀ (mv : List Nat) (sampled : Bool), s.isCounter (i.val + 1) = false → mv ≠ [] →
      s.input (i.val + 1) ∉ s.comparators (i.val + 1) (s.compared (i.val + 1)) mv →
      (s.advance n).steadyFor (i.val + 1) (s.filterNs (i.val + 1)) = true →
      ∃ t, exec (.filteredStateChange n ⟨i, mv, sampled⟩) s = .next t ∧
      t.input (i.val + 1) = !s.input (i.val + 1) ∧ (∀ k, k < 24 → k ≠ i.val → t.input (k + 1) = s.input (k + 1)) ∧
      CoresAndMemoryKept s t) ∧
    (∀ ua, s.bit (FIO_INnCFG_WBEN (i.val + 1)) = true → s.input (i.val + 1) = false →
      (ua < 150 → bitOf (s.get FIO_WB_INPUT) i.val = false → ∃ t, exec (.wireBreakChange n i ua) s = .next t ∧
        bitOf (t.get FIO_WB_INPUT) i.val = true ∧ CoresAndMemoryKept s t ∧ OnlyRegistersOf [0x408, 0x409] s t) ∧
      (300 ≤ ua → bitOf (s.get FIO_WB_INPUT) i.val = true → ∃ t, exec (.wireBreakChange n i ua) s = .next t ∧
        bitOf (t.get FIO_WB_INPUT) i.val = false ∧ CoresAndMemoryKept s t ∧ OnlyRegistersOf [0x408, 0x409] s t))) ∧
  (∀ (n mv : Nat) (c : Fin 4) (s : State), s.isCounter (c.val + 9) = true → s.fio.counting = true →
    s.comparator (c.val + 9) (s.compared (c.val + 9)) mv ≠ s.input (c.val + 9) →
    (s.advance n).steadyFor (c.val + 9) 2000 = true →
    (s.get (FIO_INnCFG_CNT (c.val + 9)) = 3 ∨ (s.get (FIO_INnCFG_CNT (c.val + 9)) = 1 ∧ s.input (c.val + 9) = false) ∨
      (s.get (FIO_INnCFG_CNT (c.val + 9)) = 2 ∧ s.input (c.val + 9) = true)) →
    ∃ t, exec (.counterEdge n ⟨c, mv⟩) s = .next t ∧ t.get (FIO_CNTc_COUNT c.val) = (s.get (FIO_CNTc_COUNT c.val) + 1) % 2 ^ 32 ∧
      t.input (c.val + 9) = !s.input (c.val + 9) ∧ t.cx = s.cx ∧ t.sc0 = s.sc0 ∧ t.sc1 = s.sc1 ∧
      ((s.advance n).edge + 5000 ≤ (s.advance n).mono → CoresAndMemoryKept s t)) ∧
  (∀ (n ma : Nat) (o : Fin 16) (s : State), s.conducts (o.val + 1) = true →
    (∃ t, exec (.outputOverload n o ma) s = .next t ∧ t.bit (FIO_OnSTAT_OVL (o.val + 1)) = true ∧
      t.conducts (o.val + 1) = false ∧ CoresAndMemoryKept s t) ∧
    (4 ≤ o.val → s.bit (FIO_OnCFG_TP (o.val + 1)) = true → s.fio.test = none → s.girth.test = none →
      s.girth.testEnd + 10000000 ≤ (s.advance n).gx → s.fio.testEnd + 10000000 ≤ (s.advance n).mono →
      CMap.lookup (fun _ => 0) s.fio.testBase (o.val + 1) + s.get (FIO_OnCFG_TPPER (o.val + 1)) * 1000000000 ≤ (s.advance n).mono →
      ∃ t, exec (.testPulseStart n o) s = .next t ∧ t.fio.test = some ⟨o.val + 1, (s.advance n).mono⟩ ∧
        t.conducts (o.val + 1) = false ∧ CoresAndMemoryKept s t ∧ OnlyRegistersOf [0x408] s t) ∧
    (∃ t, exec (.openLoad n o ma) s = .next t ∧
      (4 ≤ o.val → s.bit (FIO_OnCFG_OLEN (o.val + 1)) = true → (ma < 2 → t.bit (FIO_OnSTAT_OPEN (o.val + 1)) = true) ∧
        (5 ≤ ma → t.bit (FIO_OnSTAT_OPEN (o.val + 1)) = false)) ∧
      t.get (FIO_OnSTAT_MA (o.val + 1)) = ma % 65536 ∧ CoresAndMemoryKept s t ∧ OnlyRegistersOf [0x408, 0x409] s t)) ∧
  (∀ (n : Nat) (off : Bool) (x : TestPulse) (s : State), s.fio.test = some x → 5 ≤ x.out → x.out ≤ 16 →
    x.at_ + 200000 ≤ (s.advance n).mono →
    ∃ t, exec (.testPulseCheck n off 0) s = .next t ∧ t.fio.test = none ∧ t.fio.testEnd = (s.advance n).mono ∧
      t.bit (FIO_OnSTAT_TPF x.out) = (s.bit (FIO_OnSTAT_TPF x.out) || !off) ∧ CoresAndMemoryKept s t) ∧
  (∀ (n : Nat) (off : Bool) (changed : BitVec 16) (x : TestPulse) (j : Fin 16) (s : State), s.fio.test = some x → 5 ≤ x.out →
    x.out ≤ 16 → x.at_ + 200000 ≤ (s.advance n).mono → j.val + 1 ≠ x.out → changed.getLsbD j.val = true →
    s.get FIO_STAT_FS1 ≠ 2 → s.get FIO_STAT_FS2 ≠ 2 →
    ∃ t, exec (.testPulseCheck n off changed) s = .next t ∧ t.fio.test = none ∧ t.bit (FIO_OnSTAT_WIRED x.out) = true ∧
      t.bit (FIO_OnSTAT_WIRED (j.val + 1)) = true ∧ CoresAndMemoryKept s t) ∧
  (∀ (n mv : Nat) (second : Bool) (s : State), ∃ t, exec (.fieldSupplyStateChange n second mv) s = .next t ∧
    t.get (supplyMv (if second then 2 else 1)) = min mv 65535 ∧ CoresAndMemoryKept s t ∧
    (mv < 15000 → 40 ≤ (s.supply (if second then 2 else 1)).low → s.get (supplyField (if second then 2 else 1)) ≤ 1 →
      t.get (supplyField (if second then 2 else 1)) = 2)) ∧
  (∀ (n cseq : Nat) (i : Fin 32) (s : State), s.Accepts FIO_SEQ_LASTCMD cseq →
    (1 ≤ i.val → i.val ≤ 16 → s.requested i.val = false → ∃ t, exec (.fioClrout n cseq i false) s = .next t ∧
      t.Answered FIO_SEQ_LASTCMD FIO_RES_RESULT cseq 0 ∧ t.bit (FIO_OnSTAT_OVL i.val) = false ∧
      (5 ≤ i.val → t.outputLatched i.val = false) ∧ CoresAndMemoryKept s t) ∧
    (i.val = 1 ∨ i.val = 2 → s.get (supplyField i.val) = 3 → ∃ t, exec (.clrfs n cseq i) s = .next t ∧
      t.Answered FIO_SEQ_LASTCMD FIO_RES_RESULT cseq 0 ∧ t.get (supplyField i.val) ≤ 1 ∧ (t.supply i.val).hold = true ∧
      CoresAndMemoryKept s t))

/-- A loop sample shows value and band; flags, overload, timeout and jumper act; HART commands run; keys and CLRTRIM
set trims. (10 R363, 10 R364, 10 R365, 10 R366, 10 R367, 10 R368, 10 R370, 10 R371, 10 R372, 10 R373) A sample shows
the corrected current and its NE 43 band, BAND 0 for an unused channel. With their conditions met OPEN and COMPL are
set and cleared (OPEN by the current before the user trim, log entry 64), an overload sets OVLD and cuts the channel
off, a retry at 25 mA or less clears both, a release timeout drives the alarm current and sets ALARM, a moved jumper
sets JMPCHG. An accepted GO on a HART channel with a length from 1 to 272 and none pending makes the frame pending,
and a free modem takes it and holds its characters (their form: log entry 64); its end shows the result and, for 0,
the response length; a burst frame is counted. In SERVICE a short press of SEL selects the next channel, ZERO held for
2 s sets OFFS and SPAN held for 2 s sets GAIN; a key pressed or released is shown; CLRTRIM clears the trim, result 0;
a trim set or cleared is also written to its word of the module's MRAM, no clear under way there (its place: log entry
79). No core, no other memory word and no register outside FIO and ALP changes. -/
def Obligations.LoopChannelsKeysAndHart : Prop :=
  (∀ (n : Nat) (c : Fin 8) (s : State),
    (∀ ua mv, (s.get (ALP_CHnCFG_MODE c.val) ≠ 0 → ∃ t, exec (.loopBandChange n c ua mv) s = .next t ∧
        t.get (ALP_CHnVAL_UA c.val) = patternOf 32 (s.loopCorrected c.val ua) ∧
        t.get (ALP_CHnSTAT_BAND c.val) = band (s.loopCorrected c.val ua) ∧ (t.loop c.val).raw = ua ∧
        CoresAndMemoryKept s t ∧ OnlyRegistersOf [0x408, 0x409] s t) ∧
      (s.get (ALP_CHnCFG_MODE c.val) = 0 → ∃ t, exec (.loopBandChange n c ua mv) s = .next t ∧
        t.get (ALP_CHnSTAT_BAND c.val) = 0 ∧ CoresAndMemoryKept s t ∧ OnlyRegistersOf [0x409] s t)) ∧
    (s.get (ALP_CHnCFG_MODE c.val) = 1 → ∃ t, exec (.loopFlagChange n c false) s = .next t ∧
      t.bit (ALP_CHnSTAT_OPEN c.val) = decide ((s.loop c.val).raw < 500) ∧
      (t.bit (ALP_CHnSTAT_OPEN c.val) ≠ s.bit (ALP_CHnSTAT_OPEN c.val) → (s.loop c.val).raw < 500 →
        bitOf (t.get ALP_STAT_FLT) c.val = true) ∧ CoresAndMemoryKept s t ∧ OnlyRegistersOf [0x408, 0x409] s t) ∧
    (s.get (ALP_CHnCFG_MODE c.val) = 2 → ∃ t, exec (.loopFlagChange n c false) s = .next t ∧
      t.bit (ALP_CHnSTAT_OPEN c.val) = decide ((s.loop c.val).raw < 1000 ∧ 3500 ≤ s.loopCurrent c.val) ∧
      CoresAndMemoryKept s t ∧ OnlyRegistersOf [0x408, 0x409] s t) ∧
    (s.get (ALP_CHnCFG_MODE c.val) ≠ 0 → 2500 ≤ s.get (ALP_CHnHEAD_MV c.val) → ∃ t, exec (.loopFlagChange n c true) s = .next t ∧
      t.bit (ALP_CHnSTAT_COMPL c.val) = false ∧ CoresAndMemoryKept s t ∧ OnlyRegistersOf [0x408, 0x409] s t) ∧
    (s.get (ALP_CHnCFG_MODE c.val) = 2 → s.get (ALP_CHnHEAD_MV c.val) < 2500 → s.bit (ALP_CHnSTAT_OPEN c.val) = false →
      ∃ t, exec (.loopFlagChange n c true) s = .next t ∧ t.bit (ALP_CHnSTAT_COMPL c.val) = true ∧ CoresAndMemoryKept s t ∧
        OnlyRegistersOf [0x408, 0x409] s t) ∧
    (∀ ua, s.get (ALP_CHnCFG_MODE c.val) ≠ 0 → 30000 < ua → ∃ t, exec (.loopOverload n c ua) s = .next t ∧
      t.bit (ALP_CHnSTAT_OVLD c.val) = true ∧ (s.bit (ALP_CHnSTAT_OVLD c.val) = false → t.loopCurrent c.val = 0) ∧
      CoresAndMemoryKept s t ∧ OnlyRegistersOf [0x408, 0x409] s t) ∧
    (∀ ua, s.bit (ALP_CHnSTAT_OVLD c.val) = true → (s.loop c.val).triedAt + 1000000000 ≤ (s.advance n).mono →
      ∃ t, exec (.loopOverloadRetry n c ua) s = .next t ∧ t.bit (ALP_CHnSTAT_OVLD c.val) = decide (25000 < ua) ∧
        (t.loop c.val).triedAt = (s.advance n).mono ∧ (t.loop c.val).cut = decide (25000 < ua) ∧ CoresAndMemoryKept s t ∧ OnlyRegistersOf [0x408, 0x409] s t) ∧
    (s.get (ALP_CHnCFG_MODE c.val) = 2 → s.alp.driving = true → s.get (ALP_CHnCFG_TMO c.val) ≠ 0 →
      (s.loop c.val).releasedAt + s.get (ALP_CHnCFG_TMO c.val) * 1000000 ≤ (s.advance n).mono →
      ∃ t, exec (.loopReleaseTimeout n c) s = .next t ∧ t.bit (ALP_CHnSTAT_ALARM c.val) = true ∧
        (t.loop c.val).driven = s.alarmCurrent c.val ∧ CoresAndMemoryKept s t ∧ OnlyRegistersOf [0x409] s t) ∧
    (∀ pos, ∃ t, exec (.jumperChange n c pos) s = .next t ∧ t.bit ALP_STAT_JMPCHG = true ∧
      CMap.lookup (fun _ => 0) t.alp.jumpers c.val = pos.val ∧ CoresAndMemoryKept s t ∧ OnlyRegistersOf [0x408, 0x409] s t) ∧
    (∀ cseq len, s.Accepts (ALP_HnSEQ_LASTCMD c.val) cseq →
      (s.bit (ALP_CHnCFG_HART c.val) || s.bit (ALP_CHnCFG_HEXCL c.val)) = true → (s.loop c.val).hart = none → 1 ≤ len → len ≤ 272 →
      ∃ t, exec (.hartGo n cseq c len) s = .next t ∧ t.get (ALP_HnSEQ_LASTCMD c.val) = cseq % 0x10000 ∧
        (t.loop c.val).hart = some len ∧ (t.hartModem (c.val / 4)).isSome = true ∧
        (s.hartModem (c.val / 4) = none → t.hartModem (c.val / 4) = some c.val ∧
          (if c.val < 4 then t.alp.frame0 else t.alp.frame1) = s.hartFrame c.val len) ∧ CoresAndMemoryKept s t ∧
        OnlyRegistersOf [0x409] s t) ∧
    (∃ t, exec (.hartBurstFrame c) s = .next t ∧ t.get (ALP_HnRES_BURSTS c.val) = min (s.get (ALP_HnRES_BURSTS c.val) + 1) 255 ∧
      t = { s with regs := t.regs }) ∧
    (∀ cseq, s.Accepts ALP_SEQ_LASTCMD cseq → s.wordReachable (loopTrimAt c.val) = true → ∃ t, exec (.clrtrim n cseq c) s = .next t ∧
      t.Answered ALP_SEQ_LASTCMD ALP_RES_RESULT cseq 0 ∧ t.rd (ALP_CHnTRIM c.val) = 0 ∧ t.stored (loopTrimAt c.val) = encodeWord 0 ∧
      t.bit (ALP_CHnSTAT_TRIM c.val) = false ∧ OnlyWordsOf [loopTrimAt c.val] s t ∧ OnlyRegistersOf [0x409] s t)) ∧
  (∀ (n c : Nat) (second : Bool) (result : Fin 4) (response : List Byte) (s : State), s.hartModem second.toNat = some c → c < 8 →
    response.length ≤ 272 →
    ∃ t, exec (.hartTransactionEnd n second result response) s = .next t ∧ (t.loop c).hart = none ∧
      t.get (ALP_HnRES_RESULT c) = result.val ∧ t.get (ALP_HnRES_RLEN c) = (if result.val = 0 then response.length else 0) ∧
      CoresAndMemoryKept s t ∧ OnlyRegistersOf [0x408, 0x409] s t) ∧
  (∀ (n : Nat) (s : State),
    (s.bit ALP_KEYS_SEL = false → ∃ t, exec (.keySel n true) s = .next t ∧ t.bit ALP_KEYS_SEL = true ∧
      t.alp.selAt = (s.advance n).mono ∧ CoresAndMemoryKept s t ∧ OnlyRegistersOf [0x409] s t) ∧
    (s.bit ALP_KEYS_SEL = true → (s.advance n).mono < s.alp.selAt + 1000000000 → s.mode = .service →
      ∃ t, exec (.keySel n false) s = .next t ∧ t.bit ALP_KEYS_SEL = false ∧
        t.get ALP_KEYS_CALCH = s.nextCal (s.get ALP_KEYS_CALCH) ∧ CoresAndMemoryKept s t ∧ OnlyRegistersOf [0x409] s t) ∧
    (s.wordReachable (loopTrimAt (s.get ALP_KEYS_CALCH)) = true → s.bit ALP_KEYS_ZERO = true → s.alp.zeroAt + 2000000000 ≤ (s.advance n).mono → s.mode = .service → s.get ALP_KEYS_CALCH < 8 →
      3800 ≤ (s.loop (s.get ALP_KEYS_CALCH)).raw → (s.loop (s.get ALP_KEYS_CALCH)).raw ≤ 4400 →
      ∃ t, exec (.keyZero n .held) s = .next t ∧
        t.get (ALP_CHnTRIM_OFFS (s.get ALP_KEYS_CALCH)) = patternOf 16 (4000 - (s.loop (s.get ALP_KEYS_CALCH)).raw) ∧
        t.stored (loopTrimAt (s.get ALP_KEYS_CALCH)) = encodeWord (t.rd (ALP_CHnTRIM (s.get ALP_KEYS_CALCH))) ∧
        OnlyWordsOf [loopTrimAt (s.get ALP_KEYS_CALCH)] s t ∧ OnlyRegistersOf [0x408, 0x409] s t) ∧
    (let c := s.get ALP_KEYS_CALCH
     let base := (s.loop c).raw + s.sget (ALP_CHnTRIM_OFFS c) - 4000
     let gain := roundRatio ((16000 - base) * 1000000 * base.sign) base.natAbs
     s.wordReachable (loopTrimAt c) = true → s.bit ALP_KEYS_SPAN = true → s.alp.spanAt + 2000000000 ≤ (s.advance n).mono → s.mode = .service → c < 8 → base ≠ 0 →
      19000 ≤ s.loopCorrected c (s.loop c).raw → s.loopCorrected c (s.loop c).raw ≤ 21000 → -30000 ≤ gain → gain ≤ 30000 →
      ∃ t, exec (.keySpan n .held) s = .next t ∧ t.get (ALP_CHnTRIM_GAIN c) = patternOf 16 gain ∧
        t.stored (loopTrimAt c) = encodeWord (t.rd (ALP_CHnTRIM c)) ∧ OnlyWordsOf [loopTrimAt c] s t ∧ OnlyRegistersOf [0x408, 0x409] s t) ∧
    (∀ k, k ≠ KeyHold.held → (∃ t, exec (.keyZero n k) s = .next t ∧ t.bit ALP_KEYS_ZERO = (k == .press) ∧
      CoresAndMemoryKept s t ∧ OnlyRegistersOf [0x409] s t)) ∧
    (∃ t, exec (.keySpan n .release) s = .next t ∧ t.bit ALP_KEYS_SPAN = false ∧ CoresAndMemoryKept s t ∧
      OnlyRegistersOf [0x409] s t) ∧
    (∃ t, exec (.keySpan n .press) s = .next t ∧ t.bit ALP_KEYS_SPAN = true ∧ CoresAndMemoryKept s t ∧
      OnlyRegistersOf [0x409] s t))

/-- A newer dataset becomes its station's block; a safe telegram opens its window; errors count, faults latch, silence
loses the flow. (11 R383, 11 R384, 11 R385, 11 R400, 11 R401, 11 R402, 11 R403, 11 R404) At a port that is on: a
process-data message whose header passes and matches a flow, newer than the last or its first (by its own counter, or
by the pair sequence at its end in a flow with one), with the flow's length, becomes the last block of the flow's
station, aged from its arrival before the PHY's latency, and the station is not lost; a repeat changes nothing but
time; a header that fails is counted. A telegram that passes its checks with a sequence in the window opens its
window; one with a wrong check is counted; one the check units disagree on faults the flow with cause 4. A due window
ends as a single copy; of an accepted configuration a silent flow and its station are lost, and a safe one is faulted
with cause 5, also one that was lost already; a telegram withheld, or still waiting at its port, past its deadline is
counted as missed, once. No core and no memory word changes. -/
def Obligations.ProcessDataAndSafeTelegramsArrive : Prop :=
  (∀ (n f : Nat) (port : Fin 3) (h : PdHeader) (data : List Byte) (s : State), s.get (NET_PnCFG_SPEED port.val) ≠ 0 →
    s.headerRefused h data = false → s.receiveFlow false port.val h.src h.comId = some f → data.length = s.flowLen f →
    (s.bit (NET_FD0_PAIRSEQ.at f) = true →
      (s.flow f).first = true ∨ after32 (word32At data (data.length - 4)) (s.flow f).pairSeq = true →
      ∃ t, exec (.pdReceive n port h data) s = .next t ∧ (t.flow f).pairSeq = word32At data (data.length - 4) ∧
        (t.station 5 f).cur = some ⟨packBytes data, (s.advance n).mono, (s.advance n).arrival port.val, false⟩ ∧
        t.bit (stLost 5 f) = false ∧ CoresAndMemoryKept s t ∧ OnlyRegistersOf [0x403, 0x40A, 0x40C] s t) ∧
    (s.bit (NET_FD0_PAIRSEQ.at f) = false → (s.flow f).first = true ∨ (s.flowPort f 0 && s.flowPort f 1) = false ∨
        after32 h.counter (s.get (NET_FLAST_SEQ.at f)) = true →
      ∃ t, exec (.pdReceive n port h data) s = .next t ∧
        (t.station 5 f).cur = some ⟨packBytes data, (s.advance n).mono, (s.advance n).arrival port.val, false⟩ ∧
        t.bit (stLost 5 f) = false ∧ t.get (NET_FLAST_SEQ.at f) = h.counter % 2 ^ 32 ∧ CoresAndMemoryKept s t ∧
        OnlyRegistersOf [0x403, 0x40A, 0x40C] s t) ∧
    (s.bit (NET_FD0_PAIRSEQ.at f) = false → (s.flow f).first = false → (s.flowPort f 0 && s.flowPort f 1) = true → h.counter = s.get (NET_FLAST_SEQ.at f) →
      ∃ t, exec (.pdReceive n port h data) s = .next t ∧ t = s.advance n)) ∧
  (∀ (n : Nat) (port : Fin 3) (h : PdHeader) (data : List Byte) (s : State), s.get (NET_PnCFG_SPEED port.val) ≠ 0 →
    s.headerRefused h data = true → ∃ t, exec (.pdReceive n port h data) s = .next t ∧
      t.get (NET_PnSTAT_BADHDR port.val) = min (s.get (NET_PnSTAT_BADHDR port.val) + 1) 65535 ∧ CoresAndMemoryKept s t ∧
      OnlyRegistersOf [0x40A] s t) ∧
  (∀ (n f : Nat) (port : Fin 2) (h : PdHeader) (data : List Byte) (s : State), s.get (NET_PnCFG_SPEED port.val) ≠ 0 →
    s.headerRefused h data = false → s.receiveFlow true port.val h.src h.comId = some f →
    (s.telegramOk f data = true → (s.flow f).window = none →
      let sseq := word32At data (s.safeLen f)
      let diff := (sseq + 2 ^ 32 - s.get (NET_FLAST_SEQ.at f)) % 2 ^ 32
      diff ≠ 0 → (s.flow f).first = true ∨ s.bit (NET_FSTAT_LOST.at f) = true ∨ diff ≤ s.get (NET_FD8_SEQWIN.at f) →
      ∃ t, exec (.safeCopyReceive n port h data true) s = .next t ∧
        (t.flow f).window = some ⟨sseq, port.val, (s.advance n).mono, data.take (s.safeLen f + 8)⟩ ∧
        t.get (NET_FLAST_SEQ.at f) = sseq % 2 ^ 32 ∧ CoresAndMemoryKept s t ∧ OnlyRegistersOf [0x40A] s t) ∧
    (s.telegramOk f data = false → ∃ t, exec (.safeCopyReceive n port h data true) s = .next t ∧
      t.get (NET_FCNT_CRCERR.at f) = min (s.get (NET_FCNT_CRCERR.at f) + 1) 255 ∧ CoresAndMemoryKept s t ∧
      OnlyRegistersOf [0x40A] s t) ∧
    (∃ t, exec (.safeCopyReceive n port h data false) s = .next t ∧ t.bit (NET_FSTAT_FAULT.at f) = true ∧
      t.get (NET_FSTAT_CAUSE.at f) = 4 ∧ CoresAndMemoryKept s t ∧ OnlyRegistersOf [0x40A] s t)) ∧
  (∀ (n : Nat) (f : Fin 256) (s : State),
    (∀ x, (s.flow f.val).window = some x → x.at_ + s.get (NET_FD8_SKEW.at f.val) * 10000 ≤ (s.advance n).mono →
      ∃ t, exec (.skewWindowEnd n f) s = .next t ∧ (t.flow f.val).window = none ∧
        t.get (NET_FCNT_SINGLE.at f.val) = min (s.get (NET_FCNT_SINGLE.at f.val) + 1) 255 ∧
        (s.bit (NET_FD0_DUAL.at f.val) = false → (t.flow f.val).delivered = some x) ∧ CoresAndMemoryKept s t) ∧
    (s.configured = true → s.flowOn f.val = true → s.flowTransmits f.val = false →
      s.bit (NET_FSTAT_LOST.at f.val) = false ∨ s.bit (stLost 5 f.val) = false →
      (s.flow f.val).lastAt + s.get (NET_FD5_TIME.at f.val) * 1000000 ≤ (s.advance n).mono →
      ∃ t, exec (.flowTimeout n f) s = .next t ∧ t.bit (NET_FSTAT_LOST.at f.val) = true ∧ t.bit (stLost 5 f.val) = true ∧
        (s.flowSafe f.val = true → t.bit (NET_FSTAT_FAULT.at f.val) = true ∧ t.get (NET_FSTAT_CAUSE.at f.val) = 5) ∧
        CoresAndMemoryKept s t) ∧
    (s.configured = true → s.flowOn f.val = true → s.flowTransmits f.val = false → s.bit (NET_FSTAT_LOST.at f.val) = true →
      s.bit (stLost 5 f.val) = true → s.flowSafe f.val = true →
      s.bit (NET_FSTAT_FAULT.at f.val) = false →
      (s.flow f.val).lastAt + s.get (NET_FD5_TIME.at f.val) * 1000000 ≤ (s.advance n).mono →
      ∃ t, exec (.flowTimeout n f) s = .next t ∧ t.bit (NET_FSTAT_FAULT.at f.val) = true ∧
        t.get (NET_FSTAT_CAUSE.at f.val) = 5 ∧ CoresAndMemoryKept s t ∧ OnlyRegistersOf [0x40A] s t) ∧
    (∀ (port : Fin 2) (benef shortfall : Nat) (y : TxFrame), s.portQueue port.val = [y] → s.net.sending = [] → y.kind = .safe →
      y.claimant = 0x5000 + f.val → y.at_ ∉ (s.flow f.val).missed →
      y.at_ + s.get (NET_FD5_TIME.at f.val) * 1000 ≤ (s.advance n).mono →
      ∃ t, exec (.safeDeadlineMiss n f port benef shortfall) s = .next t ∧ y.at_ ∈ (t.flow f.val).missed ∧
        t.get (SYS_GBRKt_COUNT 4) = min (s.get (SYS_GBRKt_COUNT 4) + 1) (2 ^ (SYS_GBRKt_COUNT 4).w - 1) ∧ CoresAndMemoryKept s t) ∧
    (∀ (port : Fin 2) (benef shortfall e : Nat) (rest : List Nat), s.portQueue port.val = [] → s.net.sending = [] →
      (s.flow f.val).withheld = e :: rest → e ∉ (s.flow f.val).missed →
      e + s.get (NET_FD5_TIME.at f.val) * 1000 ≤ (s.advance n).mono →
      ∃ t, exec (.safeDeadlineMiss n f port benef shortfall) s = .next t ∧ e ∉ (t.flow f.val).withheld ∧
        (∀ k ∈ rest, k ≠ e → k ∈ (t.flow f.val).withheld) ∧
        t.get (SYS_GBRKt_COUNT 4) = min (s.get (SYS_GBRKt_COUNT 4) + 1) (2 ^ (SYS_GBRKt_COUNT 4).w - 1) ∧ CoresAndMemoryKept s t))

/-- Frames enter the ring and the queues; the first eligible goes first; links go up and down; ACKSAFE and CLRCNT act;
the 1 ms window ends. (11 R380, 11 R381, 11 R386, 11 R387, 11 R389, 11 R405, 11 R409, 01 R35) No frame waiting at a
port ranks before the first eligible one, and among equal ranks the earliest goes first; a queue that is not empty has
one. At a port that is on, a frame beyond the largest one changes nothing but time; of the others: a ring frame, the
ring enabled, with a free slot fills it (length, port and VLAN flag in its first word) and advances HEAD, with none it
counts as dropped; an ARP or echo request queues its answer last. A post sets HEAD and, with the ring enabled, TAIL
follows it. A port that is up, its last frame gone, begins to send the first eligible of its waiting frames where the
mode withholds none of them, stamped with MONO and SYNC and the PHY's latency; frames all withheld are dropped. A link
that goes up at a speed the port may take, or to another such speed, sets the port's LINK bit and speed, one that goes
down clears both. ACKSAFE by the executive of a flow waiting for it ends its fault, CLRCNT of an enabled flow clears
its counts, result 0. The end of a 1 ms window of MONO, once each, empties the sent and throttled lists and emits a
break for every declared share of tier 6 or of the pair link short to the benefit of a claimant that may have it,
0x2011 for every memory share and, in a pair, 0xB00F for every pair link share exceeded; at another time nothing but
time changes. No core and no memory word changes. -/
def Obligations.PortsRingsAndLinks : Prop :=
  (∀ (s : State) (p : Nat),
    (∀ i, s.firstEligible p = some i → ∃ x, (s.portQueue p)[i]? = some x ∧
      ∀ j y, (s.portQueue p)[j]? = some y → rankBefore (s.rank p y) (s.rank p x) = false ∧ (s.rank p y = s.rank p x → i ≤ j)) ∧
    (s.portQueue p ≠ [] → (s.firstEligible p).isSome = true)) ∧
  (∀ (n : Nat) (port : Fin 3) (tagged : Bool) (frame : List Byte) (s : State), s.get (NET_PnCFG_SPEED port.val) ≠ 0 →
    (frameFits tagged frame = false → (∀ kind, ∃ t, exec (.ringFrameReceive n port kind tagged frame) s = .next t ∧ t = s.advance n) ∧
      ∀ arp, ∃ t, exec (.arpIcmpReceive n port arp tagged frame) s = .next t ∧ t = s.advance n) ∧
    (∀ kind, frameFits tagged frame = true → kind ≠ .other → s.bit NET_RXCFG_EN = true →
      ((s.get NET_RXPTR_HEAD + 1) % (s.get NET_RXCFG_SLOTS + 1) ≠ s.get NET_RXPTR_TAIL % (s.get NET_RXCFG_SLOTS + 1) →
        ∃ t, exec (.ringFrameReceive n port kind tagged frame) s = .next t ∧
          t.get NET_RXPTR_HEAD = (s.get NET_RXPTR_HEAD + 1) % (s.get NET_RXCFG_SLOTS + 1) ∧
          t.bufferWord (slotOffset (s.get NET_RXCFG_BASE) (s.get NET_RXPTR_HEAD)) = BitVec.ofNat 32
            (frame.length + port.val * 2 ^ 16 + tagged.toNat * 2 ^ 24) ∧
          CoresAndMemoryKept s t ∧ OnlyRegistersOf [0x40A] s t) ∧
      ((s.get NET_RXPTR_HEAD + 1) % (s.get NET_RXCFG_SLOTS + 1) = s.get NET_RXPTR_TAIL % (s.get NET_RXCFG_SLOTS + 1) →
        ∃ t, exec (.ringFrameReceive n port kind tagged frame) s = .next t ∧
          t.get (NET_PnSTAT_DROP port.val) = min (s.get (NET_PnSTAT_DROP port.val) + 1) 65535 ∧ t.netbuf = s.netbuf ∧
          CoresAndMemoryKept s t)) ∧
    (∀ arp, frameFits tagged frame = true → ∃ t x, exec (.arpIcmpReceive n port arp tagged frame) s = .next t ∧
      t.portQueue port.val = s.portQueue port.val ++ [x] ∧ x.kind = (if arp then .arpReply else .echoReply) ∧
      x.data = frame ∧ CoresAndMemoryKept s t ∧ OnlyRegistersOf [0x40A] s t)) ∧
  (∀ (n : Nat) (head : Fin 1024) (s : State), ∃ t, exec (.txRingPost n head) s = .next t ∧ t.get NET_TXPTR_HEAD = head.val ∧
    (s.bit NET_TXCFG_EN = true → head.val ≤ s.get NET_TXCFG_SLOTS → s.get NET_TXPTR_TAIL ≤ s.get NET_TXCFG_SLOTS →
      t.get NET_TXPTR_TAIL = head.val) ∧ CoresAndMemoryKept s t ∧ OnlyRegistersOf [0x40A] s t) ∧
  (∀ (n : Nat) (port : Fin 3) (s : State), s.get NET_STAT_LINK / 2 ^ port.val % 2 = 1 → (s.advance n).frameGone port.val = true →
    (∀ i x, (∀ y ∈ s.portQueue port.val, s.mayLeave y.kind = true) → (s.advance n).firstEligible port.val = some i →
      (s.portQueue port.val)[i]? = some x → ∃ t, exec (.frameBoundary n port) s = .next t ∧
      t.portQueue port.val = (s.portQueue port.val).eraseIdx i ∧
      (t.net.sending.find? fun e => e.1 == port.val) = some (port.val, { x with
        sentAt := (s.advance n).mono
        stamp := ((s.advance n).mono + s.phyOut port.val, (s.advance n).syncTime + s.phyOut port.val) }) ∧
      CoresAndMemoryKept s t ∧ OnlyRegistersOf [0x40A] s t) ∧
    ((∀ y ∈ s.portQueue port.val, s.mayLeave y.kind = false) → ∃ t, exec (.frameBoundary n port) s = .next t ∧
      t.portQueue port.val = [] ∧ (t.net.sending.find? fun e => e.1 == port.val) = none ∧ CoresAndMemoryKept s t ∧
      OnlyRegistersOf [] s t)) ∧
  (∀ (n : Nat) (port : Fin 3) (s : State),
    (s.get NET_STAT_LINK / 2 ^ port.val % 2 = 1 → ∃ t, exec (.linkChange n port .down) s = .next t ∧
      t.get NET_STAT_LINK / 2 ^ port.val % 2 = 0 ∧ t.get NET_STAT_SPD / 4 ^ port.val % 4 = 0 ∧ CoresAndMemoryKept s t ∧
      OnlyRegistersOf [0x40A] s t) ∧
    (∀ sp v, sp = LinkSpeed.mbit100 ∧ v = 1 ∨ sp = LinkSpeed.mbit1000 ∧ v = 2 → v ≤ s.get (NET_PnCFG_SPEED port.val) →
      s.get NET_STAT_LINK / 2 ^ port.val % 2 = 0 ∨ s.get NET_STAT_SPD / 4 ^ port.val % 4 ≠ v →
      ∃ t, exec (.linkChange n port sp) s = .next t ∧ t.get NET_STAT_LINK / 2 ^ port.val % 2 = 1 ∧
        t.get NET_STAT_SPD / 4 ^ port.val % 4 = v ∧ CoresAndMemoryKept s t ∧ OnlyRegistersOf [0x40A] s t)) ∧
  (∀ (cseq : Nat) (f : Fin 256) (s : State), s.Accepts NET_SEQ_LASTCMD cseq → s.flowOn f.val = true →
    (s.flowTransmits f.val = false → s.flowSafe f.val = true → s.bit (NET_FSTAT_ACKWAIT.at f.val) = true →
      ∃ t, exec (.acksafe cseq f true) s = .next t ∧ t.Answered NET_SEQ_LASTCMD NET_RES_RESULT cseq 0 ∧
        t.bit (NET_FSTAT_FAULT.at f.val) = false ∧ t.bit (NET_FSTAT_ACKWAIT.at f.val) = false ∧ CoresAndMemoryKept s t ∧
        OnlyRegistersOf [0x40A] s t) ∧
    (∃ t, exec (.netClrcnt cseq f) s = .next t ∧ t.Answered NET_SEQ_LASTCMD NET_RES_RESULT cseq 0 ∧
      t.rd (bank NET_FCNT f.val) = 0 ∧ CoresAndMemoryKept s t ∧ OnlyRegistersOf [0x40A] s t)) ∧
  (∀ (n : Nat) (shorts : List ShortShare) (excess : List ShareExcess) (s : State),
    ((s.advance n).mono % 1000000 ≠ 0 ∨ (s.advance n).mono ≤ s.net.windowEnd →
      ∃ t, exec (.bandwidthWindowEnd n ⟨shorts, excess⟩) s = .next t ∧ t = s.advance n) ∧
    ((s.advance n).mono % 1000000 = 0 → s.net.windowEnd < (s.advance n).mono →
      ∃ t, exec (.bandwidthWindowEnd n ⟨shorts, excess⟩) s = .next t ∧ t.net.sent = [] ∧ t.net.throttled = [] ∧
        t.net.windowEnd = (s.advance n).mono ∧ CoresAndMemoryKept s t ∧ OnlyRegistersOf [0x400, 0x402, 0x40D] s t ∧
        (∀ e ∈ shorts, (s.sys.shares.any fun x => x.resource == e.resource && x.claimant == e.victim) = true →
          s.claimantTier e.victim = 6 ∨ e.resource = 0x000E → s.mayBenefit (s.claimantTier e.victim) e.benef = true →
          ∃ v ∈ t.emitted, v.code = 0xE004 ∧ v.vals.head? = some (e.benef * 0x10000 + e.victim)) ∧
        (∀ a m c, .memory a m c ∈ excess → a < 5 → 1 ≤ m → m ≤ 8 → ∃ v ∈ t.emitted, v.code = 0x2011 ∧ v.vals = [a, m, c]) ∧
        (∀ c k, .pairLink c k ∈ excess → s.get PAIR_CFG_MODE ≠ 0 → ∃ v ∈ t.emitted, v.code = 0xB00F ∧ v.vals = [c, k])))

/-- The maintenance session opens, reads and closes; PTP sets master, delay and offset; COMP stays bounded; time reads
are snapshots. (11 R391, 11 R393, 11 R396, 11 R397, 11 R406, 11 R410, 00 R7) With port 2 on, a request in a closed
session challenges with a nonce of 8 words; the right answer in time, signed with a key of the configuration, opens
the session with its key; a datagram in order with its CRC right (its layout: log entry 37) reads a register without
RS fields; ENDSESS and 60 s of silence close it. An Announce of the best clock heard, not worse than the module's own,
makes its port SLAVE and takes the grandmaster's identity (the comparison: log entry 23); a delay sets the path delay;
a Sync shows the offset; a due interval queues the port's messages of its kind (Sync and Announce in MASTER, delay
requests as slave or with peer delay); a lost master ends ACQUIRED or LOCKED in HOLDOVER; COMP moves at most 43 in an
update, which comes 1 s after the last or does nothing, and stays within 21475. STEP in STOP when needed steps SYNC by
minus the offset, result 0. After a step or an acquisition a TRS need not rise. A read of TIME_MONO_LO or TIME_SYNC_NS
returns it and latches the rest of the same instant. No register of a core changes, and no memory word but the learned
term's (log entry 79). -/
def Obligations.MaintenanceSessionAndTime : Prop :=
  (∀ (n mac ip : Nat) (s : State), s.get (NET_PnCFG_SPEED 2) ≠ 0 →
    (s.net.session = .closed → ∃ t nonce, exec (.maintDatagram n mac ip .request) s = .next t ∧ nonce.length = 8 ∧
      t.net = { s.net with session := .challenged mac ip nonce (s.advance n).mono } ∧ t.regs = s.regs ∧ CoresAndMemoryKept s t) ∧
    (∀ at_ nonce (k : Fin 4), s.net.session = .challenged mac ip nonce at_ → (s.advance n).mono ≤ at_ + 5000000000 →
      k.val < s.net.keys.length →
      ∃ t, exec (.maintDatagram n mac ip (.answer (some k))) s = .next t ∧
        t.net.session = .open_ mac ip k.val 0 (s.advance n).mono ∧ t.bit NET_STAT_SESS = true ∧ t.get NET_STAT_KEY = k.val ∧
        CoresAndMemoryKept s t ∧ OnlyRegistersOf [0x40A] s t) ∧
    (∀ key last at_, s.net.session = .open_ mac ip key last at_ →
      (∀ seq addr, after32 seq last = true → (regInfo addr).isSome = true → addr % 4 = 0 →
        maskOf (fun x => x == .rs) addr = 0 →
        ∃ t, exec (.maintDatagram n mac ip (.access seq (maintCrc seq addr none) addr none)) s = .next t ∧ t.busError = false ∧
          t.busData = ({ s.advance n with net := { s.net with session := t.net.session } }).shown addr ∧
          t.net.session = .open_ mac ip key (seq % 2 ^ 32) (s.advance n).mono ∧ t.regs = s.regs ∧ CoresAndMemoryKept s t) ∧
      (∀ cseq, s.Accepts NET_SEQ_LASTCMD cseq → ∃ t, exec (.endsess cseq) s = .next t ∧
        t.Answered NET_SEQ_LASTCMD NET_RES_RESULT cseq 0 ∧ t.net.session = .closed ∧ t.bit NET_STAT_SESS = false ∧
        CoresAndMemoryKept s t) ∧
      (at_ + 60000000000 ≤ (s.advance n).mono → ∃ t, exec (.maintSessionTimeout n) s = .next t ∧ t.net.session = .closed ∧
        t.bit NET_STAT_SESS = false ∧ CoresAndMemoryKept s t))) ∧
  (∀ (n : Nat) (p : Fin 2) (s : State), s.ptpOn p.val = true →
    (∀ c, ((s.advance n).hear p.val (some c)).bestMaster = some (p.val, c) →
      s.get TIME_CFG_MODE = 1 ∨ betterClock s.ownClock c = false →
      ∃ t, exec (.ptpMessageReceive n p (.announce c)) s = .next t ∧ t.get (TIME_PnPST_STATE p.val) = 9 ∧
      t.get TIME_STAT_SLAVE = p.val ∧ t.get TIME_GM_LO_ID + t.get TIME_GM_HI_ID * 2 ^ 32 = c.gm.toNat ∧
      t.time.announceAt = (s.advance n).mono ∧ t.announcedAt p.val = some c ∧ CoresAndMemoryKept s t ∧
      OnlyRegistersOf [0x404] s t) ∧
    (∀ mpd, s.get TIME_STAT_SLAVE = p.val → ∃ t, exec (.ptpMessageReceive n p (.delay mpd)) s = .next t ∧
      t.get TIME_MPD_NS = mpd % 2 ^ 32 ∧ t.time.delayKnown = true ∧ CoresAndMemoryKept s t ∧ OnlyRegistersOf [0x404] s t) ∧
    (∀ origin, let off := s.offsetOf p.val ((s.advance n).leadOf p.val origin)
      s.get TIME_STAT_SLAVE = p.val → s.time.delayKnown = true → ∃ t,
      exec (.ptpMessageReceive n p (.sync origin)) s = .next t ∧
        t.sget TIME_OFFS_VALUE = max (-2147483648) (min 2147483647 off) ∧ t.time.offset = off ∧ t.time.syncAt = (s.advance n).mono ∧ CoresOverStepAndMemoryKept s t ∧
        OnlyRegistersOf [0x404] s t) ∧
    (∀ m, s.ptpTypes p.val m ≠ [] → (s.advance n).ptpDue p.val m = true → s.get (NET_PnCFG_SPEED p.val) ≠ 0 →
      ∃ t q, exec (.ptpInterval n p m) s = .next t ∧ t.portQueue p.val = s.portQueue p.val ++ q ∧
        q.map (·.kind) = (s.ptpTypes p.val m).map (fun _ => FrameKind.ptp) ∧ q.map (·.len) = (s.ptpTypes p.val m).map s.ptpLength ∧
        t.ptpDue p.val m = decide (s.ptpPeriod p.val m = 0) ∧ t.regs = s.regs ∧ CoresAndMemoryKept s t)) ∧
  (∀ (n : Nat) (sync : Bool) (p : Fin 2) (s : State), s.ptpOn p.val = true →
    s.get TIME_STAT_SLAVE = p.val ∨ s.get TIME_STAT_SLAVE = 3 →
    (if sync then s.time.syncAt + 4 * (1000000000 / 2 ^ s.get TIME_PTPCFG_SYNCI) else s.heardAt p.val + s.announceTimeout)
      ≤ (s.advance n).mono →
    s.get TIME_STAT_STATE = 1 ∨ s.get TIME_STAT_STATE = 2 →
    ∃ t, exec (.masterLost n sync p) s = .next t ∧ t.get TIME_STAT_STATE = 3 ∧ t.time.delayKnown = false ∧
      (sync = false → t.announcedAt p.val = none) ∧ CoresAndMemoryKept s t ∧ OnlyRegistersOf [0x404] s t) ∧
  (∀ (n : Nat) (temp diff : Int) (s : State), (s.sget TIME_COMP_VALUE).natAbs ≤ 21475 →
    ((s.advance n).mono < s.time.compAt + 1000000000 → ∃ t, exec (.monoCompUpdate n temp diff) s = .next t ∧ t = s.advance n) ∧
    (s.time.compAt + 1000000000 ≤ (s.advance n).mono →
    ∃ t, exec (.monoCompUpdate n temp diff) s = .next t ∧ t.time.compAt = (s.advance n).mono ∧ (t.sget TIME_COMP_VALUE).natAbs ≤ 21475 ∧
      (t.sget TIME_COMP_VALUE - s.sget TIME_COMP_VALUE).natAbs ≤ 43 ∧ OnlyWordsOf [learnedAt] s t ∧ OnlyRegistersOf [0x404] s t)) ∧
  (∀ (n cseq : Nat) (s : State), s.Accepts TIME_SEQ_LASTCMD cseq → s.mode = .stop → s.bit TIME_STAT_STEPNEED = true →
    ∃ t, exec (.timeStep n cseq) s = .next t ∧ t.Answered TIME_SEQ_LASTCMD TIME_RES_RESULT cseq 0 ∧
      t.bit TIME_STAT_STEPNEED = false ∧ t.sync = ((s.advance n).stepSync (4 * -s.time.offset)).sync ∧ CoresOverStepAndMemoryKept s t ∧
      OnlyRegistersOf [0x404] s t) ∧
  (∀ (n : Nat) (s : State),
    (∃ t, exec (.monoRead n) s = .next t ∧ t.busData = BitVec.ofNat 32 (s.advance n).mono ∧
      t.rd TIME_MONO_HI = BitVec.ofNat 32 ((s.advance n).mono / 2 ^ 32) ∧ (∀ k, k ≠ TIME_MONO_HI → t.rd k = s.rd k) ∧ CoresAndMemoryKept s t) ∧
    (∃ t, exec (.syncRead n) s = .next t ∧ t.busData = BitVec.ofNat 32 ((s.advance n).sync / 2 ^ 32 % 1000000000) ∧
      t.rd TIME_SYNC_SLO = BitVec.ofNat 32 ((s.advance n).sync / 2 ^ 32 / 1000000000) ∧
      t.rd TIME_SYNC_SHI = BitVec.ofNat 32 ((s.advance n).sync / 2 ^ 32 / 1000000000 / 2 ^ 32 % 2 ^ 16) ∧
      (∀ k, k ≠ TIME_SYNC_SLO → k ≠ TIME_SYNC_SHI → t.rd k = s.rd k) ∧ CoresAndMemoryKept s t))

/-- Master and followers send START, POLL, REPLY and EVENT frames at their instants; a frame consumed becomes the
station's block. (12 R413, 12 R414, 12 R417, 12 R418, 12 R419, 12 R421, 12 R422, 12 R423, 12 R426, 12 R427, 12 R428,
12 R440) As a settled master at a basic-period edge: START leaves on every enabled channel 1.00 us later with the next
index and count; an active entry whose time has come, found quiet within 1.00 us, sends at S plus the delay, to 10 ns,
POLL with its node's poll status, DATA with the port's data, or as a free SPARE entry ADMIT to the next address; one
found quiet later sends nothing and breaks its guarantee in tier 4 (0xE004, then 0x9008). As a follower: the answer
due to a poll for a port it sources, to an ADMIT or to a HANDOVER, and an EVENT entry whose data changed, go out with
their words at their instants; a DATA frame without error that the schedule consumes becomes the last block of its
port's station, not lost, its frame start held with 10 ns resolution. A frame with a wrong FCS is counted. An input
port without a frame for TMO periods is lost with its station, also where one of the two alone shows it. A read of
OCT_TST_LO returns it and latches the rest. No core and no memory word changes. -/
def Obligations.OctetteFramesGoOutAndComeIn : Prop :=
  (∀ (n : Nat) (s : State), (s.advance n).mono % 500000 = 0 → s.octRole = 3 → s.oct.first = false → s.oct.target = none →
    s.oct.chA.poll = none → s.oct.chB.poll = none → s.get OCT_CFG_MACRO ≤ 10 →
    let i := (s.get OCT_MCNT_INDEX + 1) % s.octM
    let count := if i = 0 then s.get OCT_MCNT_COUNT + 1 else s.get OCT_MCNT_COUNT
    ∃ t, exec (.octBasicPeriodStart n) s = .next t ∧ CoresAndMemoryKept s t ∧ OnlyRegistersOf [0x40B] s t ∧
      ∀ c : Fin 2, s.octEnabled c.val = true →
        (t.octCh c.val).line = some ⟨octHeader 0x1 0 0 4 0,
          [BitVec.ofNat 32 (i + count % 2 ^ 16 * 2 ^ 16), BitVec.ofNat 32 s.octAddr, s.rd OCT_SCHID, 0],
          (s.advance n).mono + 1000⟩ ∧
        t.get OCT_MCNT_INDEX = i ∧ t.get OCT_MCNT_COUNT = count % 2 ^ 16 ∧
        (t.octCh c.val).start = some ((s.advance n).mono + 1000)) ∧
  (∀ (n delay T0 : Nat) (e : Fin 4096) (b : Option (Fin 4096)) (s : State), s.octRole = 3 →
    s.octEnabled (s.edCh e.val) = true → s.octActive e.val = true → (s.octCh (s.edCh e.val)).start = some T0 →
    (s.octCh (s.edCh e.val)).poll = none → (s.advance n).octDue (s.edCh e.val) e.val delay = true →
    (delay ≤ 1000 →
      (s.edKind e.val = 1 → ∃ t, exec (.octEntryDue n e delay b) s = .next t ∧
        (t.octCh (s.edCh e.val)).line = some ⟨octHeader 0x2 (s.edAddr e.val) (s.edPort e.val) 1 0,
          [s.pollStatus (s.edCh e.val) (s.edAddr e.val)], T0 + s.edS e.val + delay / 10 * 10⟩ ∧ t.regs = s.regs ∧
        CoresAndMemoryKept s t) ∧
      (s.edKind e.val = 2 → s.octSilent = false → ∃ t, exec (.octEntryDue n e delay b) s = .next t ∧
        (let w := s.octData (s.edPort e.val) (s.edLenw e.val)
         (t.octCh (s.edCh e.val)).line = some ⟨octHeader 0x4 0 (s.edPort e.val) w.length 0, w, T0 + s.edS e.val + delay / 10 * 10⟩) ∧
        CoresAndMemoryKept s t ∧ OnlyRegistersOf [0x40B] s t) ∧
      (∀ a, s.edKind e.val = 4 → s.edGranted e.val = false → (s.octCh (s.edCh e.val)).grant = none → s.oct.target = none →
        s.nextAdmit (s.edCh e.val) = some a → ∃ t, exec (.octEntryDue n e delay b) s = .next t ∧
        (t.octCh (s.edCh e.val)).line = some ⟨octHeader 0x6 a 0 1 0, [s.pollStatus (s.edCh e.val) a],
          T0 + s.edS e.val + delay / 10 * 10⟩ ∧ (t.octCh (s.edCh e.val)).admitted = a ∧ t.regs = s.regs ∧ CoresAndMemoryKept s t)) ∧
    (1000 < delay → s.edKind e.val = 1 ∨ s.edKind e.val = 2 ∧ s.octSilent = false ∨ s.edKind e.val = 4 →
      ∃ t, exec (.octEntryDue n e delay b) s = .next t ∧ (t.octCh (s.edCh e.val)).line = (s.octCh (s.edCh e.val)).line ∧
        EventsAdded s t [(0xE004, [(0x4000 + ((b.map (·.val)).getD e.val)) * 0x10000 + (0x4000 + e.val),
          4 * 0x1000000 + 4 * 0x10000 + (0x000B + s.edCh e.val), (s.advance n).tick % 2 ^ 32, 1]), (0x9008, [e.val, delay])] ∧
        t.get (SYS_GBRKt_COUNT 4) = min (s.get (SYS_GBRKt_COUNT 4) + 1) (2 ^ 32 - 1) ∧ CoresAndMemoryKept s t ∧
        OnlyRegistersOf [0x400, 0x40B] s t)) ∧
  (∀ (n start : Nat) (c : Fin 2) (f : OctFrame) (s : State), s.octRole = 2 → s.bit OCT_STAT_IDMIS = false →
    s.octEnabled c.val = true →
    (∀ d, s.frameError f = none → octType f.header = 4 → s.consumes c.val (start / 10 * 10) 4 (octPort f.header) = true →
      s.octPortIndex (octPort f.header) false = some d →
      ∃ t, exec (.octFrameReceive n c start f) s = .next t ∧
        (t.station 4 (octPort f.header)).cur = some ⟨f.payload, (s.advance n).mono, start / 10 * 10, false⟩ ∧
        t.bit (stLost 4 (octPort f.header)) = false ∧ t.bit (OCT_PSTAT_LOST.at d) = false ∧ CoresAndMemoryKept s t ∧
        OnlyRegistersOf [0x403, 0x40B, 0x40C] s t) ∧
    (s.frameError f = some 1 → (s.octCh c.val).poll = none → ∃ t, exec (.octFrameReceive n c start f) s = .next t ∧
      t.get (OCT_CHnCNT_FCS c.val) = min (s.get (OCT_CHnCNT_FCS c.val) + 1) 255 ∧ CoresAndMemoryKept s t ∧
      OnlyRegistersOf [0x40B] s t)) ∧
  (∀ (n : Nat) (c : Fin 2) (a : OctAnswer) (s : State), s.octRole = 2 → s.bit OCT_STAT_IDMIS = false →
    (s.octCh c.val).answer = some a → a.at_ + 1000 ≤ (s.advance n).mono →
    (∀ d, a.ask = .poll → s.octPortIndex a.port true = some d → s.octSilent = false →
      ∃ t, exec (.octReplySend n c) s = .next t ∧ (t.octCh c.val).answer = none ∧
        (let w := s.octData a.port (s.get (OCT_PCFG_LENW.at d))
         (t.octCh c.val).line = some ⟨octHeader 0x3 s.octAddr a.port w.length 0, w, a.at_ + 1000⟩) ∧ CoresAndMemoryKept s t ∧
        OnlyRegistersOf [0x40B] s t) ∧
    (a.ask = .admission → ∃ t, exec (.octReplySend n c) s = .next t ∧ (t.octCh c.val).answer = none ∧
      (t.octCh c.val).line = some ⟨octHeader 0x7 s.octAddr 0 s.claimWords.length 0, s.claimWords, a.at_ + 1000⟩ ∧
      t.regs = s.regs ∧ CoresAndMemoryKept s t) ∧
    (a.ask = .handover → ∃ t, exec (.octReplySend n c) s = .next t ∧ (t.octCh c.val).answer = none ∧
      (t.octCh c.val).line = some ⟨octHeader 0xA s.octAddr 0 1 0, [a.word], a.at_ + 1000⟩ ∧
      t.regs = s.regs ∧ CoresAndMemoryKept s t)) ∧
  (∀ (n d : Nat) (e : Fin 4096) (s : State), s.octRole = 2 → s.bit OCT_STAT_IDMIS = false → s.octSilent = false →
    s.octEnabled (s.edCh e.val) = true → s.edKind e.val = 3 → s.octActive e.val = true → s.edAddr e.val = s.octAddr →
    s.octPortIndex (s.edPort e.val) true = some d → s.get OCT_OWN_RTD ≠ 4095 →
    let start := s.octT0 (s.edCh e.val) + s.edS e.val - s.get OCT_OWN_RTD
    let w := s.octData (s.edPort e.val) (s.edLenw e.val)
    start ≤ (s.advance n).mono → (s.advance n).mono ≤ start + 1000 →
    w ≠ CMap.lookup (fun _ => []) s.oct.events (s.edPort e.val) →
    ∃ t, exec (.octEventSend n e) s = .next t ∧
      (t.octCh (s.edCh e.val)).line = some ⟨octHeader 0x5 s.octAddr (s.edPort e.val) w.length 0, w, start⟩ ∧
      CMap.lookup (fun _ => []) t.oct.events (s.edPort e.val) = w ∧
      CoresAndMemoryKept s t ∧ OnlyRegistersOf [0x40B] s t) ∧
  (∀ (n : Nat) (d : Fin 512) (s : State), s.bit (OCT_PCFG_EN.at d.val) = true → s.bit (OCT_PCFG_DIR.at d.val) = false →
    s.bit (OCT_PSTAT_LOST.at d.val) = false ∨ s.bit (stLost 4 (s.get (OCT_PCFG_PORT.at d.val))) = false →
    CMap.lookup (fun _ => 0) s.oct.accepted d.val + s.get (OCT_PCFG_TMO.at d.val) * 500000 ≤ (s.advance n).mono →
    ∃ t, exec (.octPortTimeout n d) s = .next t ∧ t.bit (OCT_PSTAT_LOST.at d.val) = true ∧
      t.bit (stLost 4 (s.get (OCT_PCFG_PORT.at d.val))) = true ∧ CoresAndMemoryKept s t) ∧
  (∀ s : State, ∃ t, exec .octStartTimeRead s = .next t ∧ t.busData = BitVec.ofNat 32 s.oct.startAt ∧
    t.rd OCT_TST_HI = BitVec.ofNat 32 (s.oct.startAt / 2 ^ 32) ∧ (∀ k, k ≠ OCT_TST_HI → t.rd k = s.rd k) ∧
    CoresAndMemoryKept s t)

/-- A candidate listens, waits, sends its cold START and becomes master; a collision stops it; a lost master and the
mailbox act. (12 R432, 12 R433, 12 R434, 12 R436, 12 R437, 12 R440) In the role candidate: the end of 2.00 ms in step
1 begins step 2, of its wait in step 2 sends the cold START with index 0 (step 3), of the wait in step 4 begins step 1
again; carrier in steps 1 and 2 begins step 1; a collision during its frame in step 3 counts and begins step 4; a cold
START that ends in step 3 makes the module master (ROLE 3, MASTER its address). A follower without START for two basic
periods (1.002 ms; 1.5 ms in the last basic period of a macrocycle that ends with a hand-over heard) has no master,
and where it is capable and of the right schedule it listens again, from the last carrier heard since. Accepted by the
mailbox: HANDOVER of a master to an admitted address shows it pending; REVOKE of an address with grants frees them and
clears its GRANT; CLRCNT clears both channels' counts; each with result 0. No core and no memory word changes. -/
def Obligations.OctetteMasterIsFoundAndLost : Prop :=
  (∀ (n : Nat) (s : State), s.octRole = 1 →
    (s.get OCT_STAT_CSSTEP = 1 → s.oct.stepAt + 2000000 ≤ (s.advance n).mono →
      ∃ t, exec (.coldStartTimerEnd n) s = .next t ∧ t.get OCT_STAT_CSSTEP = 2 ∧ t.oct.stepAt = s.oct.stepAt + 2000000 ∧
        CoresAndMemoryKept s t ∧ OnlyRegistersOf [0x40B] s t) ∧
    (s.get OCT_STAT_CSSTEP = 2 → s.oct.stepAt + s.octAddr * 20000 ≤ (s.advance n).mono →
      ∃ t, exec (.coldStartTimerEnd n) s = .next t ∧ t.get OCT_STAT_CSSTEP = 3 ∧ t.oct.frameAt = (s.advance n).mono ∧
        t.get OCT_MCNT_INDEX = 0 ∧ t.oct.startAt = (s.advance n).mono ∧
        (∀ c : Fin 2, s.octEnabled c.val = true → (t.octCh c.val).line = some ⟨octHeader 0x1 0 0 4 1,
          [BitVec.ofNat 32 (s.get OCT_MCNT_COUNT * 2 ^ 16), BitVec.ofNat 32 s.octAddr, s.rd OCT_SCHID, 0],
          (s.advance n).mono⟩) ∧ CoresAndMemoryKept s t ∧ OnlyRegistersOf [0x40B] s t) ∧
    (s.get OCT_STAT_CSSTEP = 4 → s.oct.frameAt + 5000000 + s.octAddr * 40000 ≤ (s.advance n).mono →
      ∃ t, exec (.coldStartTimerEnd n) s = .next t ∧ t.get OCT_STAT_CSSTEP = 1 ∧ t.oct.stepAt = (s.advance n).mono ∧
        CoresAndMemoryKept s t ∧ OnlyRegistersOf [0x40B] s t) ∧
    (∀ c : Fin 2, s.octEnabled c.val = true →
      (1 ≤ s.get OCT_STAT_CSSTEP → s.get OCT_STAT_CSSTEP ≤ 2 → ∃ t, exec (.carrier n c) s = .next t ∧
        t.get OCT_STAT_CSSTEP = 1 ∧ t.oct.stepAt = (s.advance n).mono ∧ t.octRole = 1 ∧ CoresAndMemoryKept s t ∧
        OnlyRegistersOf [0x40B] s t) ∧
      (s.get OCT_STAT_CSSTEP = 3 → (s.advance n).mono ≤ s.oct.frameAt + 4480 → ∃ t, exec (.octCollision n c) s = .next t ∧ t.get OCT_STAT_CSSTEP = 4 ∧
        t.get (OCT_CHnCNT_COLL c.val) = min (s.get (OCT_CHnCNT_COLL c.val) + 1) 255 ∧ t.octRole = 1 ∧ CoresAndMemoryKept s t ∧
        OnlyRegistersOf [0x40B] s t)) ∧
    (s.get OCT_STAT_CSSTEP = 3 → s.oct.frameAt + 4480 ≤ (s.advance n).mono →
      ∃ t, exec (.coldStartFrameEnd n) s = .next t ∧ t.octRole = 3 ∧ t.get OCT_STAT_MASTER = s.octAddr ∧
        t.get OCT_STAT_CSSTEP = 0 ∧ t.oct.first = true ∧ t.oct.masterFrom = s.oct.frameAt + 14480 ∧ CoresAndMemoryKept s t ∧
        OnlyRegistersOf [0x40B] s t)) ∧
  (∀ (n : Nat) (s : State), s.octRole = 2 → s.get OCT_STAT_MASTER ≠ 0 →
    s.oct.startAt + (match s.oct.heardHand with
      | some (m, _) => if s.get OCT_MCNT_COUNT = m ∧ s.get OCT_MCNT_INDEX + 1 = s.octM then 1500000 else 1002000
      | none => 1002000) ≤ (s.advance n).mono →
    ∃ t, exec (.octMasterLoss n) s = .next t ∧ t.get OCT_STAT_MASTER = 0 ∧
      (if s.bit OCT_CFG_MCAP = true ∧ s.bit OCT_STAT_IDMIS = false then t.octRole = 1 ∧ t.get OCT_STAT_CSSTEP = 1 ∧
          t.oct.stepAt = (if s.oct.startAt < s.oct.carrierAt then s.oct.carrierAt else (s.advance n).mono)
        else t.octRole = 2) ∧ CoresAndMemoryKept s t ∧ OnlyRegistersOf [0x40B] s t) ∧
  (∀ (cseq : Nat) (addr : BitVec 7) (s : State), s.Accepts OCT_SEQ_LASTCMD cseq → octAddressOk addr.toNat = true →
    (s.octRole = 3 → s.bit (OCT_NSTAT_ADM.at addr.toNat) = true → ∃ t, exec (.handover cseq addr) s = .next t ∧
      t.Answered OCT_SEQ_LASTCMD OCT_RES_RESULT cseq 0 ∧ t.bit OCT_STAT_HOPEND = true ∧ t.oct.target = some addr.toNat ∧
      CoresAndMemoryKept s t ∧ OnlyRegistersOf [0x40B] s t) ∧
    (s.grantsOf addr.toNat ≠ [] → ∃ t, exec (.revoke cseq addr) s = .next t ∧
      t.Answered OCT_SEQ_LASTCMD OCT_RES_RESULT cseq 0 ∧ t.bit (OCT_NSTAT_GRANT.at addr.toNat) = false ∧
      (∀ i ∈ s.grantsOf addr.toNat, t.edGranted i = false) ∧ CoresAndMemoryKept s t ∧ OnlyRegistersOf [0x40B] s t)) ∧
  (∀ (cseq : Nat) (s : State), s.Accepts OCT_SEQ_LASTCMD cseq → ∃ t, exec (.octClrcnt cseq) s = .next t ∧
    t.Answered OCT_SEQ_LASTCMD OCT_RES_RESULT cseq 0 ∧ t.rd (OCT_CHnCNT 0) = 0 ∧ t.rd (OCT_CHnCNT 1) = 0 ∧
    CoresAndMemoryKept s t ∧ OnlyRegistersOf [0x40B] s t)

/-- Bridle's link, completions, posted writes, logs, stations, sideband and routes act as their rules say. (13 R441,
13 R442, 13 R446, 13 R450, 13 R451, 13 R452, 13 R454, 13 R455, 13 R457, 13 R460) From the end of BOOT link up sets
LINK, SPEED and WIDTH; link down clears them, drops the read-ahead blocks and, no store being held, ends every
untracked write. A completion of a tag without request is counted as late. Where no other request waits and no store
is held: one of a held load writes the load's register and frees the tag; one of a flush read completes the writes it
covers; one of a configuration read gives BRG_CFGDATA, result 0; its timeout gives 9 and keeps the tag's number from
use. 100 us after the oldest untracked write of a window that left, with no flush read out or waiting that covers it,
one is sent, that covers what has left, or waits for a tag (log 25); CFGRD and CFGWR (one configuration request) and
an accepted configuration's station read at LEAD before its edge go out where a tag is free. The one untracked write
that its limit or an error message fails, nothing waiting, enters the write-error FIFO with kind 5, with 7, or with
the kind 2 to 4 that the function's log gives for its address, and is untracked no more. A write to 0xFFF00000 sets
its MSI bit; another inbound request is counted. RESUME of an enabled window without untracked writes ends its stop,
result 0. Reads of WEFINFO and PFLINFO take the head of their lists. Old read-ahead blocks expire. A silent station,
never read ones included, is lost. Sideband levels show, and changes of inputs are held. The block at the head of the
queue of arrivals is copied by its source's one route to its station, flow or port; the loss of a source whose blocks
are all copied writes zeros once (ZLOST); a block that finds 64 arrivals is skipped with 0xA00E. But for the held
load, no core and no memory word changes. -/
def Obligations.BridleRequestsWritesAndRoutes : Prop :=
  (∀ (n speed width : Nat) (s : State),
    (s.perstHigh = true → ∃ t, exec (.pcieLinkChange n true speed width) s = .next t ∧ t.linkUp = true ∧ t.get BRG_STAT_SPEED = speed % 4 ∧
      t.get BRG_STAT_WIDTH = width % 8 ∧ CoresAndMemoryKept s t ∧ OnlyRegistersOf [0x40C] s t) ∧
    (s.linkUp = true → ∃ t, exec (.pcieLinkChange n false speed width) s = .next t ∧ t.linkUp = false ∧
      t.get BRG_STAT_SPEED = 0 ∧ t.get BRG_STAT_WIDTH = 0 ∧ t.brg.ahead = [] ∧ OnlyRegistersOf [0x40C] s t ∧
      (s.brg.stores = [] → t.brg.open_ = []) ∧ (s.brg.waiting = [] → s.brg.stores = [] → CoresAndMemoryKept s t))) ∧
  (∀ (n tag : Nat) (s : State),
    (∀ status bad data, (s.brg.tags.find? fun g => g.id == tag) = none →
      ∃ t, exec (.pcieCompletionReceive n tag status bad data) s = .next t ∧
        t.get BRG_LATE_LATE = min (s.get BRG_LATE_LATE + 1) 65535 ∧
        t.brg = { s.brg with late := s.brg.late.filter (· != tag) } ∧ CoresAndMemoryKept s t ∧
        OnlyRegistersOf [0x40C] s t) ∧
    (∀ g, (s.brg.tags.find? fun g => g.id == tag) = some g → s.brg.waiting = [] → s.brg.stores = [] →
      (∀ c k rd addr w, g.use = .load c (.gp k rd) addr → (s.coreOf c).wait = .load (.gp k rd) addr →
        ∃ t, exec (.pcieCompletionReceive n tag 0 {} [w]) s = .next t ∧
          (t.brg.tags = s.brg.tags.filter fun x => x.id != tag) ∧
          CoreOnly c { s.advance n with brg := t.brg } t ∧ GpWritten (s.coreOf c) (t.coreOf c) rd (loadValue k addr w) ∧
          Retired (s.coreOf c) (t.coreOf c) ∧ (t.coreOf c).wait = .none) ∧
      (∀ win serial data, g.use = .flush win serial → ∃ t, exec (.pcieCompletionReceive n tag 0 {} data) s = .next t ∧
        (∀ x, x ∈ t.brg.open_ ↔ x ∈ s.brg.open_ ∧ ∀ y ∈ s.flushed win serial, y.serial ≠ x.serial) ∧
        CoresAndMemoryKept s t ∧ OnlyRegistersOf [0x40C] s t) ∧
      (∀ w, g.use = .config false → ∃ t, exec (.pcieCompletionReceive n tag 0 {} [w]) s = .next t ∧
        t.rd BRG_CFGDATA = w ∧ t.get BRG_RES_RESULT = 0 ∧ CoresAndMemoryKept s t ∧
        OnlyRegistersOf [0x40C] s t) ∧
      (∀ wr, g.use = .config wr → g.at_ + s.get BRG_CFG_CTO * 1000 ≤ (s.advance n).mono →
        ∃ t, exec (.completionTimeout n tag) s = .next t ∧ t.get BRG_RES_RESULT = 9 ∧ tag ∈ t.brg.late ∧
          CoresAndMemoryKept s t ∧ OnlyRegistersOf [0x40C] s t))) ∧
  (∀ (n win : Nat) (w : PostedWrite) (r : List PostedWrite) (s : State), s.sentIn win = w :: r →
    w.at_ + 100000 ≤ (s.advance n).mono → s.flushing win w.serial = false → s.flushNeed win = true →
    ∃ t, exec (.flushTimer n win) s = .next t ∧
      (if s.mayAsk (.flush win 0) then ∃ x, t.brg.tags = s.brg.tags ++ [x] ∧ x.use = .flush win (s.unsentFrom win) ∧
          (s.brg.late.contains x.id = false) ∧ t.brg.waiting = s.brg.waiting
        else t.brg.waiting = s.brg.waiting ++ [.flush win 0] ∧ t.brg.tags = s.brg.tags) ∧
      t.regs = s.regs ∧ CoresAndMemoryKept s t) ∧
  (∀ (n : Nat) (w : PostedWrite) (s : State), s.brg.open_ = [w] → w.win < 16 → s.brg.wef.length < 32 →
    s.brg.waiting = [] → s.brg.stores = [] →
    (∀ log : Option (Nat × Nat), ∃ t, exec (.pcieErrorMessage n [w.win] log) s = .next t ∧ t.brg.open_ = [] ∧
      (let kind := match log with
        | some (k, a) => if 2 ≤ k ∧ k ≤ 4 ∧ a = w.pcie then k else 7
        | none => 7
       t.brg.wef = s.brg.wef ++ [⟨w.addr, w.size, w.seq, kind, w.part, false⟩]) ∧ CoresAndMemoryKept s t ∧
      OnlyRegistersOf [0x40C] s t) ∧
    (w.sent = true → w.at_ + s.get BRG_CFG_PWLIM * 1000 ≤ (s.advance n).mono → ∃ t, exec (.postedWriteTimeout n) s = .next t ∧
      t.brg.open_ = [] ∧ t.brg.wef = s.brg.wef ++ [⟨w.addr, w.size, w.seq, 5, w.part, false⟩] ∧ CoresAndMemoryKept s t ∧
      OnlyRegistersOf [0x40C] s t)) ∧
  (∀ (n : Nat) (r : InboundRequest) (s : State),
    (∀ w, r.addr = 0xFFF00000 → r.write = some w → ∃ t, exec (.pcieInboundRequest n r) s = .next t ∧
      (t.get BRG_MSIPEND_VEC).testBit (w.toNat % 32) = true ∧
      (∀ i, i < 32 → i ≠ w.toNat % 32 → (t.get BRG_MSIPEND_VEC).testBit i = (s.get BRG_MSIPEND_VEC).testBit i) ∧
      CoresAndMemoryKept s t ∧ (∀ k, k ≠ BRG_MSIPEND → t.rd k = s.rd k)) ∧
    (r.addr ≠ 0xFFF00000 ∨ r.write = none → ∃ t, exec (.pcieInboundRequest n r) s = .next t ∧
      t.get BRG_LATE_INUR = min (s.get BRG_LATE_INUR + 1) 65535 ∧ CoresAndMemoryKept s t ∧ OnlyRegistersOf [0x40C] s t)) ∧
  (∀ (n cseq : Nat) (s : State), s.Accepts BRG_SEQ_LASTCMD cseq →
    (∀ win : Fin 16, s.bit (BRG_WnCTL_EN win.val) = true → s.openIn win.val = [] → ∃ t, exec (.resume cseq win) s = .next t ∧
      t.Answered BRG_SEQ_LASTCMD BRG_RES_RESULT cseq 0 ∧ t.brgStopped win.val = false ∧ CoresAndMemoryKept s t ∧
      OnlyRegistersOf [0x40C] s t) ∧
    (s.asking (· == .config true) = false → s.asking (· == .config false) = false →
      (s.mayAsk (.config false) = true → ∃ t x, exec (.cfgrd n cseq) s = .next t ∧ t.get BRG_SEQ_LASTCMD = cseq % 65536 ∧ t.brg.tags = s.brg.tags ++ [x] ∧
        x.use = .config false ∧ CoresAndMemoryKept s t ∧ OnlyRegistersOf [0x40C] s t) ∧
      (s.mayAsk (.config true) = true → ∃ t x, exec (.cfgwr n cseq) s = .next t ∧ t.get BRG_SEQ_LASTCMD = cseq % 65536 ∧ t.brg.tags = s.brg.tags ++ [x] ∧
        x.use = .config true ∧ CoresAndMemoryKept s t ∧ OnlyRegistersOf [0x40C] s t))) ∧
  (∀ (e : WriteError) (r : List WriteError) (s : State), s.brg.wef = e :: r → r.length < 32 →
    ∃ t, exec .wefinfoRead s = .next t ∧ t.brg = { s.brg with wef := r } ∧ t.get BRG_WEFSTAT_DEPTH = r.length ∧
      t.busData = BitVec.ofNat 32 (e.seq + e.kind * 2 ^ 24 + e.size * 2 ^ 27 + e.station.toNat * 2 ^ 29 + 2 ^ 31) ∧
      CoresAndMemoryKept s t ∧ OnlyRegistersOf [0x40C] s t) ∧
  (∀ (e : PrefetchLoss) (r : List PrefetchLoss) (s : State), s.brg.losses = e :: r → r.length < 16 →
    ∃ t, exec .pflinfoRead s = .next t ∧ t.brg = { s.brg with losses := r } ∧ t.get BRG_PFLSTAT_DEPTH = r.length ∧
      t.busData = BitVec.ofNat 32 (e.unused + e.part * 2 ^ 8 + e.cause * 2 ^ 16 + 2 ^ 31) ∧ CoresAndMemoryKept s t ∧
      OnlyRegistersOf [0x40C] s t) ∧
  (∀ (n : Nat) (s : State), ∃ t, exec (.readaheadExpiry n) s = .next t ∧
    t.brg.ahead = s.brg.ahead.filter (fun x => decide ((s.advance n).mono ≤ x.at_ + s.get BRG_CFG_RAHOLD * 1000)) ∧
    CoresAndMemoryKept s t ∧ OnlyRegistersOf [0x40C] s t) ∧
  (∀ (n : Nat) (i : Fin 256) (s : State), s.configured = true → s.bit (BRG_SD0_EN.at i.val) = true →
    (let edge := (s.advance n).mono + s.get (BRG_SD4_LEAD.at i.val) * 1000
     s.get (BRG_SD0_INLEN.at i.val) ≠ 0 → edge % 125000 = 0 → s.isExchange i.val (edge / 125000) = true →
      s.asking (· == .station i.val) = false → s.mayAsk (.station i.val) = true → ∃ t x, exec (.stationReadStart n i) s = .next t ∧
        t.brg.tags = s.brg.tags ++ [x] ∧ x.use = .station i.val ∧ t.regs = s.regs ∧ CoresAndMemoryKept s t) ∧
    (CMap.lookup (fun _ => 0) s.brg.readAt i.val - 1 + s.get (BRG_SD4_TMO.at i.val) * 1000000 ≤ (s.advance n).mono → ∃ t, exec (.stationReadTimeout n i) s = .next t ∧
        t.bit (BRG_SSTAT_LOST.at i.val) = true ∧ t.bit (stLost 3 (s.sdStation i.val)) = true ∧ CoresAndMemoryKept s t)) ∧
  (∀ (n : Nat) (l : BitVec 8) (s : State),
    (∃ t, exec (.sidebandInputChange n l) s = .next t ∧ t.get BRG_SBIN_LVL = l.toNat ∧
      (∀ i, i < 8 → (t.get BRG_SBIN_CHG).testBit i = ((s.get BRG_SBIN_CHG).testBit i ||
        ((l.toNat.testBit i != (s.get BRG_SBIN_LVL).testBit i) && !(s.get BRG_SBCFG_DIR).testBit i))) ∧
      CoresAndMemoryKept s t ∧ OnlyRegistersOf [0x40C] s t) ∧
    (∃ t, exec (.sidebandOutputWrite l) s = .next t ∧ t.get BRG_SBOUT_LVL = l.toNat ∧
      t = { s with regs := t.regs } ∧ ∀ k, k ≠ BRG_SBOUT → t.rd k = s.rd k)) ∧
  (∀ (n k : Nat) (kind : Fin 16) (src : Fin 4096) (s : State), s.routesOf kind.val src.val = [k] → s.routeAllowed k = true →
    s.routeDkind k = 3 ∧ s.routeDid k < 3840 ∨ s.routeDkind k = 4 ∨ s.routeDkind k = 5 →
    (∀ b r, s.brg.arrivals = ⟨kind.val, src.val, b⟩ :: r → ∃ t, exec (.routeCopy n kind src false) s = .next t ∧
        (∀ i, i < s.routeLen k → (t.station (s.routeDkind k) (s.routeDid k)).outWord (s.routeDoff k + i) =
          (b.words[s.routeSoff k + i]?).getD 0) ∧ t.brg.arrivals = r ∧ k ∉ t.brg.zeroed ∧ t.regs = s.regs ∧
        CoresAndMemoryKept s t) ∧
    (s.bit (stLost kind.val src.val) = true → (∀ a ∈ s.brg.arrivals, (a.kind == kind.val && a.index == src.val) = false) →
      s.routeZlost k = true → k ∉ s.brg.zeroed → ∃ t, exec (.routeCopy n kind src true) s = .next t ∧
        (∀ i, i < s.routeLen k → (t.station (s.routeDkind k) (s.routeDid k)).outWord (s.routeDoff k + i) = 0) ∧
        k ∈ t.brg.zeroed ∧ t.brg.arrivals = s.brg.arrivals ∧ t.regs = s.regs ∧ CoresAndMemoryKept s t)) ∧
  (∀ (kind index : Nat) (b : InBlock) (s : State), s.routesOf kind index ≠ [] →
    (s.brg.arrivals.length < 64 → (s.queueArrival kind index b).brg.arrivals = s.brg.arrivals ++ [⟨kind, index, b⟩]) ∧
    (64 ≤ s.brg.arrivals.length → (s.queueArrival kind index b).brg.arrivals = s.brg.arrivals ∧
      EventsAdded s (s.queueArrival kind index b) [(0xA00E, [kind + index * 16])]))

/-- Heartbeats tell of the partner; blocks, commits and snapshots arrive; JOIN, its phases, SWITCH and LEAVE change
the role. (14 R463, 14 R464, 14 R465, 14 R472, 14 R473, 14 R477, 14 R480, 14 R483, 14 R484, 10 R354) In a pair: a
correct heartbeat of the partner, newer on its path and newer than the last, becomes what is known of the partner, and
on the cross-link a standby measures whether its edge still lags by the fixed offset, within 2 us; one with another
serial number emits 0xB00E. The live line's loss and return show. With the cross-link current: a block reaches a
bounded-gap standby's staging buffer, a commit record that is good takes the blocks that go with its task out of it
and is kept, one that is not changes nothing but time; a gapless standby keeps the last four snapshots by its own
edges; a kind 7 block becomes the station's last block. JOIN in STOP beside an active partner, without a change in
progress and not halted, starts the join (role 3, RESYNC), result 0; each of its phases completes once, in order and
within its limit, the phase time when the offset has held for 10 s; a later one, another configuration or program or
the same slot fails the join with reason 1 to 5; the last phase with every task joined ends it (role 2, READY,
STANDBY); a failure ends it in STOP with its reason. SWITCH of an active beside a ready standby in condition 0 is
taken and told over the cross-link, result 0; LEAVE of a standby leads to STOP with no commits kept, result 0. An
output 5 to 16 off that reads on latches EXTD: without DIODEOR, or where the partner's released request is off too. No
core, and but for a commit record no memory word, changes. -/
def Obligations.PairHeartbeatsStateAndRoles : Prop :=
  (∀ (n delay : Nat) (p : Fin 3) (data : List Byte) (s : State), s.pairMode ≠ 0 → data.length = 48 →
    word32At data 44 = crcBytes (data.take 44) →
    (word32At data 4 = s.get PAIR_PSER_SERIAL → (∀ k, (s.pair.path p.val).last = some k → after32 (word32At data 16) k = true) →
      (∀ x, s.pair.partner = some x → after32 (word32At data 16) x.tick = true) →
      ∃ t, exec (.heartbeatReceive n p data delay) s = .next t ∧ t.pair.partner = some (partnerOf data (s.advance n).mono) ∧
        (t.pair.path p.val).last = some (word32At data 16) ∧ (t.pair.path p.val).got = true ∧
        t.partnerSlot = (partnerOf data 0).slot ∧ t.get PAIR_PPSN_PSN = (partnerOf data 0).psn % 2 ^ 32 ∧
        (s.role = 2 → p.val = 0 → s.pair.refix = false → s.pair.join = none → t.bit PAIR_OFFS_HELD =
          decide (((s.advance n).lagOf (word32At data 16) delay - s.get PAIR_OFFS_NS).natAbs ≤ 2000)) ∧
        CoresAndMemoryKept s t ∧ (s.role ≠ 2 ∨ p.val ≠ 0 → OnlyRegistersOf [0x40D] s t)) ∧
    (word32At data 4 ≠ s.get PAIR_PSER_SERIAL → ∃ t, exec (.heartbeatReceive n p data delay) s = .next t ∧ t.pair = s.pair ∧
      EventsAdded s t [(0xB00E, [p.val, word32At data 4])] ∧ CoresAndMemoryKept s t ∧
      OnlyRegistersOf [0x40D] s t)) ∧
  (∀ (n : Nat) (s : State),
    (∃ t, exec (.liveLineLoss n) s = .next t ∧ t.bit PAIR_STAT_LIVE = false ∧ (∀ k, k ≠ PAIR_STAT → t.rd k = s.rd k) ∧
      CoresAndMemoryKept s t) ∧
    (∃ t, exec (.liveLineReturn n) s = .next t ∧ t.bit PAIR_STAT_LIVE = true ∧ (∀ k, k ≠ PAIR_STAT → t.rd k = s.rd k) ∧
      CoresAndMemoryKept s t)) ∧
  (∀ (n : Nat) (s : State), s.crossLink = true → s.role = 2 → s.pair.join = none →
    (∀ key words, s.pairMode ≠ 2 → ∃ t, exec (.pairBlockReceive n (.block key words)) s = .next t ∧
      t = { s.advance n with pair := { s.pair with staging := s.pair.staging ++ [(key, words)] } }) ∧
    (∀ r, (s.pairMode ≠ 2 → ∃ t c, exec (.commitRecordReceive n r true) s = .next t ∧
        t.pair.staging = s.pair.staging.filter (fun b => !s.goesWith r.task b.1) ∧
        (r.task, c) ∈ t.pair.commits ∧ c.sseqs = r.sseqs ∧ t.cx = s.cx ∧ t.sc0 = s.sc0 ∧ t.sc1 = s.sc1) ∧
      (∃ t, exec (.commitRecordReceive n r false) s = .next t ∧ t = s.advance n)) ∧
    (∀ tick entries, s.pairMode = 2 → ∃ t, exec (.snapshotReceive n tick entries) s = .next t ∧
      t = { s.advance n with pair := { s.pair with
        snapshots := (((s.advance n).ownEdge tick, entries) :: s.pair.snapshots).take 4 } }) ∧
    (∀ words, s.pairMode ≠ 0 → ∃ t b, exec (.partnerBlockReceive n words) s = .next t ∧ (t.station 7 0).cur = some b ∧
      b.words = words ∧ t.bit (stLost 7 0) = false ∧ CoresAndMemoryKept s t ∧ OnlyRegistersOf [0x403, 0x40C] s t)) ∧
  (∀ (n cseq : Nat) (s : State), s.Accepts PAIR_SEQ_LASTCMD cseq →
    (s.mode = .stop → s.role ≠ 3 → s.pairMode ≠ 0 → s.partnerRole = 1 → s.bit CORE_STAT_HALTED = false →
      s.ocState ≠ ocArmed → s.ocState ≠ ocSwitched → s.ocState ≠ ocRevertArmed →
      ∃ t, exec (.join n cseq) s = .next t ∧ t.Answered PAIR_SEQ_LASTCMD PAIR_RES_RESULT cseq 0 ∧ t.role = 3 ∧
        t.pairReady = false ∧ t.mode = .resync ∧ t.pair.join = some { since := (s.advance n).mono } ∧ CoresAndMemoryKept s t) ∧
    (s.role = 1 → s.anyPath = true → (∃ x, s.pair.partner = some x ∧ x.ready = true) → s.get PAIR_STAT_COND = 0 →
      s.ocState ≠ ocArmed → s.ocState ≠ ocRevertArmed → ∃ t, exec (.switch cseq) s = .next t ∧
        t.Answered PAIR_SEQ_LASTCMD PAIR_RES_RESULT cseq 0 ∧ t.pair.switching = true ∧
        (s.pairMode ≠ 0 → s.crossLink = true → t.pair.sentMessage = some (.switch ((s.tick + 1) % 2 ^ 32))) ∧
        CoresAndMemoryKept s t ∧ OnlyRegistersOf [0x40D] s t) ∧
    (s.role = 2 → ∃ t, exec (.leavePair n cseq) s = .next t ∧ t.Answered PAIR_SEQ_LASTCMD PAIR_RES_RESULT cseq 0 ∧
      t.role = 0 ∧ t.pairReady = false ∧ t.mode = .stop ∧ t.pair.staging = [] ∧ t.pair.commits = [] ∧ t.pair.rejoin = false ∧ CoresAndMemoryKept s t)) ∧
  (∀ (n : Nat) (j : PairJoin) (s : State), s.pair.join = some j →
    (j.identity = false → s.crossLink = true → ∃ t, exec (.joinPhaseComplete n .identity) s = .next t ∧
      (if j.since + 20000000 < (s.advance n).mono then t.mode = .stop ∧ t.get PAIR_RES_REASON = 1 ∧ t.pair.join = none
       else t = { s.advance n with pair := { s.pair with join := some { j with identity := true, since := (s.advance n).mono } } }) ∧
      CoresAndMemoryKept s t) ∧
    (∀ partner mode, j.identity = true → j.configuration = false →
      ∃ t, exec (.joinPhaseComplete n (.configuration partner mode)) s = .next t ∧
      (let reason := if j.since + 1000000 < (s.advance n).mono ∨ partner ≠ s.sys.identity ∨ mode ≠ s.pairMode then 2 else if s.sameProgram = false then 3
        else if s.slot = s.partnerSlot then 4 else 0
       if reason = 0 then
         t = { s.advance n with pair := { s.pair with join := some { j with configuration := true, since := (s.advance n).mono } } }
       else t.mode = .stop ∧ t.get PAIR_RES_REASON = reason ∧ t.pair.join = none) ∧ CoresAndMemoryKept s t) ∧
    (∀ from_, j.heldFrom = some from_ → j.timed = false → from_ + 10000000000 ≤ (s.advance n).mono →
      ∃ t, exec (.joinPhaseComplete n .time) s = .next t ∧
      (if j.since + 120000000000 < (s.advance n).mono then t.mode = .stop ∧ t.get PAIR_RES_REASON = 5 ∧ t.pair.join = none
       else t = { s.advance n with pair := { s.pair with join := some { j with timed := true } } }) ∧ CoresAndMemoryKept s t) ∧
    (j.configuration = true → ∃ t, exec (.joinPhaseComplete n .copy) s = .next t ∧
      t = { s.advance n with pair := { s.pair with join := some { j with copied := true } } }) ∧
    (j.timed = true → s.allJoined = true → ∃ t, exec (.joinPhaseComplete n .tasks) s = .next t ∧ t.role = 2 ∧
      t.pairReady = true ∧ t.mode = .standby ∧ t.pair.join = none ∧ CoresAndMemoryKept s t) ∧
    (∀ reason : Fin 7, ∃ t, exec (.joinFail n reason) s = .next t ∧ t.role = 0 ∧ t.pairReady = false ∧ t.mode = .stop ∧
      t.get PAIR_RES_REASON = reason.val ∧ t.pair.join = none ∧ CoresAndMemoryKept s t)) ∧
  (∀ (n : Nat) (o : Fin 16) (s : State), 4 ≤ o.val → s.requested (o.val + 1) = false →
    s.get (supplyField (groupOf (o.val + 1))) ≠ 2 →
    s.bit (FIO_OnCFG_DIODEOR (o.val + 1)) = false ∨
      (s.anyPath = true ∧ ∃ x, s.pair.partner = some x ∧ bitOf x.requests o.val = false) →
    ∃ t, exec (.outputExternalDrive n ⟨o, true⟩) s = .next t ∧ t.bit (FIO_OnSTAT_EXTD (o.val + 1)) = true ∧ CoresAndMemoryKept s t)

/-- Reset and power-good lead through BOOT, START_TEST, LOAD and CONFIGURE to STOP; failures, overruns and a silent
Girth are acted on. (15 R488, 15 R494, 15 R496, 15 R497, 15 R500, 15 R501, 15 R503, 15 R504, 15 R547, 15 R548, 09
R325) A reset that is due, the events written, and rails out of regulation reset the module: POWERUP, life cycle and
flash kept. Power-good begins BOOT, after a reset without loss of supply 1 ms from it, with SYS_BOOT as MRAM's boot
record has it (its words: log entry 79). A supply below 16.0 V shows PFAIL and saves REC's queue and counters (words:
same entry); its return clears PFAIL and the copy. A supply sample shows, 1 ms after the last. Within their limits:
BOOT with the image of the slot to start good ends in START_TEST from that slot, with only the other's good from the
other, with both refused in SERVICE with RECOV. START_TEST without failures ends in LOAD, with a fatal item it demands
SAFE. LOAD of an image that passes every check and demands no SAFE ends in CONFIGURE; an image for another unit leads
to STOP without CFGOK, a refused one demands SAFE. CONFIGURE ends in STOP, CFGOK telling whether every check passed;
without an automatic start it stays there. A phase over its limit demands SAFE with its code, 4 or 5. A silent Girth
leads to SAFE and stops the cores; of memory only the boot record may change. -/
def Obligations.StartRunsThroughItsPhases : Prop :=
  (∀ (n : Nat) (s : State),
    (s.sys.resetting = true → s.emitted = [] → s.recb.queue = [] → ∃ t, exec (.moduleReset n) s = .next t ∧
      t.mode = .powerup ∧ t.lifeCycle = s.lifeCycle ∧ t.flash = s.flash ∧ t.sys.resetting = false ∧ t.sys.slotA = s.sys.slotA ∧
      t.sys.slotB = s.sys.slotB ∧ t.sys.fused = s.sys.fused ∧ t.cx = {} ∧ t.pending = s.pending) ∧
    (∃ t, exec (.railsOutOfRegulation n) s = .next t ∧ t.mode = .powerup ∧ t.lifeCycle = s.lifeCycle ∧ t.flash = s.flash ∧
      t.sys.supplyLost = true ∧ t.sys.fused = s.sys.fused ∧ t.cx = {} ∧ t.pending = s.pending) ∧
    (s.mode = .powerup → s.sys.supplyLost = true ∨ 1000000 ≤ (s.advance n).mono → ∃ t, exec (.powerGood n) s = .next t ∧ t.mode = .boot ∧ t.sys.phaseAt = some (s.advance n).mono ∧
      t.sys.supplyLost = false ∧ t.rd SYS_BOOT = s.loadBoot.rd SYS_BOOT) ∧
    (∀ mv, s.mode ≠ .powerup → s.bit SYS_STAT_PFAIL = false → mv < 16000 → ∃ t, exec (.powerFailureSignal n mv) s = .next t ∧
      t.bit SYS_STAT_PFAIL = true ∧ t.recb.saved = some (s.recb.queue, s.recb.captures.length) ∧
      (s.wordReachable powerCyclesAt = true → t.stored powerCyclesAt = encodeWord (s.rd REC_PWRCYC)) ∧
      OnlyWordsOf [opsecAt, powerCyclesAt] s t ∧ OnlyRegistersOf [0x400] s t) ∧
    (∀ mv, s.bit SYS_STAT_PFAIL = true → 16800 ≤ mv → ∃ t, exec (.powerFailureClear n mv) s = .next t ∧
      t.bit SYS_STAT_PFAIL = false ∧ t.recb.saved = none ∧ (∀ k, k ≠ SYS_STAT → t.rd k = s.rd k) ∧ CoresAndMemoryKept s t) ∧
    (∀ mv, (∀ m, s.sys.supplyAt = some m → m + 1000000 ≤ (s.advance n).mono) → ∃ t, exec (.supplySample n mv) s = .next t ∧ t.get SYS_SUPPLY_MV = min mv 65535 ∧
      (∀ k, k ≠ SYS_SUPPLY → t.rd k = s.rd k) ∧ CoresAndMemoryKept s t)) ∧
  (∀ (n : Nat) (f : BootFindings) (s : State), s.mode = .boot → (s.advance n).overrun = none →
    (let u := (s.advance n).chooseSlot
     let first := u.1.reportSlot u.2 (if u.2 = true then f.slotB else f.slotA)
     (first.2 = 0 → ∃ t, exec (.firmwareLoaded n f) s = .next t ∧ t.mode = .startTest ∧ t.bit SYS_STAT_SLOT = u.2 ∧
       t.bit SYS_STAT_TRIAL = (u.1.bit SYS_BOOT_TRIALV && u.2 != u.1.bit SYS_BOOT_ACT) ∧ t.sys.phaseAt = some t.mono) ∧
     (first.2 ≠ 0 → (first.1.reportSlot (!u.2) (if u.2 = true then f.slotA else f.slotB)).2 = 0 →
       ∃ t, exec (.firmwareLoaded n f) s = .next t ∧ t.mode = .startTest ∧ t.bit SYS_STAT_SLOT = !u.2 ∧
         t.sys.phaseAt = some t.mono)) ∧
    (f.slotA.reason ≠ 0 → f.slotB.reason ≠ 0 → ∃ t, exec (.firmwareLoaded n f) s = .next t ∧ t.mode = .service ∧
      t.bit SYS_STAT_RECOV = true ∧ t.sys.phaseAt = none)) ∧
  (∀ (n dur : Nat) (words : List (Nat × Word)) (s : State), s.mode = .startTest → s.bit MEM_STAT_DINIT = true →
    (s.advance n).overrun = none →
    (∃ t, exec (.startTestComplete n ⟨[], [], dur, words⟩) s = .next t ∧ t.mode = .load ∧
      t.get BIST_SUTTIME_VALUE = dur % 2 ^ 32 ∧ t.sys.phaseAt = some t.mono) ∧
    (∀ (i : Fin 14) d, 8 ≤ i.val → ∃ t, exec (.startTestComplete n ⟨[(i, d)], [], dur, words⟩) s = .next t ∧
      t.sys.demands = s.sys.demands ++ [(3, 4)] ∧ (t.get BIST_SUTRES_ITEM).testBit i.val = true ∧ t.mode = .startTest)) ∧
  (∀ (n : Nat) (check : SlotCheck) (cfg : Configuration) (s : State), s.mode = .load → (s.advance n).overrun = none →
    (check.reason = 0 → s.get SYS_SVN_CFG ≤ check.svn → check.pid = s.sys.firmware → (∀ k, cfg.serial = some k → k = s.get SYS_SER_SERIAL) → s.lifeCycle < 3 ∨ digestOf cfg.values = s.sys.fused.digest →
      (((s.advance n).emit 0xD007 [2, check.svn, check.pid]).loadEngines cfg).sys.demands.length = s.sys.demands.length →
      ∃ t, exec (.loadComplete n check cfg) s = .next t ∧ t.mode = .configure ∧ t.sys.phaseAt = some t.mono) ∧
    (check.reason = 4 ∨ ((∃ k, cfg.serial = some k ∧ k ≠ s.get SYS_SER_SERIAL) ∧ (check.reason = 0 ∨ 4 ≤ check.reason)) →
      ∃ t, exec (.loadComplete n check cfg) s = .next t ∧ t.mode = .stop ∧ t.bit SYS_STAT_CFGOK = false ∧
      CoresAndMemoryKept s t) ∧
    (check.reason ≠ 0 → check.reason ≠ 4 → (∀ k, cfg.serial = some k → k = s.get SYS_SER_SERIAL) →
      ∃ t, exec (.loadComplete n check cfg) s = .next t ∧ t.mode = .load ∧ t.sys.demands = s.sys.demands ++ [(3, 5)] ∧
        CoresAndMemoryKept s t)) ∧
  (∀ (n : Nat) (s : State), s.mode = .configure → (s.advance n).overrun = none →
    ((s.advance n).checkConfiguration = none → s.get SYS_CFG_AUTO = 0 → ∃ t, exec (.configureComplete n) s = .next t ∧
      t.mode = .stop ∧ t.bit SYS_STAT_CFGOK = true ∧ t.sys.checked = 0 :: s.masks ∧ t.rd SYS_CFGRES0 = 0 ∧
      CoresAndMemoryKept s t) ∧
    (∀ r m, (s.advance n).checkConfiguration = some (r, m) → ∃ t, exec (.configureComplete n) s = .next t ∧ t.mode = .stop ∧
      t.bit SYS_STAT_CFGOK = false ∧ CoresAndMemoryKept s t)) ∧
  (∀ (n limit code at_ : Nat) (s : State), phaseLimit s.mode = some (limit, code) → s.sys.phaseAt = some at_ →
    at_ + limit < (s.advance n).mono → ∃ t, exec (.phaseOverrun n) s = .next t ∧ t.sys.demands = s.sys.demands ++ [(3, code)] ∧
      t.sys.phaseAt = none ∧ CoresAndMemoryKept s t ∧ OnlyRegistersOf [0x400] s t) ∧
  (∀ (n ns : Nat) (s : State), s.mode ≠ .powerup → s.bit SYS_STAT_GSIL = false → 20000 ≤ ns →
    ∃ t, exec (.girthSilent n ns) s = .next t ∧ t.bit SYS_STAT_GSIL = true ∧ t.mode = .safe ∧
      t.sys.demands = s.sys.demands ++ [(3, 3)] ∧ (s.mode ≠ .safe → t.cx.stopped = true) ∧
      (s.bit SYS_STAT_TRIAL = false → t.mem = s.mem) ∧ (∀ k, k ∉ bootWords → t.stored k = s.stored k))

/-- SERVICE, LEAVE, RESET, SAFE, LCADV, the flash commands, ACTIVATE, CONFIRM and the train mode act as their rules
say. (15 R488, 15 R489, 15 R490, 15 R495, 15 R502, 15 R503, 15 R514, 15 R515, 15 R516) Accepted by SYS's mailbox:
SERVICE in STOP, with no start pending and the complex not halted, enters SERVICE, LEAVE leaves it for STOP; RESET in
STOP or SERVICE with the complex not halted, or by the tool in SAFE, makes a reset due; SAFE, but in STOP or SERVICE
while the complex is halted, demands SAFE with code 8; LCADV of the tool in STOP or SERVICE for this unit, to a state
that the move allows, starts the fuse write; ACTIVATE arms the inactive slot as trial; CONFIRM of a started trial
makes its slot active and never lowers the security versions; each with result 0. STAGE, VERIFY, PKGLOAD and, after a
passed VERIFY and without a trial, INSTALL start their flash command. INSTALL completes with the staged images in the
inactive slot, the active one as before; a STAGE from beyond DRAM ends with result 5. The fuse write sets the
life-cycle state, fuses what the move to FIELD fuses, blows the device key on the move to RETIRED, changes no other
fuse, and ends a halt where debug is available no longer. A write of TMODE is a request for step 6. But for a PKGLOAD
or a STAGE that completes, a fuse write in a halt and the boot record's words in MRAM (log entry 79), which ACTIVATE
and CONFIRM write, no core and no memory word changes. -/
def Obligations.SysCommandsFlashAndLifeCycle : Prop :=
  (∀ (n cseq : Nat) (s : State), s.Accepts SYS_SEQ_LASTCMD cseq →
    (∀ tool, s.mode = .stop → s.cyc.pendingStart = none → s.bit CORE_STAT_HALTED = false → ∃ t, exec (.service n cseq tool) s = .next t ∧
      t.Answered SYS_SEQ_LASTCMD SYS_RES_RESULT cseq 0 ∧ t.mode = .service ∧ CoresAndMemoryKept s t ∧
      OnlyRegistersOf [0x400] s t) ∧
    (s.mode = .service → s.lifeCycle ≠ 5 → s.bit CORE_STAT_HALTED = false → ∃ t, exec (.leave n cseq) s = .next t ∧
      t.Answered SYS_SEQ_LASTCMD SYS_RES_RESULT cseq 0 ∧ t.mode = .stop ∧ CoresAndMemoryKept s t ∧ OnlyRegistersOf [0x400] s t) ∧
    (∀ tool, (s.mode = .stop ∨ s.mode = .service) ∧ s.bit CORE_STAT_HALTED = false ∨ s.mode = .safe ∧ tool = true → ∃ t, exec (.resetCommand n cseq tool) s = .next t ∧
      t.Answered SYS_SEQ_LASTCMD SYS_RES_RESULT cseq 0 ∧ t.sys.resetting = true ∧ t.mode = s.mode ∧ CoresAndMemoryKept s t ∧
      OnlyRegistersOf [0x400] s t) ∧
    (s.haltedHere = false → ∃ t, exec (.safeCommand n cseq) s = .next t ∧ t.Answered SYS_SEQ_LASTCMD SYS_RES_RESULT cseq 0 ∧
      t.sys.demands = s.sys.demands ++ [(3, 8)] ∧ CoresAndMemoryKept s t ∧ OnlyRegistersOf [0x400] s t) ∧
    (s.mode = .stop ∨ s.mode = .service → s.sys.advancing = none → s.rd SYS_CARG1 = s.rd SYS_SER →
      s.moveRefused s.lifeCycle (s.get SYS_CARG0_VALUE) = none → ∃ t, exec (.lcadv n cseq true) s = .next t ∧
        t.Answered SYS_SEQ_LASTCMD SYS_RES_RESULT cseq 0 ∧ t.sys.advancing = some (s.get SYS_CARG0_VALUE) ∧
        t.lifeCycle = s.lifeCycle ∧ CoresAndMemoryKept s t) ∧
    (s.mode ≠ .safe → s.mode ≠ .powerup → s.sys.job = none →
      (∃ t, exec (.stage n cseq) s = .next t ∧ t.get SYS_SEQ_LASTCMD = cseq % 65536 ∧ CoresAndMemoryKept s t ∧
        t.sys.job = some (.stage (s.rd SYS_CARG0).toNat (s.rd SYS_CARG1).toNat (s.rd SYS_CARG2).toNat)) ∧
      (∃ t, exec (.sysVerify n cseq) s = .next t ∧ t.get SYS_SEQ_LASTCMD = cseq % 65536 ∧ t.sys.job = some .verify ∧
        CoresAndMemoryKept s t) ∧
      (∃ t, exec (.pkgload n cseq) s = .next t ∧ t.get SYS_SEQ_LASTCMD = cseq % 65536 ∧ CoresAndMemoryKept s t ∧
        t.sys.job = some (.pkgload (s.rd SYS_CARG1).toNat (s.rd SYS_CARG2).toNat)) ∧
      (s.bit SYS_BOOT_TRIALV = false → s.sys.verified ≠ none → ∃ t, exec (.install n cseq) s = .next t ∧
        t.get SYS_SEQ_LASTCMD = cseq % 65536 ∧ t.sys.job = some .install ∧ CoresAndMemoryKept s t) ∧
      (∃ t, exec (.activate n cseq) s = .next t ∧ t.Answered SYS_SEQ_LASTCMD SYS_RES_RESULT cseq 0 ∧
        t.bit SYS_BOOT_TRIALV = true ∧ t.get SYS_BOOT_COUNT = 0 ∧ t.bit SYS_BOOT_ACT = s.bit SYS_BOOT_ACT ∧
        OnlyWordsOf bootWords s t ∧ OnlyRegistersOf [0x400, 0x40F] s t)) ∧
    (s.mode.started = true → s.sys.job = none → s.bit SYS_STAT_TRIAL = true → s.bit SYS_BOOT_TRIALV = true →
      ∃ t, exec (.confirm n cseq) s = .next t ∧ t.Answered SYS_SEQ_LASTCMD SYS_RES_RESULT cseq 0 ∧
        t.bit SYS_BOOT_ACT = s.bit SYS_STAT_SLOT ∧ t.bit SYS_BOOT_TRIALV = false ∧ s.get SYS_SVN_FW ≤ t.get SYS_SVN_FW ∧
        s.get SYS_SVN_CFG ≤ t.get SYS_SVN_CFG ∧ OnlyWordsOf bootWords s t ∧ OnlyRegistersOf [0x400, 0x40F] s t)) ∧
  (∀ (n : Nat) (checks : List ImageCrypto) (payload : List Word) (s : State),
    (∀ x, s.sys.job = some .install → s.sys.verified = some x →
      let act := s.bit SYS_BOOT_ACT
      ∃ t, exec (.sysFlashCommandDone n checks payload) s = .next t ∧ t.sys.job = none ∧ t.get SYS_RES_RESULT = 0 ∧
        t.slotContent act = s.slotContent act ∧
        (t.slotContent (!act)).firmware = (match x.firmware with
          | some i => s.stagedWords i
          | none => (s.slotContent act).firmware) ∧
        (t.slotContent (!act)).configuration = (match x.configuration with
          | some i => s.stagedWords i
          | none => ({} : SlotContent).configuration) ∧ CoresAndMemoryKept s t ∧ OnlyRegistersOf [0x400, 0x40F] s t) ∧
    (∀ dst src len, s.sys.job = some (.stage dst src len) → 0xC0000000 < src + len →
      ∃ t, exec (.sysFlashCommandDone n checks payload) s = .next t ∧ t.sys.job = none ∧ t.get SYS_RES_RESULT = 5 ∧
        t.sys.staging = s.sys.staging ∧ CoresAndMemoryKept s t)) ∧
  (∀ (n new : Nat) (s : State), s.sys.advancing = some new → ∃ t, exec (.fuseWriteComplete n) s = .next t ∧
    t.lifeCycle = new % 8 ∧ t.sys.advancing = none ∧ t.sys.authorised = false ∧
    (s.bit CORE_STAT_HALTED = false → CoresAndMemoryKept s t) ∧
    (s.bit CORE_STAT_HALTED = true → t.debugRefused = none ∨ t.bit CORE_STAT_HALTED = false) ∧
    (new = 3 → t.get GIRTH_FCRC_CRC = s.get GIRTH_PCRC_CRC ∧ t.sys.fused.parts = s.sys.parts) ∧
    (new = 5 → t.sys.fused = { s.sys.fused with deviceKey := 2 ^ 384 - 1 }) ∧
    (new ≠ 3 → new ≠ 5 → t.sys.fused = s.sys.fused)) ∧
  (∀ (m : Fin 8) (s : State), ∃ t, exec (.ovselWrite m) s = .next t ∧ t.get SYS_OVSEL_TMODE = m.val ∧
    t = { s with regs := t.regs, sys := { s.sys with asked := true } } ∧ (∀ k, k ≠ SYS_OVSEL → t.rd k = s.rd k))

/-- A slice counts or demands SAFE, a late lap shows, the manual test runs and reports, the panel shows the mode. (15
R505, 15 R507, 15 R508, 15 R509, 16 R539, 02 R59, 00 R7) In a mode with slices: a slice advances DONE, from the last
one of a lap, with its voter exercise done, to 0; one that failed shows its number and detail and demands SAFE with
code 6. A lap over LAPMAX hours shows LATE, with LATESAFE it demands SAFE with code 7. Accepted in STOP in a
life-cycle state for Efmitas, with GO, none running: the manual test of an item up to 13 starts; its end gives result
0, or 3 with the detail. The panel, refreshed every 100 ms, is dark in POWERUP, shows run green in RUN and safe red in
SAFE. A read of CORE_RIC_LO returns the count's low word and latches its high word. The number of slices is an opaque
constant of Config (log entry 27). But for the bank a manual SRAM test clears, no memory word changes, and no core. -/
def Obligations.SelfTestsAndPanel : Prop :=
  (∀ (n : Nat) (slice : BitVec 15) (s : State), s.mode.slices = true →
    s.get BIST_STAT_DONE + 1 < slicesPerLap ∨ s.sys.exercised = true →
    (let done := if s.get BIST_STAT_DONE + 1 < slicesPerLap then s.get BIST_STAT_DONE + 1 else 0
     (∃ t, exec (.bistSlice n slice none) s = .next t ∧ t.get BIST_STAT_DONE = done ∧ t.sys.demands = s.sys.demands ∧
      CoresAndMemoryKept s t ∧ OnlyRegistersOf [0x40F] s t) ∧
     (∀ d, ∃ t, exec (.bistSlice n slice (some d)) s = .next t ∧ t.get BIST_STAT_DONE = done ∧
      t.get BIST_FAIL_SLICE = slice.toNat ∧ t.get BIST_FAIL_DETAIL = d.toNat ∧ t.sys.demands = s.sys.demands ++ [(3, 6)] ∧
      CoresAndMemoryKept s t ∧ OnlyRegistersOf [0x400, 0x40F] s t))) ∧
  (∀ (n from_ : Nat) (s : State), s.sys.lapAt = some from_ → s.bit BIST_STAT_LATE = false →
    from_ + s.get BIST_CFG_LAPMAX * 3600000000000 < (s.advance n).mono → ∃ t, exec (.bistLapLate n) s = .next t ∧
      t.bit BIST_STAT_LATE = true ∧
      t.sys.demands = s.sys.demands ++ (if s.bit BIST_CFG_LATESAFE = true then [(3, 7)] else []) ∧ CoresAndMemoryKept s t ∧
      OnlyRegistersOf [0x400, 0x40F] s t) ∧
  (∀ (n cseq : Nat) (item : Fin 16) (s : State), s.Accepts BIST_MSEQ_LASTCMD cseq → s.mode = .stop →
    s.lifeCycle = 0 ∨ s.lifeCycle = 1 ∨ s.lifeCycle = 4 → item.val ≤ 13 → s.sys.manual = none →
    ∃ t, exec (.bistManualRun n cseq item true) s = .next t ∧ t.get BIST_MSEQ_LASTCMD = cseq % 65536 ∧
      t.sys.manual = some item.val ∧ CoresAndMemoryKept s t ∧ OnlyRegistersOf [0x40F] s t) ∧
  (∀ (n item : Nat) (failed : Option (BitVec 16)) (s : State), s.sys.manual = some item →
    ∃ t, exec (.bistManualDone n failed) s = .next t ∧ t.sys.manual = none ∧
      t.get BIST_MRES_RESULT = (if failed.isSome = true then 3 else 0) ∧
      t.get BIST_MRES_DETAIL = ((failed.map (·.toNat)).getD 0) ∧ t.cx = s.cx ∧ OnlyRegistersOf [0x40F] s t ∧
      (item < 4 ∨ 7 < item → t.mem = s.mem) ∧
      (4 ≤ item → item ≤ 7 → ∀ k, k < (item - 4) * 0x200000 ∨ (item - 3) * 0x200000 ≤ k → t.stored k = s.stored k)) ∧
  (∀ (n : Nat) (a b : Bool) (s : State), (∀ m, s.sys.ledsAt = some m → m + 100000000 ≤ (s.advance n).mono) →
    ∃ t, exec (.ledRefresh n a b) s = .next t ∧
    (s.mode = .powerup → t.sys.leds = {}) ∧ (s.mode = .run → t.sys.leds.run = .green ∧ t.sys.leds.safe = .dark) ∧
    (s.mode = .safe → t.sys.leds.safe = .red ∧ t.sys.leds.run = .dark) ∧ t.regs = s.regs ∧ CoresAndMemoryKept s t) ∧
  (∀ s : State, ∃ t, exec .ricLoRead s = .next t ∧ t.busData = s.cx.ric.setWidth 32 ∧
    t.rd CORE_RIC_HI = BitVec.ofNat 32 (s.cx.ric.toNat / 2 ^ 32) ∧ (∀ k, k ≠ CORE_RIC_HI → t.rd k = s.rd k) ∧
    CoresAndMemoryKept s t)

/-- Every PE bundle that has an encoding decodes from its two words to itself, and every defined pair of words
re-encodes to itself. (07 R244, 07 R245, 07 R246, 07 R248, 07 R249, 07 R250, 07 R251, 07 R252, 07 R255) For every
V-slot and S-slot operation with an encoding (each field at every value it admits), the pair allowed in one bundle,
the words that encode them decode to the pair. For every pair of words that decodes, the two operations have an
encoding, may stand together, and their words are the pair decoded: no bit of a word is dropped. -/
def Obligations.PeBundlesDecodeAsTheyEncode : Prop :=
  (∀ (v : PeVectorSlot) (o : PeSlot), vectorDefined v = true → slotDefined o = true → bundleAllowed v o = true →
    decodeBundle (BitVec.ofNat 32 (encodeVector v)) (BitVec.ofNat 32 (encodeSlot o)) = some (v, o)) ∧
  (∀ (hi lo : Word) (v : PeVectorSlot) (o : PeSlot), decodeBundle hi lo = some (v, o) →
    vectorDefined v = true ∧ slotDefined o = true ∧ bundleAllowed v o = true ∧ encodeVector v = hi.toNat ∧
    encodeSlot o = lo.toNat)

/-- Every step of every command keeps the memory and the registers in their canonical form. (00 R3, 04 R134, 04 R135)
For every state whose memory and whose registers are in canonical form (keys strictly rising, no word listed that
equals what an unlisted key reads as), whatever command stands at the front of the queue, the next state's memory and
registers are in canonical form, so that equal contents are equal data. -/
def Obligations.EveryStepKeepsCanonicalStores : Prop :=
  ∀ s t : State, s.Canonical → step s = .next t → t.Canonical

/-- The state after reset is canonical, waits for commands, is in BOOT, and Girth has no parameters and permits no
output. (00 R4, 00 R12, 08 R277) In the reset state memory and registers are in canonical form, no command waits, the
mode is BOOT, no demand for SAFE is open, Girth is UNLOADED and no safety output is permitted, no safety output
conducts and no trip output is on. -/
def Obligations.ResetIsCanonicalAndWaits : Prop :=
  State.reset.Canonical ∧ State.reset.pending = [] ∧ State.reset.mode = .boot ∧ State.reset.sys.demands = [] ∧
  State.reset.get GIRTH_STAT_STATE = 0 ∧ (∀ j < 4, State.reset.get (GIRTH_SOUT_PERMIT j) = 0) ∧
  State.reset.get GIRTH_STAT_SOUTON = 0 ∧ ∀ k < 4, State.reset.bit (GIRTH_TOUT_ON k) = false
end

