-- ==== Sys2Proof/Laws/Comtrade.lean ====
section
/-!
SUPPORT. Bounds of the lengths of the COMTRADE configuration file's lines (09 R338).
-/

namespace Sys2Proof.Machine

theorem digitsFrom_length (fuel n : Nat) (acc : List Nat) : (digitsFrom fuel n acc).length ≤ fuel + acc.length := by
  induction fuel generalizing n acc with
  | zero => simp [digitsFrom]
  | succ k ih =>
    unfold digitsFrom
    split
    · simp only [List.length_cons]; omega
    · have := ih (n / 10) ((48 + n % 10) :: acc)
      simp only [List.length_cons] at this; omega

theorem decimal_length (n : Nat) : (decimal n).length ≤ 24 := digitsFrom_length 24 n []

theorem csvLine_length (l : List (List Nat)) : (csvLine l).length ≤ (l.map fun x => x.length + 1).sum + 2 := by
  induction l with
  | nil => simp [csvLine, crlf]
  | cons a t ih =>
    cases t with
    | nil => simp [csvLine, crlf]
    | cons b t => simp only [csvLine, List.length_append, List.map_cons, List.sum_cons, List.length_cons, List.length_nil] at *; omega

theorem scaleItem_length (w : Word) : (scaleItem w).length ≤ 32 := List.length_take_le ..

theorem ascii_length (x : String) : (ascii x).length = x.toList.length := by simp [ascii]

theorem digitalItem_length (b : Nat) : (digitalItem b).length ≤ 128 := by
  have h := fun n => decimal_length n
  unfold digitalItem
  have e : ∀ (pre post : String) (n : Nat), pre.toList.length + post.toList.length ≤ 100 →
      (ascii pre ++ decimal n ++ ascii post).length ≤ 128 := by
    intro pre post n hl
    have := h n
    simp only [List.length_append, ascii_length]; omega
  have f : ∀ x : String, x.toList.length ≤ 128 → (ascii x).length ≤ 128 := fun x hx => by rw [ascii_length]; exact hx
  dsimp only
  repeat' split
  all_goals first
    | exact e _ _ _ (by decide)
    | exact f _ (by decide)

/-- The lines of the digital channels. -/
theorem digitalLines_length (l : List Nat) :
    (l.flatMap fun b => csvLine [decimal (b + 1), digitalItem b, [], [], ascii "0"]).length ≤ l.length * 160 := by
  induction l with
  | nil => simp
  | cons b t ih =>
    have h := csvLine_length [decimal (b + 1), digitalItem b, [], [], ascii "0"]
    have := decimal_length (b + 1)
    have := digitalItem_length b
    have : (ascii "0").length = 1 := by decide
    simp only [List.map_cons, List.map_nil, List.sum_cons, List.sum_nil, List.length_nil] at h
    simp only [List.flatMap_cons, List.length_append, List.length_cons]
    omega

/-- The lines of the analogue channels, where no unit is declared. -/
theorem analogueLines_length (scales : List Word) (l : List Nat) : (l.flatMap (analogueLine scales [])).length ≤ l.length * 120 := by
  induction l with
  | nil => simp
  | cons ch t ih =>
    have h := csvLine_length [decimal (ch + 1), ascii "AFE" ++ padded 2 ch, [], [], (([] : List (List Nat))[ch]?).getD [],
      scaleItem ((scales[ch]?).getD 0#32), ascii "0", ascii "0", ascii "-3.4E38", ascii "3.4E38", ascii "1", ascii "1", ascii "P"]
    have := decimal_length (ch + 1)
    have := scaleItem_length ((scales[ch]?).getD 0#32)
    have e : ∀ x, (padded 2 x).length = 2 := fun x => by simp [padded]
    have h0 : (ascii "0").length = 1 ∧ (ascii "1").length = 1 ∧ (ascii "P").length = 1 ∧ (ascii "-3.4E38").length = 7 ∧
      (ascii "3.4E38").length = 6 ∧ (ascii "AFE").length = 3 := by decide
    simp only [List.map_cons, List.map_nil, List.sum_cons, List.sum_nil, List.length_nil, List.length_append, e, List.getElem?_nil,
      Option.getD_none] at h
    simp only [List.flatMap_cons, List.length_append, List.length_cons, analogueLine, List.getElem?_nil, Option.getD_none] at ih ⊢
    omega

end Sys2Proof.Machine
end

