-- ==== Sys2Proof/Laws/State.lean ====
section
/-!
SUPPORT. One law per field of State per named update: what the update leaves, by computation.
-/

namespace Sys2Proof.Machine

variable (s : State)

/-! ### `wr` -/

@[simp] theorem State.wr_regs (k : Nat) (v : Word) : (s.wr k v).regs = CMap.put resetOf s.regs k v := rfl
@[simp] theorem State.wr_mem (k : Nat) (v : Word) : (s.wr k v).mem = s.mem := rfl
@[simp] theorem State.wr_cx (k : Nat) (v : Word) : (s.wr k v).cx = s.cx := rfl
@[simp] theorem State.wr_sc0 (k : Nat) (v : Word) : (s.wr k v).sc0 = s.sc0 := rfl
@[simp] theorem State.wr_sc1 (k : Nat) (v : Word) : (s.wr k v).sc1 = s.sc1 := rfl
@[simp] theorem State.wr_core (k : Nat) (v : Word) : (s.wr k v).core = s.core := rfl
@[simp] theorem State.wr_memb (k : Nat) (v : Word) : (s.wr k v).memb = s.memb := rfl
@[simp] theorem State.wr_cyc (k : Nat) (v : Word) : (s.wr k v).cyc = s.cyc := rfl
@[simp] theorem State.wr_afe (k : Nat) (v : Word) : (s.wr k v).afe = s.afe := rfl
@[simp] theorem State.wr_pe (k : Nat) (v : Word) : (s.wr k v).pe = s.pe := rfl
@[simp] theorem State.wr_girth (k : Nat) (v : Word) : (s.wr k v).girth = s.girth := rfl
@[simp] theorem State.wr_recb (k : Nat) (v : Word) : (s.wr k v).recb = s.recb := rfl
@[simp] theorem State.wr_fio (k : Nat) (v : Word) : (s.wr k v).fio = s.fio := rfl
@[simp] theorem State.wr_alp (k : Nat) (v : Word) : (s.wr k v).alp = s.alp := rfl
@[simp] theorem State.wr_net (k : Nat) (v : Word) : (s.wr k v).net = s.net := rfl
@[simp] theorem State.wr_time (k : Nat) (v : Word) : (s.wr k v).time = s.time := rfl
@[simp] theorem State.wr_oct (k : Nat) (v : Word) : (s.wr k v).oct = s.oct := rfl
@[simp] theorem State.wr_brg (k : Nat) (v : Word) : (s.wr k v).brg = s.brg := rfl
@[simp] theorem State.wr_pair (k : Nat) (v : Word) : (s.wr k v).pair = s.pair := rfl
@[simp] theorem State.wr_sys (k : Nat) (v : Word) : (s.wr k v).sys = s.sys := rfl
@[simp] theorem State.wr_flash (k : Nat) (v : Word) : (s.wr k v).flash = s.flash := rfl
@[simp] theorem State.wr_flashBad (k : Nat) (v : Word) : (s.wr k v).flashBad = s.flashBad := rfl
@[simp] theorem State.wr_netbuf (k : Nat) (v : Word) : (s.wr k v).netbuf = s.netbuf := rfl
@[simp] theorem State.wr_mono (k : Nat) (v : Word) : (s.wr k v).mono = s.mono := rfl
@[simp] theorem State.wr_sync (k : Nat) (v : Word) : (s.wr k v).sync = s.sync := rfl
@[simp] theorem State.wr_emitted (k : Nat) (v : Word) : (s.wr k v).emitted = s.emitted := rfl
@[simp] theorem State.wr_busData (k : Nat) (v : Word) : (s.wr k v).busData = s.busData := rfl
@[simp] theorem State.wr_busError (k : Nat) (v : Word) : (s.wr k v).busError = s.busError := rfl
@[simp] theorem State.wr_free (k : Nat) (v : Word) : (s.wr k v).free = s.free := rfl
@[simp] theorem State.wr_pending (k : Nat) (v : Word) : (s.wr k v).pending = s.pending := rfl

/-! ### `set` -/

@[simp] theorem State.set_mem (f : Fld) (v : Nat) : (s.set f v).mem = s.mem := rfl
@[simp] theorem State.set_cx (f : Fld) (v : Nat) : (s.set f v).cx = s.cx := rfl
@[simp] theorem State.set_sc0 (f : Fld) (v : Nat) : (s.set f v).sc0 = s.sc0 := rfl
@[simp] theorem State.set_sc1 (f : Fld) (v : Nat) : (s.set f v).sc1 = s.sc1 := rfl
@[simp] theorem State.set_core (f : Fld) (v : Nat) : (s.set f v).core = s.core := rfl
@[simp] theorem State.set_memb (f : Fld) (v : Nat) : (s.set f v).memb = s.memb := rfl
@[simp] theorem State.set_cyc (f : Fld) (v : Nat) : (s.set f v).cyc = s.cyc := rfl
@[simp] theorem State.set_afe (f : Fld) (v : Nat) : (s.set f v).afe = s.afe := rfl
@[simp] theorem State.set_pe (f : Fld) (v : Nat) : (s.set f v).pe = s.pe := rfl
@[simp] theorem State.set_girth (f : Fld) (v : Nat) : (s.set f v).girth = s.girth := rfl
@[simp] theorem State.set_recb (f : Fld) (v : Nat) : (s.set f v).recb = s.recb := rfl
@[simp] theorem State.set_fio (f : Fld) (v : Nat) : (s.set f v).fio = s.fio := rfl
@[simp] theorem State.set_alp (f : Fld) (v : Nat) : (s.set f v).alp = s.alp := rfl
@[simp] theorem State.set_net (f : Fld) (v : Nat) : (s.set f v).net = s.net := rfl
@[simp] theorem State.set_time (f : Fld) (v : Nat) : (s.set f v).time = s.time := rfl
@[simp] theorem State.set_oct (f : Fld) (v : Nat) : (s.set f v).oct = s.oct := rfl
@[simp] theorem State.set_brg (f : Fld) (v : Nat) : (s.set f v).brg = s.brg := rfl
@[simp] theorem State.set_pair (f : Fld) (v : Nat) : (s.set f v).pair = s.pair := rfl
@[simp] theorem State.set_sys (f : Fld) (v : Nat) : (s.set f v).sys = s.sys := rfl
@[simp] theorem State.set_flash (f : Fld) (v : Nat) : (s.set f v).flash = s.flash := rfl
@[simp] theorem State.set_flashBad (f : Fld) (v : Nat) : (s.set f v).flashBad = s.flashBad := rfl
@[simp] theorem State.set_netbuf (f : Fld) (v : Nat) : (s.set f v).netbuf = s.netbuf := rfl
@[simp] theorem State.set_mono (f : Fld) (v : Nat) : (s.set f v).mono = s.mono := rfl
@[simp] theorem State.set_sync (f : Fld) (v : Nat) : (s.set f v).sync = s.sync := rfl
@[simp] theorem State.set_emitted (f : Fld) (v : Nat) : (s.set f v).emitted = s.emitted := rfl
@[simp] theorem State.set_busData (f : Fld) (v : Nat) : (s.set f v).busData = s.busData := rfl
@[simp] theorem State.set_busError (f : Fld) (v : Nat) : (s.set f v).busError = s.busError := rfl
@[simp] theorem State.set_free (f : Fld) (v : Nat) : (s.set f v).free = s.free := rfl
@[simp] theorem State.set_pending (f : Fld) (v : Nat) : (s.set f v).pending = s.pending := rfl

/-! ### `setBit` -/

@[simp] theorem State.setBit_mem (f : Fld) (b : Bool) : (s.setBit f b).mem = s.mem := rfl
@[simp] theorem State.setBit_cx (f : Fld) (b : Bool) : (s.setBit f b).cx = s.cx := rfl
@[simp] theorem State.setBit_sc0 (f : Fld) (b : Bool) : (s.setBit f b).sc0 = s.sc0 := rfl
@[simp] theorem State.setBit_sc1 (f : Fld) (b : Bool) : (s.setBit f b).sc1 = s.sc1 := rfl
@[simp] theorem State.setBit_core (f : Fld) (b : Bool) : (s.setBit f b).core = s.core := rfl
@[simp] theorem State.setBit_memb (f : Fld) (b : Bool) : (s.setBit f b).memb = s.memb := rfl
@[simp] theorem State.setBit_cyc (f : Fld) (b : Bool) : (s.setBit f b).cyc = s.cyc := rfl
@[simp] theorem State.setBit_afe (f : Fld) (b : Bool) : (s.setBit f b).afe = s.afe := rfl
@[simp] theorem State.setBit_pe (f : Fld) (b : Bool) : (s.setBit f b).pe = s.pe := rfl
@[simp] theorem State.setBit_girth (f : Fld) (b : Bool) : (s.setBit f b).girth = s.girth := rfl
@[simp] theorem State.setBit_recb (f : Fld) (b : Bool) : (s.setBit f b).recb = s.recb := rfl
@[simp] theorem State.setBit_fio (f : Fld) (b : Bool) : (s.setBit f b).fio = s.fio := rfl
@[simp] theorem State.setBit_alp (f : Fld) (b : Bool) : (s.setBit f b).alp = s.alp := rfl
@[simp] theorem State.setBit_net (f : Fld) (b : Bool) : (s.setBit f b).net = s.net := rfl
@[simp] theorem State.setBit_time (f : Fld) (b : Bool) : (s.setBit f b).time = s.time := rfl
@[simp] theorem State.setBit_oct (f : Fld) (b : Bool) : (s.setBit f b).oct = s.oct := rfl
@[simp] theorem State.setBit_brg (f : Fld) (b : Bool) : (s.setBit f b).brg = s.brg := rfl
@[simp] theorem State.setBit_pair (f : Fld) (b : Bool) : (s.setBit f b).pair = s.pair := rfl
@[simp] theorem State.setBit_sys (f : Fld) (b : Bool) : (s.setBit f b).sys = s.sys := rfl
@[simp] theorem State.setBit_flash (f : Fld) (b : Bool) : (s.setBit f b).flash = s.flash := rfl
@[simp] theorem State.setBit_flashBad (f : Fld) (b : Bool) : (s.setBit f b).flashBad = s.flashBad := rfl
@[simp] theorem State.setBit_netbuf (f : Fld) (b : Bool) : (s.setBit f b).netbuf = s.netbuf := rfl
@[simp] theorem State.setBit_mono (f : Fld) (b : Bool) : (s.setBit f b).mono = s.mono := rfl
@[simp] theorem State.setBit_sync (f : Fld) (b : Bool) : (s.setBit f b).sync = s.sync := rfl
@[simp] theorem State.setBit_emitted (f : Fld) (b : Bool) : (s.setBit f b).emitted = s.emitted := rfl
@[simp] theorem State.setBit_busData (f : Fld) (b : Bool) : (s.setBit f b).busData = s.busData := rfl
@[simp] theorem State.setBit_busError (f : Fld) (b : Bool) : (s.setBit f b).busError = s.busError := rfl
@[simp] theorem State.setBit_free (f : Fld) (b : Bool) : (s.setBit f b).free = s.free := rfl
@[simp] theorem State.setBit_pending (f : Fld) (b : Bool) : (s.setBit f b).pending = s.pending := rfl

/-! ### `sset` -/

@[simp] theorem State.sset_mem (f : Fld) (v : Int) : (s.sset f v).mem = s.mem := rfl
@[simp] theorem State.sset_cx (f : Fld) (v : Int) : (s.sset f v).cx = s.cx := rfl
@[simp] theorem State.sset_sc0 (f : Fld) (v : Int) : (s.sset f v).sc0 = s.sc0 := rfl
@[simp] theorem State.sset_sc1 (f : Fld) (v : Int) : (s.sset f v).sc1 = s.sc1 := rfl
@[simp] theorem State.sset_core (f : Fld) (v : Int) : (s.sset f v).core = s.core := rfl
@[simp] theorem State.sset_memb (f : Fld) (v : Int) : (s.sset f v).memb = s.memb := rfl
@[simp] theorem State.sset_cyc (f : Fld) (v : Int) : (s.sset f v).cyc = s.cyc := rfl
@[simp] theorem State.sset_afe (f : Fld) (v : Int) : (s.sset f v).afe = s.afe := rfl
@[simp] theorem State.sset_pe (f : Fld) (v : Int) : (s.sset f v).pe = s.pe := rfl
@[simp] theorem State.sset_girth (f : Fld) (v : Int) : (s.sset f v).girth = s.girth := rfl
@[simp] theorem State.sset_recb (f : Fld) (v : Int) : (s.sset f v).recb = s.recb := rfl
@[simp] theorem State.sset_fio (f : Fld) (v : Int) : (s.sset f v).fio = s.fio := rfl
@[simp] theorem State.sset_alp (f : Fld) (v : Int) : (s.sset f v).alp = s.alp := rfl
@[simp] theorem State.sset_net (f : Fld) (v : Int) : (s.sset f v).net = s.net := rfl
@[simp] theorem State.sset_time (f : Fld) (v : Int) : (s.sset f v).time = s.time := rfl
@[simp] theorem State.sset_oct (f : Fld) (v : Int) : (s.sset f v).oct = s.oct := rfl
@[simp] theorem State.sset_brg (f : Fld) (v : Int) : (s.sset f v).brg = s.brg := rfl
@[simp] theorem State.sset_pair (f : Fld) (v : Int) : (s.sset f v).pair = s.pair := rfl
@[simp] theorem State.sset_sys (f : Fld) (v : Int) : (s.sset f v).sys = s.sys := rfl
@[simp] theorem State.sset_flash (f : Fld) (v : Int) : (s.sset f v).flash = s.flash := rfl
@[simp] theorem State.sset_flashBad (f : Fld) (v : Int) : (s.sset f v).flashBad = s.flashBad := rfl
@[simp] theorem State.sset_netbuf (f : Fld) (v : Int) : (s.sset f v).netbuf = s.netbuf := rfl
@[simp] theorem State.sset_mono (f : Fld) (v : Int) : (s.sset f v).mono = s.mono := rfl
@[simp] theorem State.sset_sync (f : Fld) (v : Int) : (s.sset f v).sync = s.sync := rfl
@[simp] theorem State.sset_emitted (f : Fld) (v : Int) : (s.sset f v).emitted = s.emitted := rfl
@[simp] theorem State.sset_busData (f : Fld) (v : Int) : (s.sset f v).busData = s.busData := rfl
@[simp] theorem State.sset_busError (f : Fld) (v : Int) : (s.sset f v).busError = s.busError := rfl
@[simp] theorem State.sset_free (f : Fld) (v : Int) : (s.sset f v).free = s.free := rfl
@[simp] theorem State.sset_pending (f : Fld) (v : Int) : (s.sset f v).pending = s.pending := rfl

/-! ### `inc` -/

@[simp] theorem State.inc_mem (f : Fld) (n : Nat) : (s.inc f n).mem = s.mem := rfl
@[simp] theorem State.inc_cx (f : Fld) (n : Nat) : (s.inc f n).cx = s.cx := rfl
@[simp] theorem State.inc_sc0 (f : Fld) (n : Nat) : (s.inc f n).sc0 = s.sc0 := rfl
@[simp] theorem State.inc_sc1 (f : Fld) (n : Nat) : (s.inc f n).sc1 = s.sc1 := rfl
@[simp] theorem State.inc_core (f : Fld) (n : Nat) : (s.inc f n).core = s.core := rfl
@[simp] theorem State.inc_memb (f : Fld) (n : Nat) : (s.inc f n).memb = s.memb := rfl
@[simp] theorem State.inc_cyc (f : Fld) (n : Nat) : (s.inc f n).cyc = s.cyc := rfl
@[simp] theorem State.inc_afe (f : Fld) (n : Nat) : (s.inc f n).afe = s.afe := rfl
@[simp] theorem State.inc_pe (f : Fld) (n : Nat) : (s.inc f n).pe = s.pe := rfl
@[simp] theorem State.inc_girth (f : Fld) (n : Nat) : (s.inc f n).girth = s.girth := rfl
@[simp] theorem State.inc_recb (f : Fld) (n : Nat) : (s.inc f n).recb = s.recb := rfl
@[simp] theorem State.inc_fio (f : Fld) (n : Nat) : (s.inc f n).fio = s.fio := rfl
@[simp] theorem State.inc_alp (f : Fld) (n : Nat) : (s.inc f n).alp = s.alp := rfl
@[simp] theorem State.inc_net (f : Fld) (n : Nat) : (s.inc f n).net = s.net := rfl
@[simp] theorem State.inc_time (f : Fld) (n : Nat) : (s.inc f n).time = s.time := rfl
@[simp] theorem State.inc_oct (f : Fld) (n : Nat) : (s.inc f n).oct = s.oct := rfl
@[simp] theorem State.inc_brg (f : Fld) (n : Nat) : (s.inc f n).brg = s.brg := rfl
@[simp] theorem State.inc_pair (f : Fld) (n : Nat) : (s.inc f n).pair = s.pair := rfl
@[simp] theorem State.inc_sys (f : Fld) (n : Nat) : (s.inc f n).sys = s.sys := rfl
@[simp] theorem State.inc_flash (f : Fld) (n : Nat) : (s.inc f n).flash = s.flash := rfl
@[simp] theorem State.inc_flashBad (f : Fld) (n : Nat) : (s.inc f n).flashBad = s.flashBad := rfl
@[simp] theorem State.inc_netbuf (f : Fld) (n : Nat) : (s.inc f n).netbuf = s.netbuf := rfl
@[simp] theorem State.inc_mono (f : Fld) (n : Nat) : (s.inc f n).mono = s.mono := rfl
@[simp] theorem State.inc_sync (f : Fld) (n : Nat) : (s.inc f n).sync = s.sync := rfl
@[simp] theorem State.inc_emitted (f : Fld) (n : Nat) : (s.inc f n).emitted = s.emitted := rfl
@[simp] theorem State.inc_busData (f : Fld) (n : Nat) : (s.inc f n).busData = s.busData := rfl
@[simp] theorem State.inc_busError (f : Fld) (n : Nat) : (s.inc f n).busError = s.busError := rfl
@[simp] theorem State.inc_free (f : Fld) (n : Nat) : (s.inc f n).free = s.free := rfl
@[simp] theorem State.inc_pending (f : Fld) (n : Nat) : (s.inc f n).pending = s.pending := rfl

/-! ### `withCore` -/

@[simp] theorem State.withCore_regs (g : CoreBlock → CoreBlock) : (s.withCore g).regs = s.regs := rfl
@[simp] theorem State.withCore_mem (g : CoreBlock → CoreBlock) : (s.withCore g).mem = s.mem := rfl
@[simp] theorem State.withCore_cx (g : CoreBlock → CoreBlock) : (s.withCore g).cx = s.cx := rfl
@[simp] theorem State.withCore_sc0 (g : CoreBlock → CoreBlock) : (s.withCore g).sc0 = s.sc0 := rfl
@[simp] theorem State.withCore_sc1 (g : CoreBlock → CoreBlock) : (s.withCore g).sc1 = s.sc1 := rfl
@[simp] theorem State.withCore_core (g : CoreBlock → CoreBlock) : (s.withCore g).core = g s.core := rfl
@[simp] theorem State.withCore_memb (g : CoreBlock → CoreBlock) : (s.withCore g).memb = s.memb := rfl
@[simp] theorem State.withCore_cyc (g : CoreBlock → CoreBlock) : (s.withCore g).cyc = s.cyc := rfl
@[simp] theorem State.withCore_afe (g : CoreBlock → CoreBlock) : (s.withCore g).afe = s.afe := rfl
@[simp] theorem State.withCore_pe (g : CoreBlock → CoreBlock) : (s.withCore g).pe = s.pe := rfl
@[simp] theorem State.withCore_girth (g : CoreBlock → CoreBlock) : (s.withCore g).girth = s.girth := rfl
@[simp] theorem State.withCore_recb (g : CoreBlock → CoreBlock) : (s.withCore g).recb = s.recb := rfl
@[simp] theorem State.withCore_fio (g : CoreBlock → CoreBlock) : (s.withCore g).fio = s.fio := rfl
@[simp] theorem State.withCore_alp (g : CoreBlock → CoreBlock) : (s.withCore g).alp = s.alp := rfl
@[simp] theorem State.withCore_net (g : CoreBlock → CoreBlock) : (s.withCore g).net = s.net := rfl
@[simp] theorem State.withCore_time (g : CoreBlock → CoreBlock) : (s.withCore g).time = s.time := rfl
@[simp] theorem State.withCore_oct (g : CoreBlock → CoreBlock) : (s.withCore g).oct = s.oct := rfl
@[simp] theorem State.withCore_brg (g : CoreBlock → CoreBlock) : (s.withCore g).brg = s.brg := rfl
@[simp] theorem State.withCore_pair (g : CoreBlock → CoreBlock) : (s.withCore g).pair = s.pair := rfl
@[simp] theorem State.withCore_sys (g : CoreBlock → CoreBlock) : (s.withCore g).sys = s.sys := rfl
@[simp] theorem State.withCore_flash (g : CoreBlock → CoreBlock) : (s.withCore g).flash = s.flash := rfl
@[simp] theorem State.withCore_flashBad (g : CoreBlock → CoreBlock) : (s.withCore g).flashBad = s.flashBad := rfl
@[simp] theorem State.withCore_netbuf (g : CoreBlock → CoreBlock) : (s.withCore g).netbuf = s.netbuf := rfl
@[simp] theorem State.withCore_mono (g : CoreBlock → CoreBlock) : (s.withCore g).mono = s.mono := rfl
@[simp] theorem State.withCore_sync (g : CoreBlock → CoreBlock) : (s.withCore g).sync = s.sync := rfl
@[simp] theorem State.withCore_emitted (g : CoreBlock → CoreBlock) : (s.withCore g).emitted = s.emitted := rfl
@[simp] theorem State.withCore_busData (g : CoreBlock → CoreBlock) : (s.withCore g).busData = s.busData := rfl
@[simp] theorem State.withCore_busError (g : CoreBlock → CoreBlock) : (s.withCore g).busError = s.busError := rfl
@[simp] theorem State.withCore_free (g : CoreBlock → CoreBlock) : (s.withCore g).free = s.free := rfl
@[simp] theorem State.withCore_pending (g : CoreBlock → CoreBlock) : (s.withCore g).pending = s.pending := rfl

/-! ### `withMem` -/

@[simp] theorem State.withMem_regs (g : MemBlock → MemBlock) : (s.withMem g).regs = s.regs := rfl
@[simp] theorem State.withMem_mem (g : MemBlock → MemBlock) : (s.withMem g).mem = s.mem := rfl
@[simp] theorem State.withMem_cx (g : MemBlock → MemBlock) : (s.withMem g).cx = s.cx := rfl
@[simp] theorem State.withMem_sc0 (g : MemBlock → MemBlock) : (s.withMem g).sc0 = s.sc0 := rfl
@[simp] theorem State.withMem_sc1 (g : MemBlock → MemBlock) : (s.withMem g).sc1 = s.sc1 := rfl
@[simp] theorem State.withMem_core (g : MemBlock → MemBlock) : (s.withMem g).core = s.core := rfl
@[simp] theorem State.withMem_memb (g : MemBlock → MemBlock) : (s.withMem g).memb = g s.memb := rfl
@[simp] theorem State.withMem_cyc (g : MemBlock → MemBlock) : (s.withMem g).cyc = s.cyc := rfl
@[simp] theorem State.withMem_afe (g : MemBlock → MemBlock) : (s.withMem g).afe = s.afe := rfl
@[simp] theorem State.withMem_pe (g : MemBlock → MemBlock) : (s.withMem g).pe = s.pe := rfl
@[simp] theorem State.withMem_girth (g : MemBlock → MemBlock) : (s.withMem g).girth = s.girth := rfl
@[simp] theorem State.withMem_recb (g : MemBlock → MemBlock) : (s.withMem g).recb = s.recb := rfl
@[simp] theorem State.withMem_fio (g : MemBlock → MemBlock) : (s.withMem g).fio = s.fio := rfl
@[simp] theorem State.withMem_alp (g : MemBlock → MemBlock) : (s.withMem g).alp = s.alp := rfl
@[simp] theorem State.withMem_net (g : MemBlock → MemBlock) : (s.withMem g).net = s.net := rfl
@[simp] theorem State.withMem_time (g : MemBlock → MemBlock) : (s.withMem g).time = s.time := rfl
@[simp] theorem State.withMem_oct (g : MemBlock → MemBlock) : (s.withMem g).oct = s.oct := rfl
@[simp] theorem State.withMem_brg (g : MemBlock → MemBlock) : (s.withMem g).brg = s.brg := rfl
@[simp] theorem State.withMem_pair (g : MemBlock → MemBlock) : (s.withMem g).pair = s.pair := rfl
@[simp] theorem State.withMem_sys (g : MemBlock → MemBlock) : (s.withMem g).sys = s.sys := rfl
@[simp] theorem State.withMem_flash (g : MemBlock → MemBlock) : (s.withMem g).flash = s.flash := rfl
@[simp] theorem State.withMem_flashBad (g : MemBlock → MemBlock) : (s.withMem g).flashBad = s.flashBad := rfl
@[simp] theorem State.withMem_netbuf (g : MemBlock → MemBlock) : (s.withMem g).netbuf = s.netbuf := rfl
@[simp] theorem State.withMem_mono (g : MemBlock → MemBlock) : (s.withMem g).mono = s.mono := rfl
@[simp] theorem State.withMem_sync (g : MemBlock → MemBlock) : (s.withMem g).sync = s.sync := rfl
@[simp] theorem State.withMem_emitted (g : MemBlock → MemBlock) : (s.withMem g).emitted = s.emitted := rfl
@[simp] theorem State.withMem_busData (g : MemBlock → MemBlock) : (s.withMem g).busData = s.busData := rfl
@[simp] theorem State.withMem_busError (g : MemBlock → MemBlock) : (s.withMem g).busError = s.busError := rfl
@[simp] theorem State.withMem_free (g : MemBlock → MemBlock) : (s.withMem g).free = s.free := rfl
@[simp] theorem State.withMem_pending (g : MemBlock → MemBlock) : (s.withMem g).pending = s.pending := rfl

/-! ### `withCyc` -/

@[simp] theorem State.withCyc_regs (g : CycBlock → CycBlock) : (s.withCyc g).regs = s.regs := rfl
@[simp] theorem State.withCyc_mem (g : CycBlock → CycBlock) : (s.withCyc g).mem = s.mem := rfl
@[simp] theorem State.withCyc_cx (g : CycBlock → CycBlock) : (s.withCyc g).cx = s.cx := rfl
@[simp] theorem State.withCyc_sc0 (g : CycBlock → CycBlock) : (s.withCyc g).sc0 = s.sc0 := rfl
@[simp] theorem State.withCyc_sc1 (g : CycBlock → CycBlock) : (s.withCyc g).sc1 = s.sc1 := rfl
@[simp] theorem State.withCyc_core (g : CycBlock → CycBlock) : (s.withCyc g).core = s.core := rfl
@[simp] theorem State.withCyc_memb (g : CycBlock → CycBlock) : (s.withCyc g).memb = s.memb := rfl
@[simp] theorem State.withCyc_cyc (g : CycBlock → CycBlock) : (s.withCyc g).cyc = g s.cyc := rfl
@[simp] theorem State.withCyc_afe (g : CycBlock → CycBlock) : (s.withCyc g).afe = s.afe := rfl
@[simp] theorem State.withCyc_pe (g : CycBlock → CycBlock) : (s.withCyc g).pe = s.pe := rfl
@[simp] theorem State.withCyc_girth (g : CycBlock → CycBlock) : (s.withCyc g).girth = s.girth := rfl
@[simp] theorem State.withCyc_recb (g : CycBlock → CycBlock) : (s.withCyc g).recb = s.recb := rfl
@[simp] theorem State.withCyc_fio (g : CycBlock → CycBlock) : (s.withCyc g).fio = s.fio := rfl
@[simp] theorem State.withCyc_alp (g : CycBlock → CycBlock) : (s.withCyc g).alp = s.alp := rfl
@[simp] theorem State.withCyc_net (g : CycBlock → CycBlock) : (s.withCyc g).net = s.net := rfl
@[simp] theorem State.withCyc_time (g : CycBlock → CycBlock) : (s.withCyc g).time = s.time := rfl
@[simp] theorem State.withCyc_oct (g : CycBlock → CycBlock) : (s.withCyc g).oct = s.oct := rfl
@[simp] theorem State.withCyc_brg (g : CycBlock → CycBlock) : (s.withCyc g).brg = s.brg := rfl
@[simp] theorem State.withCyc_pair (g : CycBlock → CycBlock) : (s.withCyc g).pair = s.pair := rfl
@[simp] theorem State.withCyc_sys (g : CycBlock → CycBlock) : (s.withCyc g).sys = s.sys := rfl
@[simp] theorem State.withCyc_flash (g : CycBlock → CycBlock) : (s.withCyc g).flash = s.flash := rfl
@[simp] theorem State.withCyc_flashBad (g : CycBlock → CycBlock) : (s.withCyc g).flashBad = s.flashBad := rfl
@[simp] theorem State.withCyc_netbuf (g : CycBlock → CycBlock) : (s.withCyc g).netbuf = s.netbuf := rfl
@[simp] theorem State.withCyc_mono (g : CycBlock → CycBlock) : (s.withCyc g).mono = s.mono := rfl
@[simp] theorem State.withCyc_sync (g : CycBlock → CycBlock) : (s.withCyc g).sync = s.sync := rfl
@[simp] theorem State.withCyc_emitted (g : CycBlock → CycBlock) : (s.withCyc g).emitted = s.emitted := rfl
@[simp] theorem State.withCyc_busData (g : CycBlock → CycBlock) : (s.withCyc g).busData = s.busData := rfl
@[simp] theorem State.withCyc_busError (g : CycBlock → CycBlock) : (s.withCyc g).busError = s.busError := rfl
@[simp] theorem State.withCyc_free (g : CycBlock → CycBlock) : (s.withCyc g).free = s.free := rfl
@[simp] theorem State.withCyc_pending (g : CycBlock → CycBlock) : (s.withCyc g).pending = s.pending := rfl

/-! ### `withAfe` -/

@[simp] theorem State.withAfe_regs (g : AfeBlock → AfeBlock) : (s.withAfe g).regs = s.regs := rfl
@[simp] theorem State.withAfe_mem (g : AfeBlock → AfeBlock) : (s.withAfe g).mem = s.mem := rfl
@[simp] theorem State.withAfe_cx (g : AfeBlock → AfeBlock) : (s.withAfe g).cx = s.cx := rfl
@[simp] theorem State.withAfe_sc0 (g : AfeBlock → AfeBlock) : (s.withAfe g).sc0 = s.sc0 := rfl
@[simp] theorem State.withAfe_sc1 (g : AfeBlock → AfeBlock) : (s.withAfe g).sc1 = s.sc1 := rfl
@[simp] theorem State.withAfe_core (g : AfeBlock → AfeBlock) : (s.withAfe g).core = s.core := rfl
@[simp] theorem State.withAfe_memb (g : AfeBlock → AfeBlock) : (s.withAfe g).memb = s.memb := rfl
@[simp] theorem State.withAfe_cyc (g : AfeBlock → AfeBlock) : (s.withAfe g).cyc = s.cyc := rfl
@[simp] theorem State.withAfe_afe (g : AfeBlock → AfeBlock) : (s.withAfe g).afe = g s.afe := rfl
@[simp] theorem State.withAfe_pe (g : AfeBlock → AfeBlock) : (s.withAfe g).pe = s.pe := rfl
@[simp] theorem State.withAfe_girth (g : AfeBlock → AfeBlock) : (s.withAfe g).girth = s.girth := rfl
@[simp] theorem State.withAfe_recb (g : AfeBlock → AfeBlock) : (s.withAfe g).recb = s.recb := rfl
@[simp] theorem State.withAfe_fio (g : AfeBlock → AfeBlock) : (s.withAfe g).fio = s.fio := rfl
@[simp] theorem State.withAfe_alp (g : AfeBlock → AfeBlock) : (s.withAfe g).alp = s.alp := rfl
@[simp] theorem State.withAfe_net (g : AfeBlock → AfeBlock) : (s.withAfe g).net = s.net := rfl
@[simp] theorem State.withAfe_time (g : AfeBlock → AfeBlock) : (s.withAfe g).time = s.time := rfl
@[simp] theorem State.withAfe_oct (g : AfeBlock → AfeBlock) : (s.withAfe g).oct = s.oct := rfl
@[simp] theorem State.withAfe_brg (g : AfeBlock → AfeBlock) : (s.withAfe g).brg = s.brg := rfl
@[simp] theorem State.withAfe_pair (g : AfeBlock → AfeBlock) : (s.withAfe g).pair = s.pair := rfl
@[simp] theorem State.withAfe_sys (g : AfeBlock → AfeBlock) : (s.withAfe g).sys = s.sys := rfl
@[simp] theorem State.withAfe_flash (g : AfeBlock → AfeBlock) : (s.withAfe g).flash = s.flash := rfl
@[simp] theorem State.withAfe_flashBad (g : AfeBlock → AfeBlock) : (s.withAfe g).flashBad = s.flashBad := rfl
@[simp] theorem State.withAfe_netbuf (g : AfeBlock → AfeBlock) : (s.withAfe g).netbuf = s.netbuf := rfl
@[simp] theorem State.withAfe_mono (g : AfeBlock → AfeBlock) : (s.withAfe g).mono = s.mono := rfl
@[simp] theorem State.withAfe_sync (g : AfeBlock → AfeBlock) : (s.withAfe g).sync = s.sync := rfl
@[simp] theorem State.withAfe_emitted (g : AfeBlock → AfeBlock) : (s.withAfe g).emitted = s.emitted := rfl
@[simp] theorem State.withAfe_busData (g : AfeBlock → AfeBlock) : (s.withAfe g).busData = s.busData := rfl
@[simp] theorem State.withAfe_busError (g : AfeBlock → AfeBlock) : (s.withAfe g).busError = s.busError := rfl
@[simp] theorem State.withAfe_free (g : AfeBlock → AfeBlock) : (s.withAfe g).free = s.free := rfl
@[simp] theorem State.withAfe_pending (g : AfeBlock → AfeBlock) : (s.withAfe g).pending = s.pending := rfl

/-! ### `withPe` -/

@[simp] theorem State.withPe_regs (g : PeBlock → PeBlock) : (s.withPe g).regs = s.regs := rfl
@[simp] theorem State.withPe_mem (g : PeBlock → PeBlock) : (s.withPe g).mem = s.mem := rfl
@[simp] theorem State.withPe_cx (g : PeBlock → PeBlock) : (s.withPe g).cx = s.cx := rfl
@[simp] theorem State.withPe_sc0 (g : PeBlock → PeBlock) : (s.withPe g).sc0 = s.sc0 := rfl
@[simp] theorem State.withPe_sc1 (g : PeBlock → PeBlock) : (s.withPe g).sc1 = s.sc1 := rfl
@[simp] theorem State.withPe_core (g : PeBlock → PeBlock) : (s.withPe g).core = s.core := rfl
@[simp] theorem State.withPe_memb (g : PeBlock → PeBlock) : (s.withPe g).memb = s.memb := rfl
@[simp] theorem State.withPe_cyc (g : PeBlock → PeBlock) : (s.withPe g).cyc = s.cyc := rfl
@[simp] theorem State.withPe_afe (g : PeBlock → PeBlock) : (s.withPe g).afe = s.afe := rfl
@[simp] theorem State.withPe_pe (g : PeBlock → PeBlock) : (s.withPe g).pe = g s.pe := rfl
@[simp] theorem State.withPe_girth (g : PeBlock → PeBlock) : (s.withPe g).girth = s.girth := rfl
@[simp] theorem State.withPe_recb (g : PeBlock → PeBlock) : (s.withPe g).recb = s.recb := rfl
@[simp] theorem State.withPe_fio (g : PeBlock → PeBlock) : (s.withPe g).fio = s.fio := rfl
@[simp] theorem State.withPe_alp (g : PeBlock → PeBlock) : (s.withPe g).alp = s.alp := rfl
@[simp] theorem State.withPe_net (g : PeBlock → PeBlock) : (s.withPe g).net = s.net := rfl
@[simp] theorem State.withPe_time (g : PeBlock → PeBlock) : (s.withPe g).time = s.time := rfl
@[simp] theorem State.withPe_oct (g : PeBlock → PeBlock) : (s.withPe g).oct = s.oct := rfl
@[simp] theorem State.withPe_brg (g : PeBlock → PeBlock) : (s.withPe g).brg = s.brg := rfl
@[simp] theorem State.withPe_pair (g : PeBlock → PeBlock) : (s.withPe g).pair = s.pair := rfl
@[simp] theorem State.withPe_sys (g : PeBlock → PeBlock) : (s.withPe g).sys = s.sys := rfl
@[simp] theorem State.withPe_flash (g : PeBlock → PeBlock) : (s.withPe g).flash = s.flash := rfl
@[simp] theorem State.withPe_flashBad (g : PeBlock → PeBlock) : (s.withPe g).flashBad = s.flashBad := rfl
@[simp] theorem State.withPe_netbuf (g : PeBlock → PeBlock) : (s.withPe g).netbuf = s.netbuf := rfl
@[simp] theorem State.withPe_mono (g : PeBlock → PeBlock) : (s.withPe g).mono = s.mono := rfl
@[simp] theorem State.withPe_sync (g : PeBlock → PeBlock) : (s.withPe g).sync = s.sync := rfl
@[simp] theorem State.withPe_emitted (g : PeBlock → PeBlock) : (s.withPe g).emitted = s.emitted := rfl
@[simp] theorem State.withPe_busData (g : PeBlock → PeBlock) : (s.withPe g).busData = s.busData := rfl
@[simp] theorem State.withPe_busError (g : PeBlock → PeBlock) : (s.withPe g).busError = s.busError := rfl
@[simp] theorem State.withPe_free (g : PeBlock → PeBlock) : (s.withPe g).free = s.free := rfl
@[simp] theorem State.withPe_pending (g : PeBlock → PeBlock) : (s.withPe g).pending = s.pending := rfl

/-! ### `withGirth` -/

@[simp] theorem State.withGirth_regs (g : GirthBlock → GirthBlock) : (s.withGirth g).regs = s.regs := rfl
@[simp] theorem State.withGirth_mem (g : GirthBlock → GirthBlock) : (s.withGirth g).mem = s.mem := rfl
@[simp] theorem State.withGirth_cx (g : GirthBlock → GirthBlock) : (s.withGirth g).cx = s.cx := rfl
@[simp] theorem State.withGirth_sc0 (g : GirthBlock → GirthBlock) : (s.withGirth g).sc0 = s.sc0 := rfl
@[simp] theorem State.withGirth_sc1 (g : GirthBlock → GirthBlock) : (s.withGirth g).sc1 = s.sc1 := rfl
@[simp] theorem State.withGirth_core (g : GirthBlock → GirthBlock) : (s.withGirth g).core = s.core := rfl
@[simp] theorem State.withGirth_memb (g : GirthBlock → GirthBlock) : (s.withGirth g).memb = s.memb := rfl
@[simp] theorem State.withGirth_cyc (g : GirthBlock → GirthBlock) : (s.withGirth g).cyc = s.cyc := rfl
@[simp] theorem State.withGirth_afe (g : GirthBlock → GirthBlock) : (s.withGirth g).afe = s.afe := rfl
@[simp] theorem State.withGirth_pe (g : GirthBlock → GirthBlock) : (s.withGirth g).pe = s.pe := rfl
@[simp] theorem State.withGirth_girth (g : GirthBlock → GirthBlock) : (s.withGirth g).girth = g s.girth := rfl
@[simp] theorem State.withGirth_recb (g : GirthBlock → GirthBlock) : (s.withGirth g).recb = s.recb := rfl
@[simp] theorem State.withGirth_fio (g : GirthBlock → GirthBlock) : (s.withGirth g).fio = s.fio := rfl
@[simp] theorem State.withGirth_alp (g : GirthBlock → GirthBlock) : (s.withGirth g).alp = s.alp := rfl
@[simp] theorem State.withGirth_net (g : GirthBlock → GirthBlock) : (s.withGirth g).net = s.net := rfl
@[simp] theorem State.withGirth_time (g : GirthBlock → GirthBlock) : (s.withGirth g).time = s.time := rfl
@[simp] theorem State.withGirth_oct (g : GirthBlock → GirthBlock) : (s.withGirth g).oct = s.oct := rfl
@[simp] theorem State.withGirth_brg (g : GirthBlock → GirthBlock) : (s.withGirth g).brg = s.brg := rfl
@[simp] theorem State.withGirth_pair (g : GirthBlock → GirthBlock) : (s.withGirth g).pair = s.pair := rfl
@[simp] theorem State.withGirth_sys (g : GirthBlock → GirthBlock) : (s.withGirth g).sys = s.sys := rfl
@[simp] theorem State.withGirth_flash (g : GirthBlock → GirthBlock) : (s.withGirth g).flash = s.flash := rfl
@[simp] theorem State.withGirth_flashBad (g : GirthBlock → GirthBlock) : (s.withGirth g).flashBad = s.flashBad := rfl
@[simp] theorem State.withGirth_netbuf (g : GirthBlock → GirthBlock) : (s.withGirth g).netbuf = s.netbuf := rfl
@[simp] theorem State.withGirth_mono (g : GirthBlock → GirthBlock) : (s.withGirth g).mono = s.mono := rfl
@[simp] theorem State.withGirth_sync (g : GirthBlock → GirthBlock) : (s.withGirth g).sync = s.sync := rfl
@[simp] theorem State.withGirth_emitted (g : GirthBlock → GirthBlock) : (s.withGirth g).emitted = s.emitted := rfl
@[simp] theorem State.withGirth_busData (g : GirthBlock → GirthBlock) : (s.withGirth g).busData = s.busData := rfl
@[simp] theorem State.withGirth_busError (g : GirthBlock → GirthBlock) : (s.withGirth g).busError = s.busError := rfl
@[simp] theorem State.withGirth_free (g : GirthBlock → GirthBlock) : (s.withGirth g).free = s.free := rfl
@[simp] theorem State.withGirth_pending (g : GirthBlock → GirthBlock) : (s.withGirth g).pending = s.pending := rfl

/-! ### `withRec` -/

@[simp] theorem State.withRec_regs (g : RecBlock → RecBlock) : (s.withRec g).regs = s.regs := rfl
@[simp] theorem State.withRec_mem (g : RecBlock → RecBlock) : (s.withRec g).mem = s.mem := rfl
@[simp] theorem State.withRec_cx (g : RecBlock → RecBlock) : (s.withRec g).cx = s.cx := rfl
@[simp] theorem State.withRec_sc0 (g : RecBlock → RecBlock) : (s.withRec g).sc0 = s.sc0 := rfl
@[simp] theorem State.withRec_sc1 (g : RecBlock → RecBlock) : (s.withRec g).sc1 = s.sc1 := rfl
@[simp] theorem State.withRec_core (g : RecBlock → RecBlock) : (s.withRec g).core = s.core := rfl
@[simp] theorem State.withRec_memb (g : RecBlock → RecBlock) : (s.withRec g).memb = s.memb := rfl
@[simp] theorem State.withRec_cyc (g : RecBlock → RecBlock) : (s.withRec g).cyc = s.cyc := rfl
@[simp] theorem State.withRec_afe (g : RecBlock → RecBlock) : (s.withRec g).afe = s.afe := rfl
@[simp] theorem State.withRec_pe (g : RecBlock → RecBlock) : (s.withRec g).pe = s.pe := rfl
@[simp] theorem State.withRec_girth (g : RecBlock → RecBlock) : (s.withRec g).girth = s.girth := rfl
@[simp] theorem State.withRec_recb (g : RecBlock → RecBlock) : (s.withRec g).recb = g s.recb := rfl
@[simp] theorem State.withRec_fio (g : RecBlock → RecBlock) : (s.withRec g).fio = s.fio := rfl
@[simp] theorem State.withRec_alp (g : RecBlock → RecBlock) : (s.withRec g).alp = s.alp := rfl
@[simp] theorem State.withRec_net (g : RecBlock → RecBlock) : (s.withRec g).net = s.net := rfl
@[simp] theorem State.withRec_time (g : RecBlock → RecBlock) : (s.withRec g).time = s.time := rfl
@[simp] theorem State.withRec_oct (g : RecBlock → RecBlock) : (s.withRec g).oct = s.oct := rfl
@[simp] theorem State.withRec_brg (g : RecBlock → RecBlock) : (s.withRec g).brg = s.brg := rfl
@[simp] theorem State.withRec_pair (g : RecBlock → RecBlock) : (s.withRec g).pair = s.pair := rfl
@[simp] theorem State.withRec_sys (g : RecBlock → RecBlock) : (s.withRec g).sys = s.sys := rfl
@[simp] theorem State.withRec_flash (g : RecBlock → RecBlock) : (s.withRec g).flash = s.flash := rfl
@[simp] theorem State.withRec_flashBad (g : RecBlock → RecBlock) : (s.withRec g).flashBad = s.flashBad := rfl
@[simp] theorem State.withRec_netbuf (g : RecBlock → RecBlock) : (s.withRec g).netbuf = s.netbuf := rfl
@[simp] theorem State.withRec_mono (g : RecBlock → RecBlock) : (s.withRec g).mono = s.mono := rfl
@[simp] theorem State.withRec_sync (g : RecBlock → RecBlock) : (s.withRec g).sync = s.sync := rfl
@[simp] theorem State.withRec_emitted (g : RecBlock → RecBlock) : (s.withRec g).emitted = s.emitted := rfl
@[simp] theorem State.withRec_busData (g : RecBlock → RecBlock) : (s.withRec g).busData = s.busData := rfl
@[simp] theorem State.withRec_busError (g : RecBlock → RecBlock) : (s.withRec g).busError = s.busError := rfl
@[simp] theorem State.withRec_free (g : RecBlock → RecBlock) : (s.withRec g).free = s.free := rfl
@[simp] theorem State.withRec_pending (g : RecBlock → RecBlock) : (s.withRec g).pending = s.pending := rfl

/-! ### `withFio` -/

@[simp] theorem State.withFio_regs (g : FioBlock → FioBlock) : (s.withFio g).regs = s.regs := rfl
@[simp] theorem State.withFio_mem (g : FioBlock → FioBlock) : (s.withFio g).mem = s.mem := rfl
@[simp] theorem State.withFio_cx (g : FioBlock → FioBlock) : (s.withFio g).cx = s.cx := rfl
@[simp] theorem State.withFio_sc0 (g : FioBlock → FioBlock) : (s.withFio g).sc0 = s.sc0 := rfl
@[simp] theorem State.withFio_sc1 (g : FioBlock → FioBlock) : (s.withFio g).sc1 = s.sc1 := rfl
@[simp] theorem State.withFio_core (g : FioBlock → FioBlock) : (s.withFio g).core = s.core := rfl
@[simp] theorem State.withFio_memb (g : FioBlock → FioBlock) : (s.withFio g).memb = s.memb := rfl
@[simp] theorem State.withFio_cyc (g : FioBlock → FioBlock) : (s.withFio g).cyc = s.cyc := rfl
@[simp] theorem State.withFio_afe (g : FioBlock → FioBlock) : (s.withFio g).afe = s.afe := rfl
@[simp] theorem State.withFio_pe (g : FioBlock → FioBlock) : (s.withFio g).pe = s.pe := rfl
@[simp] theorem State.withFio_girth (g : FioBlock → FioBlock) : (s.withFio g).girth = s.girth := rfl
@[simp] theorem State.withFio_recb (g : FioBlock → FioBlock) : (s.withFio g).recb = s.recb := rfl
@[simp] theorem State.withFio_fio (g : FioBlock → FioBlock) : (s.withFio g).fio = g s.fio := rfl
@[simp] theorem State.withFio_alp (g : FioBlock → FioBlock) : (s.withFio g).alp = s.alp := rfl
@[simp] theorem State.withFio_net (g : FioBlock → FioBlock) : (s.withFio g).net = s.net := rfl
@[simp] theorem State.withFio_time (g : FioBlock → FioBlock) : (s.withFio g).time = s.time := rfl
@[simp] theorem State.withFio_oct (g : FioBlock → FioBlock) : (s.withFio g).oct = s.oct := rfl
@[simp] theorem State.withFio_brg (g : FioBlock → FioBlock) : (s.withFio g).brg = s.brg := rfl
@[simp] theorem State.withFio_pair (g : FioBlock → FioBlock) : (s.withFio g).pair = s.pair := rfl
@[simp] theorem State.withFio_sys (g : FioBlock → FioBlock) : (s.withFio g).sys = s.sys := rfl
@[simp] theorem State.withFio_flash (g : FioBlock → FioBlock) : (s.withFio g).flash = s.flash := rfl
@[simp] theorem State.withFio_flashBad (g : FioBlock → FioBlock) : (s.withFio g).flashBad = s.flashBad := rfl
@[simp] theorem State.withFio_netbuf (g : FioBlock → FioBlock) : (s.withFio g).netbuf = s.netbuf := rfl
@[simp] theorem State.withFio_mono (g : FioBlock → FioBlock) : (s.withFio g).mono = s.mono := rfl
@[simp] theorem State.withFio_sync (g : FioBlock → FioBlock) : (s.withFio g).sync = s.sync := rfl
@[simp] theorem State.withFio_emitted (g : FioBlock → FioBlock) : (s.withFio g).emitted = s.emitted := rfl
@[simp] theorem State.withFio_busData (g : FioBlock → FioBlock) : (s.withFio g).busData = s.busData := rfl
@[simp] theorem State.withFio_busError (g : FioBlock → FioBlock) : (s.withFio g).busError = s.busError := rfl
@[simp] theorem State.withFio_free (g : FioBlock → FioBlock) : (s.withFio g).free = s.free := rfl
@[simp] theorem State.withFio_pending (g : FioBlock → FioBlock) : (s.withFio g).pending = s.pending := rfl

/-! ### `withAlp` -/

@[simp] theorem State.withAlp_regs (g : AlpBlock → AlpBlock) : (s.withAlp g).regs = s.regs := rfl
@[simp] theorem State.withAlp_mem (g : AlpBlock → AlpBlock) : (s.withAlp g).mem = s.mem := rfl
@[simp] theorem State.withAlp_cx (g : AlpBlock → AlpBlock) : (s.withAlp g).cx = s.cx := rfl
@[simp] theorem State.withAlp_sc0 (g : AlpBlock → AlpBlock) : (s.withAlp g).sc0 = s.sc0 := rfl
@[simp] theorem State.withAlp_sc1 (g : AlpBlock → AlpBlock) : (s.withAlp g).sc1 = s.sc1 := rfl
@[simp] theorem State.withAlp_core (g : AlpBlock → AlpBlock) : (s.withAlp g).core = s.core := rfl
@[simp] theorem State.withAlp_memb (g : AlpBlock → AlpBlock) : (s.withAlp g).memb = s.memb := rfl
@[simp] theorem State.withAlp_cyc (g : AlpBlock → AlpBlock) : (s.withAlp g).cyc = s.cyc := rfl
@[simp] theorem State.withAlp_afe (g : AlpBlock → AlpBlock) : (s.withAlp g).afe = s.afe := rfl
@[simp] theorem State.withAlp_pe (g : AlpBlock → AlpBlock) : (s.withAlp g).pe = s.pe := rfl
@[simp] theorem State.withAlp_girth (g : AlpBlock → AlpBlock) : (s.withAlp g).girth = s.girth := rfl
@[simp] theorem State.withAlp_recb (g : AlpBlock → AlpBlock) : (s.withAlp g).recb = s.recb := rfl
@[simp] theorem State.withAlp_fio (g : AlpBlock → AlpBlock) : (s.withAlp g).fio = s.fio := rfl
@[simp] theorem State.withAlp_alp (g : AlpBlock → AlpBlock) : (s.withAlp g).alp = g s.alp := rfl
@[simp] theorem State.withAlp_net (g : AlpBlock → AlpBlock) : (s.withAlp g).net = s.net := rfl
@[simp] theorem State.withAlp_time (g : AlpBlock → AlpBlock) : (s.withAlp g).time = s.time := rfl
@[simp] theorem State.withAlp_oct (g : AlpBlock → AlpBlock) : (s.withAlp g).oct = s.oct := rfl
@[simp] theorem State.withAlp_brg (g : AlpBlock → AlpBlock) : (s.withAlp g).brg = s.brg := rfl
@[simp] theorem State.withAlp_pair (g : AlpBlock → AlpBlock) : (s.withAlp g).pair = s.pair := rfl
@[simp] theorem State.withAlp_sys (g : AlpBlock → AlpBlock) : (s.withAlp g).sys = s.sys := rfl
@[simp] theorem State.withAlp_flash (g : AlpBlock → AlpBlock) : (s.withAlp g).flash = s.flash := rfl
@[simp] theorem State.withAlp_flashBad (g : AlpBlock → AlpBlock) : (s.withAlp g).flashBad = s.flashBad := rfl
@[simp] theorem State.withAlp_netbuf (g : AlpBlock → AlpBlock) : (s.withAlp g).netbuf = s.netbuf := rfl
@[simp] theorem State.withAlp_mono (g : AlpBlock → AlpBlock) : (s.withAlp g).mono = s.mono := rfl
@[simp] theorem State.withAlp_sync (g : AlpBlock → AlpBlock) : (s.withAlp g).sync = s.sync := rfl
@[simp] theorem State.withAlp_emitted (g : AlpBlock → AlpBlock) : (s.withAlp g).emitted = s.emitted := rfl
@[simp] theorem State.withAlp_busData (g : AlpBlock → AlpBlock) : (s.withAlp g).busData = s.busData := rfl
@[simp] theorem State.withAlp_busError (g : AlpBlock → AlpBlock) : (s.withAlp g).busError = s.busError := rfl
@[simp] theorem State.withAlp_free (g : AlpBlock → AlpBlock) : (s.withAlp g).free = s.free := rfl
@[simp] theorem State.withAlp_pending (g : AlpBlock → AlpBlock) : (s.withAlp g).pending = s.pending := rfl

/-! ### `withNet` -/

@[simp] theorem State.withNet_regs (g : NetBlock → NetBlock) : (s.withNet g).regs = s.regs := rfl
@[simp] theorem State.withNet_mem (g : NetBlock → NetBlock) : (s.withNet g).mem = s.mem := rfl
@[simp] theorem State.withNet_cx (g : NetBlock → NetBlock) : (s.withNet g).cx = s.cx := rfl
@[simp] theorem State.withNet_sc0 (g : NetBlock → NetBlock) : (s.withNet g).sc0 = s.sc0 := rfl
@[simp] theorem State.withNet_sc1 (g : NetBlock → NetBlock) : (s.withNet g).sc1 = s.sc1 := rfl
@[simp] theorem State.withNet_core (g : NetBlock → NetBlock) : (s.withNet g).core = s.core := rfl
@[simp] theorem State.withNet_memb (g : NetBlock → NetBlock) : (s.withNet g).memb = s.memb := rfl
@[simp] theorem State.withNet_cyc (g : NetBlock → NetBlock) : (s.withNet g).cyc = s.cyc := rfl
@[simp] theorem State.withNet_afe (g : NetBlock → NetBlock) : (s.withNet g).afe = s.afe := rfl
@[simp] theorem State.withNet_pe (g : NetBlock → NetBlock) : (s.withNet g).pe = s.pe := rfl
@[simp] theorem State.withNet_girth (g : NetBlock → NetBlock) : (s.withNet g).girth = s.girth := rfl
@[simp] theorem State.withNet_recb (g : NetBlock → NetBlock) : (s.withNet g).recb = s.recb := rfl
@[simp] theorem State.withNet_fio (g : NetBlock → NetBlock) : (s.withNet g).fio = s.fio := rfl
@[simp] theorem State.withNet_alp (g : NetBlock → NetBlock) : (s.withNet g).alp = s.alp := rfl
@[simp] theorem State.withNet_net (g : NetBlock → NetBlock) : (s.withNet g).net = g s.net := rfl
@[simp] theorem State.withNet_time (g : NetBlock → NetBlock) : (s.withNet g).time = s.time := rfl
@[simp] theorem State.withNet_oct (g : NetBlock → NetBlock) : (s.withNet g).oct = s.oct := rfl
@[simp] theorem State.withNet_brg (g : NetBlock → NetBlock) : (s.withNet g).brg = s.brg := rfl
@[simp] theorem State.withNet_pair (g : NetBlock → NetBlock) : (s.withNet g).pair = s.pair := rfl
@[simp] theorem State.withNet_sys (g : NetBlock → NetBlock) : (s.withNet g).sys = s.sys := rfl
@[simp] theorem State.withNet_flash (g : NetBlock → NetBlock) : (s.withNet g).flash = s.flash := rfl
@[simp] theorem State.withNet_flashBad (g : NetBlock → NetBlock) : (s.withNet g).flashBad = s.flashBad := rfl
@[simp] theorem State.withNet_netbuf (g : NetBlock → NetBlock) : (s.withNet g).netbuf = s.netbuf := rfl
@[simp] theorem State.withNet_mono (g : NetBlock → NetBlock) : (s.withNet g).mono = s.mono := rfl
@[simp] theorem State.withNet_sync (g : NetBlock → NetBlock) : (s.withNet g).sync = s.sync := rfl
@[simp] theorem State.withNet_emitted (g : NetBlock → NetBlock) : (s.withNet g).emitted = s.emitted := rfl
@[simp] theorem State.withNet_busData (g : NetBlock → NetBlock) : (s.withNet g).busData = s.busData := rfl
@[simp] theorem State.withNet_busError (g : NetBlock → NetBlock) : (s.withNet g).busError = s.busError := rfl
@[simp] theorem State.withNet_free (g : NetBlock → NetBlock) : (s.withNet g).free = s.free := rfl
@[simp] theorem State.withNet_pending (g : NetBlock → NetBlock) : (s.withNet g).pending = s.pending := rfl

/-! ### `withTime` -/

@[simp] theorem State.withTime_regs (g : TimeBlock → TimeBlock) : (s.withTime g).regs = s.regs := rfl
@[simp] theorem State.withTime_mem (g : TimeBlock → TimeBlock) : (s.withTime g).mem = s.mem := rfl
@[simp] theorem State.withTime_cx (g : TimeBlock → TimeBlock) : (s.withTime g).cx = s.cx := rfl
@[simp] theorem State.withTime_sc0 (g : TimeBlock → TimeBlock) : (s.withTime g).sc0 = s.sc0 := rfl
@[simp] theorem State.withTime_sc1 (g : TimeBlock → TimeBlock) : (s.withTime g).sc1 = s.sc1 := rfl
@[simp] theorem State.withTime_core (g : TimeBlock → TimeBlock) : (s.withTime g).core = s.core := rfl
@[simp] theorem State.withTime_memb (g : TimeBlock → TimeBlock) : (s.withTime g).memb = s.memb := rfl
@[simp] theorem State.withTime_cyc (g : TimeBlock → TimeBlock) : (s.withTime g).cyc = s.cyc := rfl
@[simp] theorem State.withTime_afe (g : TimeBlock → TimeBlock) : (s.withTime g).afe = s.afe := rfl
@[simp] theorem State.withTime_pe (g : TimeBlock → TimeBlock) : (s.withTime g).pe = s.pe := rfl
@[simp] theorem State.withTime_girth (g : TimeBlock → TimeBlock) : (s.withTime g).girth = s.girth := rfl
@[simp] theorem State.withTime_recb (g : TimeBlock → TimeBlock) : (s.withTime g).recb = s.recb := rfl
@[simp] theorem State.withTime_fio (g : TimeBlock → TimeBlock) : (s.withTime g).fio = s.fio := rfl
@[simp] theorem State.withTime_alp (g : TimeBlock → TimeBlock) : (s.withTime g).alp = s.alp := rfl
@[simp] theorem State.withTime_net (g : TimeBlock → TimeBlock) : (s.withTime g).net = s.net := rfl
@[simp] theorem State.withTime_time (g : TimeBlock → TimeBlock) : (s.withTime g).time = g s.time := rfl
@[simp] theorem State.withTime_oct (g : TimeBlock → TimeBlock) : (s.withTime g).oct = s.oct := rfl
@[simp] theorem State.withTime_brg (g : TimeBlock → TimeBlock) : (s.withTime g).brg = s.brg := rfl
@[simp] theorem State.withTime_pair (g : TimeBlock → TimeBlock) : (s.withTime g).pair = s.pair := rfl
@[simp] theorem State.withTime_sys (g : TimeBlock → TimeBlock) : (s.withTime g).sys = s.sys := rfl
@[simp] theorem State.withTime_flash (g : TimeBlock → TimeBlock) : (s.withTime g).flash = s.flash := rfl
@[simp] theorem State.withTime_flashBad (g : TimeBlock → TimeBlock) : (s.withTime g).flashBad = s.flashBad := rfl
@[simp] theorem State.withTime_netbuf (g : TimeBlock → TimeBlock) : (s.withTime g).netbuf = s.netbuf := rfl
@[simp] theorem State.withTime_mono (g : TimeBlock → TimeBlock) : (s.withTime g).mono = s.mono := rfl
@[simp] theorem State.withTime_sync (g : TimeBlock → TimeBlock) : (s.withTime g).sync = s.sync := rfl
@[simp] theorem State.withTime_emitted (g : TimeBlock → TimeBlock) : (s.withTime g).emitted = s.emitted := rfl
@[simp] theorem State.withTime_busData (g : TimeBlock → TimeBlock) : (s.withTime g).busData = s.busData := rfl
@[simp] theorem State.withTime_busError (g : TimeBlock → TimeBlock) : (s.withTime g).busError = s.busError := rfl
@[simp] theorem State.withTime_free (g : TimeBlock → TimeBlock) : (s.withTime g).free = s.free := rfl
@[simp] theorem State.withTime_pending (g : TimeBlock → TimeBlock) : (s.withTime g).pending = s.pending := rfl

/-! ### `withOct` -/

@[simp] theorem State.withOct_regs (g : OctBlock → OctBlock) : (s.withOct g).regs = s.regs := rfl
@[simp] theorem State.withOct_mem (g : OctBlock → OctBlock) : (s.withOct g).mem = s.mem := rfl
@[simp] theorem State.withOct_cx (g : OctBlock → OctBlock) : (s.withOct g).cx = s.cx := rfl
@[simp] theorem State.withOct_sc0 (g : OctBlock → OctBlock) : (s.withOct g).sc0 = s.sc0 := rfl
@[simp] theorem State.withOct_sc1 (g : OctBlock → OctBlock) : (s.withOct g).sc1 = s.sc1 := rfl
@[simp] theorem State.withOct_core (g : OctBlock → OctBlock) : (s.withOct g).core = s.core := rfl
@[simp] theorem State.withOct_memb (g : OctBlock → OctBlock) : (s.withOct g).memb = s.memb := rfl
@[simp] theorem State.withOct_cyc (g : OctBlock → OctBlock) : (s.withOct g).cyc = s.cyc := rfl
@[simp] theorem State.withOct_afe (g : OctBlock → OctBlock) : (s.withOct g).afe = s.afe := rfl
@[simp] theorem State.withOct_pe (g : OctBlock → OctBlock) : (s.withOct g).pe = s.pe := rfl
@[simp] theorem State.withOct_girth (g : OctBlock → OctBlock) : (s.withOct g).girth = s.girth := rfl
@[simp] theorem State.withOct_recb (g : OctBlock → OctBlock) : (s.withOct g).recb = s.recb := rfl
@[simp] theorem State.withOct_fio (g : OctBlock → OctBlock) : (s.withOct g).fio = s.fio := rfl
@[simp] theorem State.withOct_alp (g : OctBlock → OctBlock) : (s.withOct g).alp = s.alp := rfl
@[simp] theorem State.withOct_net (g : OctBlock → OctBlock) : (s.withOct g).net = s.net := rfl
@[simp] theorem State.withOct_time (g : OctBlock → OctBlock) : (s.withOct g).time = s.time := rfl
@[simp] theorem State.withOct_oct (g : OctBlock → OctBlock) : (s.withOct g).oct = g s.oct := rfl
@[simp] theorem State.withOct_brg (g : OctBlock → OctBlock) : (s.withOct g).brg = s.brg := rfl
@[simp] theorem State.withOct_pair (g : OctBlock → OctBlock) : (s.withOct g).pair = s.pair := rfl
@[simp] theorem State.withOct_sys (g : OctBlock → OctBlock) : (s.withOct g).sys = s.sys := rfl
@[simp] theorem State.withOct_flash (g : OctBlock → OctBlock) : (s.withOct g).flash = s.flash := rfl
@[simp] theorem State.withOct_flashBad (g : OctBlock → OctBlock) : (s.withOct g).flashBad = s.flashBad := rfl
@[simp] theorem State.withOct_netbuf (g : OctBlock → OctBlock) : (s.withOct g).netbuf = s.netbuf := rfl
@[simp] theorem State.withOct_mono (g : OctBlock → OctBlock) : (s.withOct g).mono = s.mono := rfl
@[simp] theorem State.withOct_sync (g : OctBlock → OctBlock) : (s.withOct g).sync = s.sync := rfl
@[simp] theorem State.withOct_emitted (g : OctBlock → OctBlock) : (s.withOct g).emitted = s.emitted := rfl
@[simp] theorem State.withOct_busData (g : OctBlock → OctBlock) : (s.withOct g).busData = s.busData := rfl
@[simp] theorem State.withOct_busError (g : OctBlock → OctBlock) : (s.withOct g).busError = s.busError := rfl
@[simp] theorem State.withOct_free (g : OctBlock → OctBlock) : (s.withOct g).free = s.free := rfl
@[simp] theorem State.withOct_pending (g : OctBlock → OctBlock) : (s.withOct g).pending = s.pending := rfl

/-! ### `withBrg` -/

@[simp] theorem State.withBrg_regs (g : BrgBlock → BrgBlock) : (s.withBrg g).regs = s.regs := rfl
@[simp] theorem State.withBrg_mem (g : BrgBlock → BrgBlock) : (s.withBrg g).mem = s.mem := rfl
@[simp] theorem State.withBrg_cx (g : BrgBlock → BrgBlock) : (s.withBrg g).cx = s.cx := rfl
@[simp] theorem State.withBrg_sc0 (g : BrgBlock → BrgBlock) : (s.withBrg g).sc0 = s.sc0 := rfl
@[simp] theorem State.withBrg_sc1 (g : BrgBlock → BrgBlock) : (s.withBrg g).sc1 = s.sc1 := rfl
@[simp] theorem State.withBrg_core (g : BrgBlock → BrgBlock) : (s.withBrg g).core = s.core := rfl
@[simp] theorem State.withBrg_memb (g : BrgBlock → BrgBlock) : (s.withBrg g).memb = s.memb := rfl
@[simp] theorem State.withBrg_cyc (g : BrgBlock → BrgBlock) : (s.withBrg g).cyc = s.cyc := rfl
@[simp] theorem State.withBrg_afe (g : BrgBlock → BrgBlock) : (s.withBrg g).afe = s.afe := rfl
@[simp] theorem State.withBrg_pe (g : BrgBlock → BrgBlock) : (s.withBrg g).pe = s.pe := rfl
@[simp] theorem State.withBrg_girth (g : BrgBlock → BrgBlock) : (s.withBrg g).girth = s.girth := rfl
@[simp] theorem State.withBrg_recb (g : BrgBlock → BrgBlock) : (s.withBrg g).recb = s.recb := rfl
@[simp] theorem State.withBrg_fio (g : BrgBlock → BrgBlock) : (s.withBrg g).fio = s.fio := rfl
@[simp] theorem State.withBrg_alp (g : BrgBlock → BrgBlock) : (s.withBrg g).alp = s.alp := rfl
@[simp] theorem State.withBrg_net (g : BrgBlock → BrgBlock) : (s.withBrg g).net = s.net := rfl
@[simp] theorem State.withBrg_time (g : BrgBlock → BrgBlock) : (s.withBrg g).time = s.time := rfl
@[simp] theorem State.withBrg_oct (g : BrgBlock → BrgBlock) : (s.withBrg g).oct = s.oct := rfl
@[simp] theorem State.withBrg_brg (g : BrgBlock → BrgBlock) : (s.withBrg g).brg = g s.brg := rfl
@[simp] theorem State.withBrg_pair (g : BrgBlock → BrgBlock) : (s.withBrg g).pair = s.pair := rfl
@[simp] theorem State.withBrg_sys (g : BrgBlock → BrgBlock) : (s.withBrg g).sys = s.sys := rfl
@[simp] theorem State.withBrg_flash (g : BrgBlock → BrgBlock) : (s.withBrg g).flash = s.flash := rfl
@[simp] theorem State.withBrg_flashBad (g : BrgBlock → BrgBlock) : (s.withBrg g).flashBad = s.flashBad := rfl
@[simp] theorem State.withBrg_netbuf (g : BrgBlock → BrgBlock) : (s.withBrg g).netbuf = s.netbuf := rfl
@[simp] theorem State.withBrg_mono (g : BrgBlock → BrgBlock) : (s.withBrg g).mono = s.mono := rfl
@[simp] theorem State.withBrg_sync (g : BrgBlock → BrgBlock) : (s.withBrg g).sync = s.sync := rfl
@[simp] theorem State.withBrg_emitted (g : BrgBlock → BrgBlock) : (s.withBrg g).emitted = s.emitted := rfl
@[simp] theorem State.withBrg_busData (g : BrgBlock → BrgBlock) : (s.withBrg g).busData = s.busData := rfl
@[simp] theorem State.withBrg_busError (g : BrgBlock → BrgBlock) : (s.withBrg g).busError = s.busError := rfl
@[simp] theorem State.withBrg_free (g : BrgBlock → BrgBlock) : (s.withBrg g).free = s.free := rfl
@[simp] theorem State.withBrg_pending (g : BrgBlock → BrgBlock) : (s.withBrg g).pending = s.pending := rfl

/-! ### `withPair` -/

@[simp] theorem State.withPair_regs (g : PairBlock → PairBlock) : (s.withPair g).regs = s.regs := rfl
@[simp] theorem State.withPair_mem (g : PairBlock → PairBlock) : (s.withPair g).mem = s.mem := rfl
@[simp] theorem State.withPair_cx (g : PairBlock → PairBlock) : (s.withPair g).cx = s.cx := rfl
@[simp] theorem State.withPair_sc0 (g : PairBlock → PairBlock) : (s.withPair g).sc0 = s.sc0 := rfl
@[simp] theorem State.withPair_sc1 (g : PairBlock → PairBlock) : (s.withPair g).sc1 = s.sc1 := rfl
@[simp] theorem State.withPair_core (g : PairBlock → PairBlock) : (s.withPair g).core = s.core := rfl
@[simp] theorem State.withPair_memb (g : PairBlock → PairBlock) : (s.withPair g).memb = s.memb := rfl
@[simp] theorem State.withPair_cyc (g : PairBlock → PairBlock) : (s.withPair g).cyc = s.cyc := rfl
@[simp] theorem State.withPair_afe (g : PairBlock → PairBlock) : (s.withPair g).afe = s.afe := rfl
@[simp] theorem State.withPair_pe (g : PairBlock → PairBlock) : (s.withPair g).pe = s.pe := rfl
@[simp] theorem State.withPair_girth (g : PairBlock → PairBlock) : (s.withPair g).girth = s.girth := rfl
@[simp] theorem State.withPair_recb (g : PairBlock → PairBlock) : (s.withPair g).recb = s.recb := rfl
@[simp] theorem State.withPair_fio (g : PairBlock → PairBlock) : (s.withPair g).fio = s.fio := rfl
@[simp] theorem State.withPair_alp (g : PairBlock → PairBlock) : (s.withPair g).alp = s.alp := rfl
@[simp] theorem State.withPair_net (g : PairBlock → PairBlock) : (s.withPair g).net = s.net := rfl
@[simp] theorem State.withPair_time (g : PairBlock → PairBlock) : (s.withPair g).time = s.time := rfl
@[simp] theorem State.withPair_oct (g : PairBlock → PairBlock) : (s.withPair g).oct = s.oct := rfl
@[simp] theorem State.withPair_brg (g : PairBlock → PairBlock) : (s.withPair g).brg = s.brg := rfl
@[simp] theorem State.withPair_pair (g : PairBlock → PairBlock) : (s.withPair g).pair = g s.pair := rfl
@[simp] theorem State.withPair_sys (g : PairBlock → PairBlock) : (s.withPair g).sys = s.sys := rfl
@[simp] theorem State.withPair_flash (g : PairBlock → PairBlock) : (s.withPair g).flash = s.flash := rfl
@[simp] theorem State.withPair_flashBad (g : PairBlock → PairBlock) : (s.withPair g).flashBad = s.flashBad := rfl
@[simp] theorem State.withPair_netbuf (g : PairBlock → PairBlock) : (s.withPair g).netbuf = s.netbuf := rfl
@[simp] theorem State.withPair_mono (g : PairBlock → PairBlock) : (s.withPair g).mono = s.mono := rfl
@[simp] theorem State.withPair_sync (g : PairBlock → PairBlock) : (s.withPair g).sync = s.sync := rfl
@[simp] theorem State.withPair_emitted (g : PairBlock → PairBlock) : (s.withPair g).emitted = s.emitted := rfl
@[simp] theorem State.withPair_busData (g : PairBlock → PairBlock) : (s.withPair g).busData = s.busData := rfl
@[simp] theorem State.withPair_busError (g : PairBlock → PairBlock) : (s.withPair g).busError = s.busError := rfl
@[simp] theorem State.withPair_free (g : PairBlock → PairBlock) : (s.withPair g).free = s.free := rfl
@[simp] theorem State.withPair_pending (g : PairBlock → PairBlock) : (s.withPair g).pending = s.pending := rfl

/-! ### `withSys` -/

@[simp] theorem State.withSys_regs (g : SysBlock → SysBlock) : (s.withSys g).regs = s.regs := rfl
@[simp] theorem State.withSys_mem (g : SysBlock → SysBlock) : (s.withSys g).mem = s.mem := rfl
@[simp] theorem State.withSys_cx (g : SysBlock → SysBlock) : (s.withSys g).cx = s.cx := rfl
@[simp] theorem State.withSys_sc0 (g : SysBlock → SysBlock) : (s.withSys g).sc0 = s.sc0 := rfl
@[simp] theorem State.withSys_sc1 (g : SysBlock → SysBlock) : (s.withSys g).sc1 = s.sc1 := rfl
@[simp] theorem State.withSys_core (g : SysBlock → SysBlock) : (s.withSys g).core = s.core := rfl
@[simp] theorem State.withSys_memb (g : SysBlock → SysBlock) : (s.withSys g).memb = s.memb := rfl
@[simp] theorem State.withSys_cyc (g : SysBlock → SysBlock) : (s.withSys g).cyc = s.cyc := rfl
@[simp] theorem State.withSys_afe (g : SysBlock → SysBlock) : (s.withSys g).afe = s.afe := rfl
@[simp] theorem State.withSys_pe (g : SysBlock → SysBlock) : (s.withSys g).pe = s.pe := rfl
@[simp] theorem State.withSys_girth (g : SysBlock → SysBlock) : (s.withSys g).girth = s.girth := rfl
@[simp] theorem State.withSys_recb (g : SysBlock → SysBlock) : (s.withSys g).recb = s.recb := rfl
@[simp] theorem State.withSys_fio (g : SysBlock → SysBlock) : (s.withSys g).fio = s.fio := rfl
@[simp] theorem State.withSys_alp (g : SysBlock → SysBlock) : (s.withSys g).alp = s.alp := rfl
@[simp] theorem State.withSys_net (g : SysBlock → SysBlock) : (s.withSys g).net = s.net := rfl
@[simp] theorem State.withSys_time (g : SysBlock → SysBlock) : (s.withSys g).time = s.time := rfl
@[simp] theorem State.withSys_oct (g : SysBlock → SysBlock) : (s.withSys g).oct = s.oct := rfl
@[simp] theorem State.withSys_brg (g : SysBlock → SysBlock) : (s.withSys g).brg = s.brg := rfl
@[simp] theorem State.withSys_pair (g : SysBlock → SysBlock) : (s.withSys g).pair = s.pair := rfl
@[simp] theorem State.withSys_sys (g : SysBlock → SysBlock) : (s.withSys g).sys = g s.sys := rfl
@[simp] theorem State.withSys_flash (g : SysBlock → SysBlock) : (s.withSys g).flash = s.flash := rfl
@[simp] theorem State.withSys_flashBad (g : SysBlock → SysBlock) : (s.withSys g).flashBad = s.flashBad := rfl
@[simp] theorem State.withSys_netbuf (g : SysBlock → SysBlock) : (s.withSys g).netbuf = s.netbuf := rfl
@[simp] theorem State.withSys_mono (g : SysBlock → SysBlock) : (s.withSys g).mono = s.mono := rfl
@[simp] theorem State.withSys_sync (g : SysBlock → SysBlock) : (s.withSys g).sync = s.sync := rfl
@[simp] theorem State.withSys_emitted (g : SysBlock → SysBlock) : (s.withSys g).emitted = s.emitted := rfl
@[simp] theorem State.withSys_busData (g : SysBlock → SysBlock) : (s.withSys g).busData = s.busData := rfl
@[simp] theorem State.withSys_busError (g : SysBlock → SysBlock) : (s.withSys g).busError = s.busError := rfl
@[simp] theorem State.withSys_free (g : SysBlock → SysBlock) : (s.withSys g).free = s.free := rfl
@[simp] theorem State.withSys_pending (g : SysBlock → SysBlock) : (s.withSys g).pending = s.pending := rfl

end Sys2Proof.Machine
end

