-- ==== Sys2Proof/Laws/Regs.lean ====
section
/-!
SUPPORT. Sparse storage and register fields: a read after a write, a write elsewhere, the canonical form kept; events and
mailboxes.
-/

namespace Sys2Proof.Machine

namespace CMap

variable {α : Type}

theorem lookup_place (d : Nat → α) (l : List (Nat × α)) (k j : Nat) (v : α) :
    lookup d (place l k v) j = if j = k then v else lookup d l j := by
  induction l with
  | nil => simp [place, lookup]
  | cons e r ih =>
    obtain ⟨a, w⟩ := e
    simp only [place]
    split
    · simp [lookup]
    · split
      · subst_vars; simp only [lookup]; split <;> rfl
      · simp only [lookup, ih]; split
        · next hk => subst hk; rw [if_neg (fun e => ‹¬k = _› e.symm)]
        · rfl

theorem lookup_drop (d : Nat → α) (l : List (Nat × α)) (k j : Nat) :
    lookup d (drop l k) j = if j = k then d k else lookup d l j := by
  induction l with
  | nil => simp only [drop, List.filter, lookup]; split <;> simp_all
  | cons e r ih =>
    obtain ⟨a, w⟩ := e
    by_cases h : a = k
    · subst h
      have e1 : drop ((a, w) :: r) a = drop r a := by simp [drop]
      rw [e1, ih]; simp only [lookup]; split <;> rfl
    · have e1 : drop ((a, w) :: r) k = (a, w) :: drop r k := by simp [drop, h]
      rw [e1]; simp only [lookup, ih]
      split
      · next hj => subst hj; simp [h]
      · rfl

/-- A read after a write gives what was written at that key and what was there before at every other. -/
theorem lookup_put [DecidableEq α] (d : Nat → α) (l : List (Nat × α)) (k j : Nat) (v : α) :
    lookup d (put d l k v) j = if j = k then v else lookup d l j := by
  simp only [put]
  split
  · rw [lookup_drop]; split <;> simp_all
  · exact lookup_place d l k j v

theorem rising_none (b : Nat) (l : List (Nat × α)) (h : rising (some b) l = true) : rising none l = true := by
  cases l with
  | nil => rfl
  | cons e r => simp only [rising, Bool.and_eq_true] at h ⊢; exact h.2

theorem rising_lower {b c : Nat} (hc : c ≤ b) (l : List (Nat × α)) (h : rising (some b) l = true) :
    rising (some c) l = true := by
  cases l with
  | nil => rfl
  | cons e r =>
    simp only [rising, Bool.and_eq_true, decide_eq_true_eq] at h ⊢
    exact ⟨by omega, h.2⟩

theorem rising_filter (p : Nat × α → Bool) (lo : Option Nat) (l : List (Nat × α)) (h : rising lo l = true) :
    rising lo (l.filter p) = true := by
  induction l generalizing lo with
  | nil => exact h
  | cons e r ih =>
    obtain ⟨a, w⟩ := e
    have hr : rising (some a) r = true := by
      cases lo <;> simp_all [rising]
    simp only [List.filter]
    split
    · cases lo with
      | none => simpa [rising] using ih _ hr
      | some b =>
        simp only [rising, Bool.and_eq_true] at h ⊢
        exact ⟨h.1, ih _ hr⟩
    · cases lo with
      | none => exact rising_none a _ (ih _ hr)
      | some b =>
        simp only [rising, Bool.and_eq_true, decide_eq_true_eq] at h
        exact rising_lower (Nat.le_of_lt h.1) _ (ih _ hr)

theorem rising_place (lo : Option Nat) (l : List (Nat × α)) (k : Nat) (v : α) (h : rising lo l = true)
    (hk : ∀ b, lo = some b → b < k) : rising lo (place l k v) = true := by
  induction l generalizing lo with
  | nil =>
    cases lo with
    | none => rfl
    | some b => simpa [place, rising] using hk b rfl
  | cons e r ih =>
    obtain ⟨a, w⟩ := e
    have hr : rising (some a) r = true := by
      cases lo <;> simp_all [rising]
    simp only [place]
    split
    · cases lo with
      | none => simp [rising, *]
      | some b => simp [rising, *, hk b rfl]
    · split
      · subst_vars
        cases lo with
        | none => simpa [rising] using hr
        | some b => simp only [rising, Bool.and_eq_true, decide_eq_true_eq]; exact ⟨hk b rfl, hr⟩
      · have hak : rising (some a) (place r k v) = true := ih _ hr (by intro b hb; cases hb; omega)
        cases lo with
        | none => simpa [rising] using hak
        | some b =>
          simp only [rising, Bool.and_eq_true, decide_eq_true_eq] at h ⊢
          exact ⟨h.1, hak⟩

theorem all_place (p : Nat × α → Bool) (l : List (Nat × α)) (k : Nat) (v : α) (h : l.all p = true)
    (hv : p (k, v) = true) : (place l k v).all p = true := by
  induction l with
  | nil => simpa [place] using hv
  | cons e r ih =>
    obtain ⟨a, w⟩ := e
    simp only [List.all_cons, Bool.and_eq_true] at h
    simp only [place]
    split
    · simp [hv, h.1, h.2]
    · split
      · simp [hv, h.2]
      · simp [h.1, ih h.2]

/-- A filter keeps the canonical form. -/
theorem wf_filter [DecidableEq α] (d : Nat → α) (p : Nat × α → Bool) (l : List (Nat × α)) (h : wf d l = true) :
    wf d (l.filter p) = true := by
  simp only [wf, Bool.and_eq_true] at h ⊢
  refine ⟨rising_filter p none l h.1, ?_⟩
  simp only [List.all_eq_true, List.mem_filter] at h ⊢
  exact fun x hx => h.2 x hx.1

/-- A write keeps the canonical form. -/
theorem wf_put [DecidableEq α] (d : Nat → α) (l : List (Nat × α)) (k : Nat) (v : α) (h : wf d l = true) :
    wf d (put d l k v) = true := by
  simp only [put]
  split
  · exact wf_filter d _ l h
  · next hv =>
    simp only [wf, Bool.and_eq_true] at h ⊢
    exact ⟨rising_place none l k v h.1 (by simp), all_place _ l k v h.2 (by simpa using hv)⟩

end CMap

/-! ### Registers -/

variable (s : State)

theorem State.rd_wr (k j : Nat) (v : Word) : (s.wr k v).rd j = if j = k then v else s.rd j :=
  CMap.lookup_put resetOf s.regs k j v

@[simp] theorem State.rd_wr_same (k : Nat) (v : Word) : (s.wr k v).rd k = v := by simp [State.rd_wr]

theorem State.rd_wr_other {k j : Nat} (v : Word) (h : j ≠ k) : (s.wr k v).rd j = s.rd j := by simp [State.rd_wr, h]

/-- The bit `i` of a field's mask. -/
theorem getLsbD_fieldMask (lo n i : Nat) : (fieldMask lo n).getLsbD i = (decide (i < 32) && decide (lo ≤ i) && decide (i < lo + n)) := by
  simp only [fieldMask, BitVec.getLsbD_ofNat, Nat.testBit_mul_two_pow, Nat.testBit_two_pow_sub_one]
  by_cases h : lo ≤ i
  · simp only [h, decide_true, Bool.true_and, Bool.and_true]
    congr 1
    exact decide_eq_decide.mpr (by omega)
  · simp [h]

theorem getLsbD_fieldPut (w : Word) (lo n v i : Nat) :
    (fieldPut w lo n v).getLsbD i =
      if decide (lo ≤ i) && decide (i < lo + n) then decide (i < 32) && v.testBit (i - lo) else w.getLsbD i := by
  simp only [fieldPut, BitVec.getLsbD_or, BitVec.getLsbD_and, BitVec.getLsbD_not, getLsbD_fieldMask,
    BitVec.getLsbD_ofNat, Nat.testBit_mul_two_pow, Nat.testBit_mod_two_pow]
  by_cases h3 : i < 32
  · by_cases h1 : lo ≤ i <;> by_cases h2 : i < lo + n
    · have : i - lo < n := by omega
      simp [h1, h2, h3, this]
    · have : ¬ (i - lo < n) := by omega
      simp [h1, h2, h3, this]
    · simp [h1, h3]
    · simp [h1, h3]
  · have : w.getLsbD i = false := BitVec.getLsbD_of_ge w i (by omega)
    simp [h3, this]

theorem fieldGet_testBit (w : Word) (lo n i : Nat) :
    (fieldGet w lo n).testBit i = (decide (i < n) && w.getLsbD (lo + i)) := by
  simp only [fieldGet, Nat.testBit_mod_two_pow, Nat.testBit_div_two_pow, BitVec.getLsbD, Nat.add_comm]

/-- A field reads back what was put into it, modulo its width. -/
theorem fieldGet_fieldPut_same (w : Word) (lo n v : Nat) (h : lo + n ≤ 32) :
    fieldGet (fieldPut w lo n v) lo n = v % 2 ^ n := by
  apply Nat.eq_of_testBit_eq
  intro i
  rw [fieldGet_testBit, getLsbD_fieldPut, Nat.testBit_mod_two_pow]
  by_cases hi : i < n
  · have h3 : lo + i < 32 := by omega
    simp [hi, h3]
  · simp [hi]

/-- A field elsewhere in the register is unchanged. -/
theorem fieldGet_fieldPut_other (w : Word) (lo n v lo' n' : Nat) (h : lo + n ≤ lo' ∨ lo' + n' ≤ lo) :
    fieldGet (fieldPut w lo n v) lo' n' = fieldGet w lo' n' := by
  apply Nat.eq_of_testBit_eq
  intro i
  rw [fieldGet_testBit, fieldGet_testBit, getLsbD_fieldPut]
  by_cases hi : i < n'
  · have : ¬ (lo ≤ lo' + i ∧ lo' + i < lo + n) := by omega
    simp only [← Bool.decide_and, this, decide_false, Bool.false_eq_true, if_false]
  · simp [hi]

/-- A field lies inside its register. -/
abbrev Fld.inside (f : Fld) : Prop := f.lo + f.w ≤ 32

/-- Two fields share no bit. -/
abbrev Fld.apart (f g : Fld) : Prop := f.reg ≠ g.reg ∨ f.lo + f.w ≤ g.lo ∨ g.lo + g.w ≤ f.lo

/-- A field read after its write. -/
theorem State.get_set (f : Fld) (v : Nat) (h : f.inside) : (s.set f v).get f = v % 2 ^ f.w := by
  simp only [State.get, State.set, State.rd_wr_same]; exact fieldGet_fieldPut_same _ _ _ _ h

/-- A field read after the write of another. -/
theorem State.get_set_other (f g : Fld) (v : Nat) (h : g.apart f) : (s.set f v).get g = s.get g := by
  simp only [State.get, State.set, State.rd_wr]
  split
  · next e =>
    rw [e]; rcases h with h | h
    · exact absurd e h
    · exact fieldGet_fieldPut_other _ _ _ _ _ _ h.symm
  · rfl

/-- A register that no part of the field's register is reads as before. -/
theorem State.rd_set_other (f : Fld) (k v : Nat) (h : k ≠ f.reg) : (s.set f v).rd k = s.rd k := by
  simp [State.set, State.rd_wr, h]

theorem State.get_lt (f : Fld) : s.get f < 2 ^ f.w := Nat.mod_lt _ (Nat.two_pow_pos _)

/-- Writing a field keeps the canonical form of the registers. -/
theorem State.wr_canonical (k : Nat) (v : Word) (h : CMap.wf resetOf s.regs = true) :
    CMap.wf resetOf (s.wr k v).regs = true := CMap.wf_put resetOf s.regs k v h

/-! ### Conditional effects -/

@[simp] theorem State.when_true (f : State → State) : s.when true f = f s := rfl
@[simp] theorem State.when_false (f : State → State) : s.when false f = s := rfl

@[simp] theorem State.withCore_rd (g : CoreBlock → CoreBlock) (k : Nat) : (s.withCore g).rd k = s.rd k := rfl
@[simp] theorem State.withCore_get (g : CoreBlock → CoreBlock) (x : Fld) : (s.withCore g).get x = s.get x := rfl
@[simp] theorem State.withMem_rd (g : MemBlock → MemBlock) (k : Nat) : (s.withMem g).rd k = s.rd k := rfl
@[simp] theorem State.withMem_get (g : MemBlock → MemBlock) (x : Fld) : (s.withMem g).get x = s.get x := rfl
@[simp] theorem State.withCyc_rd (g : CycBlock → CycBlock) (k : Nat) : (s.withCyc g).rd k = s.rd k := rfl
@[simp] theorem State.withCyc_get (g : CycBlock → CycBlock) (x : Fld) : (s.withCyc g).get x = s.get x := rfl
@[simp] theorem State.withAfe_rd (g : AfeBlock → AfeBlock) (k : Nat) : (s.withAfe g).rd k = s.rd k := rfl
@[simp] theorem State.withAfe_get (g : AfeBlock → AfeBlock) (x : Fld) : (s.withAfe g).get x = s.get x := rfl
@[simp] theorem State.withPe_rd (g : PeBlock → PeBlock) (k : Nat) : (s.withPe g).rd k = s.rd k := rfl
@[simp] theorem State.withPe_get (g : PeBlock → PeBlock) (x : Fld) : (s.withPe g).get x = s.get x := rfl
@[simp] theorem State.withGirth_rd (g : GirthBlock → GirthBlock) (k : Nat) : (s.withGirth g).rd k = s.rd k := rfl
@[simp] theorem State.withGirth_get (g : GirthBlock → GirthBlock) (x : Fld) : (s.withGirth g).get x = s.get x := rfl
@[simp] theorem State.withRec_rd (g : RecBlock → RecBlock) (k : Nat) : (s.withRec g).rd k = s.rd k := rfl
@[simp] theorem State.withRec_get (g : RecBlock → RecBlock) (x : Fld) : (s.withRec g).get x = s.get x := rfl
@[simp] theorem State.withFio_rd (g : FioBlock → FioBlock) (k : Nat) : (s.withFio g).rd k = s.rd k := rfl
@[simp] theorem State.withFio_get (g : FioBlock → FioBlock) (x : Fld) : (s.withFio g).get x = s.get x := rfl
@[simp] theorem State.withAlp_rd (g : AlpBlock → AlpBlock) (k : Nat) : (s.withAlp g).rd k = s.rd k := rfl
@[simp] theorem State.withAlp_get (g : AlpBlock → AlpBlock) (x : Fld) : (s.withAlp g).get x = s.get x := rfl
@[simp] theorem State.withNet_rd (g : NetBlock → NetBlock) (k : Nat) : (s.withNet g).rd k = s.rd k := rfl
@[simp] theorem State.withNet_get (g : NetBlock → NetBlock) (x : Fld) : (s.withNet g).get x = s.get x := rfl
@[simp] theorem State.withTime_rd (g : TimeBlock → TimeBlock) (k : Nat) : (s.withTime g).rd k = s.rd k := rfl
@[simp] theorem State.withTime_get (g : TimeBlock → TimeBlock) (x : Fld) : (s.withTime g).get x = s.get x := rfl
@[simp] theorem State.withOct_rd (g : OctBlock → OctBlock) (k : Nat) : (s.withOct g).rd k = s.rd k := rfl
@[simp] theorem State.withOct_get (g : OctBlock → OctBlock) (x : Fld) : (s.withOct g).get x = s.get x := rfl
@[simp] theorem State.withBrg_rd (g : BrgBlock → BrgBlock) (k : Nat) : (s.withBrg g).rd k = s.rd k := rfl
@[simp] theorem State.withBrg_get (g : BrgBlock → BrgBlock) (x : Fld) : (s.withBrg g).get x = s.get x := rfl
@[simp] theorem State.withPair_rd (g : PairBlock → PairBlock) (k : Nat) : (s.withPair g).rd k = s.rd k := rfl
@[simp] theorem State.withPair_get (g : PairBlock → PairBlock) (x : Fld) : (s.withPair g).get x = s.get x := rfl
@[simp] theorem State.withSys_rd (g : SysBlock → SysBlock) (k : Nat) : (s.withSys g).rd k = s.rd k := rfl
@[simp] theorem State.withSys_get (g : SysBlock → SysBlock) (x : Fld) : (s.withSys g).get x = s.get x := rfl

end Sys2Proof.Machine
end

