-- ==== Sys2Proof/Laws/Core.lean ====
section
/-!
SUPPORT. What the shared operations of the cores do: the frame of an instruction, a register written, an exception entered, a return.
-/

namespace Sys2Proof.Machine

variable (s u : State) (c : Master)

@[simp] theorem State.coreOf_onCore (f : CoreState → CoreState) : (s.onCore c f).coreOf c = f (s.coreOf c) := by
  cases c <;> rfl

@[simp] theorem State.onCore_onCore (f g : CoreState → CoreState) :
    (s.onCore c f).onCore c g = s.onCore c fun x => g (f x) := by cases c <;> rfl

@[simp] theorem State.coreOf_withMem (g : MemBlock → MemBlock) : (s.withMem g).coreOf c = s.coreOf c := by cases c <;> rfl

@[simp] theorem State.onCore_regs (f : CoreState → CoreState) : (s.onCore c f).regs = s.regs := by cases c <;> rfl
@[simp] theorem State.onCore_mem (f : CoreState → CoreState) : (s.onCore c f).mem = s.mem := by cases c <;> rfl
@[simp] theorem State.onCore_memb (f : CoreState → CoreState) : (s.onCore c f).memb = s.memb := by cases c <;> rfl
@[simp] theorem State.onCore_get (f : CoreState → CoreState) (x : Fld) : (s.onCore c f).get x = s.get x := by cases c <;> rfl
@[simp] theorem State.onCore_rd (f : CoreState → CoreState) (k : Nat) : (s.onCore c f).rd k = s.rd k := by cases c <;> rfl

/-- A change of core `c` alone is a change of core `c` only. -/
theorem CoreOnly.onCore (f : CoreState → CoreState) : CoreOnly c u (u.onCore c f) := by
  unfold CoreOnly; rw [State.coreOf_onCore]; cases c <;> rfl

/-- The frame of an instruction that runs: its body on the state after the fetch. -/
theorem State.instruction_runs {s u : State} {c : Master} (h : s.Runs c u) (body : State → State) :
    s.instruction c body = body u := by
  simp [State.instruction, h.1, h.2]

/-! ### Registers -/

@[simp] theorem CoreState.gpr_zero (x : CoreState) : x.gpr 0 = 0 := rfl

theorem CoreState.gpr_setGpr (x : CoreState) (n m : RegNo) (v : Word) :
    (x.setGpr n v).gpr m = if m = n then (if n = 0 then 0 else v) else x.gpr m := by
  unfold CoreState.setGpr CoreState.gpr
  by_cases hn : n = 0
  · subst hn; simp only [if_true]
    split
    · subst_vars; rfl
    · rfl
  · simp only [hn, if_false]
    by_cases hm : m = 0
    · subst hm; simp [Ne.symm hn]
    · simp only [hm, if_false, CMap.lookup_put]
      by_cases e : m = n
      · simp [e]
      · have : m.val ≠ n.val := fun h => e (Fin.ext h)
        simp [e, this]

@[simp] theorem CoreState.setGpr_fp (x : CoreState) (n : RegNo) (v : Word) : (x.setGpr n v).fp = x.fp := by
  unfold CoreState.setGpr; split <;> rfl
@[simp] theorem CoreState.setGpr_spr (x : CoreState) (n : RegNo) (v : Word) : (x.setGpr n v).spr = x.spr := by
  unfold CoreState.setGpr; split <;> rfl
@[simp] theorem CoreState.setGpr_pc (x : CoreState) (n : RegNo) (v : Word) : (x.setGpr n v).pc = x.pc := by
  unfold CoreState.setGpr; split <;> rfl
@[simp] theorem CoreState.setGpr_ric (x : CoreState) (n : RegNo) (v : Word) : (x.setGpr n v).ric = x.ric := by
  unfold CoreState.setGpr; split <;> rfl
@[simp] theorem CoreState.setGpr_wait (x : CoreState) (n : RegNo) (v : Word) : (x.setGpr n v).wait = x.wait := by
  unfold CoreState.setGpr; split <;> rfl
@[simp] theorem CoreState.setGpr_special (x : CoreState) (n : RegNo) (v : Word) (k : Nat) :
    (x.setGpr n v).special k = x.special k := by unfold CoreState.special; rw [setGpr_spr]

/-- A register written by `setGpr`, whatever else of PC, count and wait changes. -/
theorem GpWritten.setGpr {x y : CoreState} {rd : RegNo} {v : Word} (hg : y.gp = (x.setGpr rd v).gp)
    (hf : y.fp = x.fp) (hs : y.spr = x.spr) : GpWritten x y rd v := by
  have hr : ∀ m, y.gpr m = (x.setGpr rd v).gpr m := fun m => by unfold CoreState.gpr; rw [hg]
  refine ⟨?_, ?_, hf, hs⟩
  · rw [hr, CoreState.gpr_setGpr]; simp
  · intro n hn; rw [hr, CoreState.gpr_setGpr]; simp [hn]

theorem CoreState.fpr_setFpr (x : CoreState) (n m : RegNo) (v : DWord) :
    (x.setFpr n v).fpr m = if m = n then v else x.fpr m := by
  unfold CoreState.setFpr CoreState.fpr
  simp only [CMap.lookup_put]
  by_cases e : m = n
  · simp [e]
  · have : m.val ≠ n.val := fun h => e (Fin.ext h)
    simp [e, this]

theorem CoreState.special_setSpecial (x : CoreState) (n m : Nat) (v : Word) :
    (x.setSpecial n v).special m = if m = n then v else x.special m := CMap.lookup_put sprReset x.spr n m v

@[simp] theorem CoreState.setSpecial_gp (x : CoreState) (n : Nat) (v : Word) : (x.setSpecial n v).gp = x.gp := rfl
@[simp] theorem CoreState.setSpecial_fp (x : CoreState) (n : Nat) (v : Word) : (x.setSpecial n v).fp = x.fp := rfl
@[simp] theorem CoreState.setSpecial_pc (x : CoreState) (n : Nat) (v : Word) : (x.setSpecial n v).pc = x.pc := rfl
@[simp] theorem CoreState.setSpecial_ric (x : CoreState) (n : Nat) (v : Word) : (x.setSpecial n v).ric = x.ric := rfl

/-- What `finishGp` does: the register, one retired instruction, nothing else. -/
theorem State.finishGp_spec (rd : RegNo) (v : Word) :
    CoreOnly c u (u.finishGp c rd v) ∧ GpWritten (u.coreOf c) ((u.finishGp c rd v).coreOf c) rd v ∧
      Retired (u.coreOf c) ((u.finishGp c rd v).coreOf c) := by
  refine ⟨CoreOnly.onCore _ _ _, ?_, ?_⟩
  · unfold State.finishGp; rw [State.coreOf_onCore]
    exact GpWritten.setGpr rfl (by simp [CoreState.retire, CoreState.count]) (by simp [CoreState.retire, CoreState.count])
  · unfold State.finishGp Retired; rw [State.coreOf_onCore]
    simp [CoreState.retire, CoreState.count]

/-! ### Exceptions -/

@[simp] theorem State.clearReservation_coreOf : (s.clearReservation c).coreOf c = s.coreOf c := by cases c <;> rfl
@[simp] theorem State.clearReservation_regs : (s.clearReservation c).regs = s.regs := rfl
@[simp] theorem State.clearReservation_mem : (s.clearReservation c).mem = s.mem := rfl

theorem fieldGet_lt (w : Word) (lo n : Nat) : fieldGet w lo n < 2 ^ n := Nat.mod_lt _ (Nat.two_pow_pos _)

/-- The saved status word gives its fields back (03 R119). -/
theorem estat_fields (p q : Nat) (i : Bool) (hp : p < 4) (hq : q < 32) :
    fieldGet (BitVec.ofNat 32 (p + (if i then 4 else 0) + q * 256)) 0 2 = p ∧
      fieldGet (BitVec.ofNat 32 (p + (if i then 4 else 0) + q * 256)) 2 1 = i.toNat ∧
      fieldGet (BitVec.ofNat 32 (p + (if i then 4 else 0) + q * 256)) 8 5 = q := by
  cases i
  all_goals
    simp only [fieldGet, BitVec.toNat_ofNat, Bool.toNat, Bool.cond_true, Bool.cond_false, Bool.false_eq_true, if_true, if_false,
      Nat.reducePow]
    refine ⟨?_, ?_, ?_⟩ <;> omega

theorem CoreState.priv_lt (x : CoreState) : x.priv < 4 := fieldGet_lt (x.special sprSTATUS) 0 2
theorem CoreState.part_lt (x : CoreState) : x.part < 32 := fieldGet_lt (x.special sprSTATUS) 8 5

/-- Exception entry does what 03 R119 says. -/
theorem State.enterException_spec (m : Bool) (cause sub : Nat) (epc eaddr : Word) :
    Entered (u.coreOf c) ((u.enterException c m cause sub epc eaddr).coreOf c) m cause sub epc eaddr ∧
      (u.enterException c m cause sub epc eaddr).regs = u.regs ∧
      (u.enterException c m cause sub epc eaddr).mem = u.mem ∧
      ((u.enterException c m cause sub epc eaddr).coreOf c).ric = (u.coreOf c).ric ∧
      (∀ n, n ≠ sprSTATUS → n ≠ sprEPC m → n ≠ sprESTAT m → n ≠ sprECAUSE m → n ≠ sprEADDR m →
        ((u.enterException c m cause sub epc eaddr).coreOf c).special n = (u.coreOf c).special n) := by
  unfold State.enterException
  simp only [State.clearReservation_coreOf, State.coreOf_onCore, State.clearReservation_regs, State.clearReservation_mem,
    State.onCore_regs, State.onCore_mem]
  generalize hx : u.coreOf c = x
  have hf := estat_fields x.priv x.part x.ie (CoreState.priv_lt _) (CoreState.part_lt _)
  refine ⟨?_, trivial, trivial, rfl, ?_⟩
  · have hp : fieldGet (CMap.lookup sprReset x.spr 0) 0 2 = x.priv := rfl
    generalize x.priv = p at *
    have hi : (fieldGet (CMap.lookup sprReset x.spr 0) 2 1 == 1) = x.ie := rfl
    generalize x.ie = i at *
    have hq : fieldGet (CMap.lookup sprReset x.spr 0) 8 5 = x.part := rfl
    generalize x.part = q at *
    cases m
    all_goals
      refine ⟨?_, ?_, ?_, ?_, ?_, ?_, ?_, ?_, ?_, ?_, ?_, ?_, ?_⟩
      all_goals
        simp only [Bool.false_eq_true, if_true, if_false, CoreState.setSpecial_gp, CoreState.setSpecial_fp, CoreState.priv,
          CoreState.ie, CoreState.part, CoreState.exle, CoreState.exlm, CoreState.sprField, CoreState.putSprField]
      all_goals try
        simp [CoreState.special, CoreState.setSpecial, CMap.lookup_put, sprSTATUS, sprEPC, sprESTAT, sprECAUSE, sprEADDR,
          fieldGet_fieldPut_same, fieldGet_fieldPut_other, hf.1, hf.2.1, hf.2.2, hp, hi, hq]
  · intro n h1 h2 h3 h4 h5
    simp [CoreState.putSprField, CoreState.special, CoreState.setSpecial, CMap.lookup_put, h1, h2, h3, h4, h5]

/-- An exception at partition or executive privilege with EXLE = 0 enters the executive (03 R117). -/
theorem State.raise_executive (cause sub : Nat) (epc eaddr : Word) (hp : (u.coreOf c).priv ≤ 1)
    (he : (u.coreOf c).exle = false) (hc : cause ≠ 13) :
    u.raise c cause sub epc eaddr = u.enterException c false cause sub epc eaddr := by
  have : ¬ (u.coreOf c).priv = 2 := by omega
  simp [State.raise, this, he, hc]

/-- A monitor call below monitor privilege enters the monitor (03 R117). -/
theorem State.raise_monitorCall (sub : Nat) (epc eaddr : Word) (hp : (u.coreOf c).priv ≤ 1) :
    u.raise c 13 sub epc eaddr = u.enterException c true 13 sub epc eaddr := by
  have : ¬ (u.coreOf c).priv = 2 := by omega
  simp [State.raise, doubles, this]

end Sys2Proof.Machine
end

