-- ==== Sys2Proof/Laws/Ops.lean ====
section
/-!
SUPPORT. Laws of the named operations of Machine/Ops.lean: time, events, mailboxes, modes, demands.
-/

namespace Sys2Proof.Machine

variable (s : State)

/-! ### Time -/

theorem State.fioSample_cases (t : Nat) : ∃ f, s.fioSample t = { s with fio := f } := by
  unfold State.fioSample
  dsimp only
  split
  · exact ⟨_, rfl⟩
  · exact ⟨_, rfl⟩

theorem State.advance_cases (t : Nat) : s.advance t = s ∨ ∃ f m y, s.advance t = { s with fio := f, mono := m, sync := y } := by
  obtain ⟨f, h⟩ := s.fioSample_cases t
  unfold State.advance
  split
  · exact .inl rfl
  · rw [h]; exact .inr ⟨_, _, _, rfl⟩

@[simp] theorem State.advance_regs (t : Nat) : (s.advance t).regs = s.regs := by
  rcases s.advance_cases t with h | ⟨_, _, _, h⟩ <;> rw [h]
@[simp] theorem State.advance_mem (t : Nat) : (s.advance t).mem = s.mem := by
  rcases s.advance_cases t with h | ⟨_, _, _, h⟩ <;> rw [h]
@[simp] theorem State.advance_cx (t : Nat) : (s.advance t).cx = s.cx := by
  rcases s.advance_cases t with h | ⟨_, _, _, h⟩ <;> rw [h]
@[simp] theorem State.advance_sc0 (t : Nat) : (s.advance t).sc0 = s.sc0 := by
  rcases s.advance_cases t with h | ⟨_, _, _, h⟩ <;> rw [h]
@[simp] theorem State.advance_sc1 (t : Nat) : (s.advance t).sc1 = s.sc1 := by
  rcases s.advance_cases t with h | ⟨_, _, _, h⟩ <;> rw [h]
@[simp] theorem State.advance_core (t : Nat) : (s.advance t).core = s.core := by
  rcases s.advance_cases t with h | ⟨_, _, _, h⟩ <;> rw [h]
@[simp] theorem State.advance_memb (t : Nat) : (s.advance t).memb = s.memb := by
  rcases s.advance_cases t with h | ⟨_, _, _, h⟩ <;> rw [h]
@[simp] theorem State.advance_cyc (t : Nat) : (s.advance t).cyc = s.cyc := by
  rcases s.advance_cases t with h | ⟨_, _, _, h⟩ <;> rw [h]
@[simp] theorem State.advance_afe (t : Nat) : (s.advance t).afe = s.afe := by
  rcases s.advance_cases t with h | ⟨_, _, _, h⟩ <;> rw [h]
@[simp] theorem State.advance_pe (t : Nat) : (s.advance t).pe = s.pe := by
  rcases s.advance_cases t with h | ⟨_, _, _, h⟩ <;> rw [h]
@[simp] theorem State.advance_girth (t : Nat) : (s.advance t).girth = s.girth := by
  rcases s.advance_cases t with h | ⟨_, _, _, h⟩ <;> rw [h]
@[simp] theorem State.advance_recb (t : Nat) : (s.advance t).recb = s.recb := by
  rcases s.advance_cases t with h | ⟨_, _, _, h⟩ <;> rw [h]
@[simp] theorem State.advance_alp (t : Nat) : (s.advance t).alp = s.alp := by
  rcases s.advance_cases t with h | ⟨_, _, _, h⟩ <;> rw [h]
@[simp] theorem State.advance_net (t : Nat) : (s.advance t).net = s.net := by
  rcases s.advance_cases t with h | ⟨_, _, _, h⟩ <;> rw [h]
@[simp] theorem State.advance_time (t : Nat) : (s.advance t).time = s.time := by
  rcases s.advance_cases t with h | ⟨_, _, _, h⟩ <;> rw [h]
@[simp] theorem State.advance_oct (t : Nat) : (s.advance t).oct = s.oct := by
  rcases s.advance_cases t with h | ⟨_, _, _, h⟩ <;> rw [h]
@[simp] theorem State.advance_brg (t : Nat) : (s.advance t).brg = s.brg := by
  rcases s.advance_cases t with h | ⟨_, _, _, h⟩ <;> rw [h]
@[simp] theorem State.advance_pair (t : Nat) : (s.advance t).pair = s.pair := by
  rcases s.advance_cases t with h | ⟨_, _, _, h⟩ <;> rw [h]
@[simp] theorem State.advance_sys (t : Nat) : (s.advance t).sys = s.sys := by
  rcases s.advance_cases t with h | ⟨_, _, _, h⟩ <;> rw [h]
@[simp] theorem State.advance_flash (t : Nat) : (s.advance t).flash = s.flash := by
  rcases s.advance_cases t with h | ⟨_, _, _, h⟩ <;> rw [h]
@[simp] theorem State.advance_flashBad (t : Nat) : (s.advance t).flashBad = s.flashBad := by
  rcases s.advance_cases t with h | ⟨_, _, _, h⟩ <;> rw [h]
@[simp] theorem State.advance_netbuf (t : Nat) : (s.advance t).netbuf = s.netbuf := by
  rcases s.advance_cases t with h | ⟨_, _, _, h⟩ <;> rw [h]
@[simp] theorem State.advance_emitted (t : Nat) : (s.advance t).emitted = s.emitted := by
  rcases s.advance_cases t with h | ⟨_, _, _, h⟩ <;> rw [h]
@[simp] theorem State.advance_busData (t : Nat) : (s.advance t).busData = s.busData := by
  rcases s.advance_cases t with h | ⟨_, _, _, h⟩ <;> rw [h]
@[simp] theorem State.advance_busError (t : Nat) : (s.advance t).busError = s.busError := by
  rcases s.advance_cases t with h | ⟨_, _, _, h⟩ <;> rw [h]
@[simp] theorem State.advance_free (t : Nat) : (s.advance t).free = s.free := by
  rcases s.advance_cases t with h | ⟨_, _, _, h⟩ <;> rw [h]
@[simp] theorem State.advance_pending (t : Nat) : (s.advance t).pending = s.pending := by
  rcases s.advance_cases t with h | ⟨_, _, _, h⟩ <;> rw [h]
@[simp] theorem State.advance_mono (t : Nat) : (s.advance t).mono = max s.mono t := by
  unfold State.advance
  split
  · next h => exact (Nat.max_eq_left h).symm
  · next h => exact (Nat.max_eq_right (Nat.le_of_lt (Nat.lt_of_not_le h))).symm
@[simp] theorem State.advance_rd (t k : Nat) : (s.advance t).rd k = s.rd k := by simp [State.rd]
@[simp] theorem State.advance_get (t : Nat) (f : Fld) : (s.advance t).get f = s.get f := by simp [State.get]
@[simp] theorem State.advance_bit (t : Nat) (f : Fld) : (s.advance t).bit f = s.bit f := by simp [State.bit]
@[simp] theorem State.advance_mode (t : Nat) : (s.advance t).mode = s.mode := by simp [State.mode]
/-- Time never runs back, and an event of the past changes nothing. -/
theorem State.advance_past (t : Nat) (h : t ≤ s.mono) : s.advance t = s := by simp [State.advance, h]

/-! ### Events -/

theorem State.foldl_set (l : List Fld) (g : State → Fld → Nat) :
    ∃ r, l.foldl (fun (x : State) f => x.set f (g x f)) s = { s with regs := r } := by
  induction l generalizing s with
  | nil => exact ⟨s.regs, rfl⟩
  | cons f r ih => obtain ⟨q, h⟩ := ih (s.set f (g s f)); exact ⟨q, h⟩

theorem State.emit_cases (code : Nat) (vals : List Nat) :
    ∃ r, s.emit code vals = { s with regs := r, emitted := s.emitted ++ [⟨code, vals, s.mono⟩] } := by
  obtain ⟨r, h⟩ := s.foldl_set (lastEvtFields (code / 0x1000)) fun x f => x.get f + 1
  exact ⟨r, by simp only [State.emit, h]⟩

@[simp] theorem State.emit_mem (c : Nat) (v : List Nat) : (s.emit c v).mem = s.mem := by
  obtain ⟨_, h⟩ := s.emit_cases c v; rw [h]
@[simp] theorem State.emit_cx (c : Nat) (v : List Nat) : (s.emit c v).cx = s.cx := by
  obtain ⟨_, h⟩ := s.emit_cases c v; rw [h]
@[simp] theorem State.emit_sc0 (c : Nat) (v : List Nat) : (s.emit c v).sc0 = s.sc0 := by
  obtain ⟨_, h⟩ := s.emit_cases c v; rw [h]
@[simp] theorem State.emit_sc1 (c : Nat) (v : List Nat) : (s.emit c v).sc1 = s.sc1 := by
  obtain ⟨_, h⟩ := s.emit_cases c v; rw [h]
@[simp] theorem State.emit_core (c : Nat) (v : List Nat) : (s.emit c v).core = s.core := by
  obtain ⟨_, h⟩ := s.emit_cases c v; rw [h]
@[simp] theorem State.emit_memb (c : Nat) (v : List Nat) : (s.emit c v).memb = s.memb := by
  obtain ⟨_, h⟩ := s.emit_cases c v; rw [h]
@[simp] theorem State.emit_cyc (c : Nat) (v : List Nat) : (s.emit c v).cyc = s.cyc := by
  obtain ⟨_, h⟩ := s.emit_cases c v; rw [h]
@[simp] theorem State.emit_afe (c : Nat) (v : List Nat) : (s.emit c v).afe = s.afe := by
  obtain ⟨_, h⟩ := s.emit_cases c v; rw [h]
@[simp] theorem State.emit_pe (c : Nat) (v : List Nat) : (s.emit c v).pe = s.pe := by
  obtain ⟨_, h⟩ := s.emit_cases c v; rw [h]
@[simp] theorem State.emit_girth (c : Nat) (v : List Nat) : (s.emit c v).girth = s.girth := by
  obtain ⟨_, h⟩ := s.emit_cases c v; rw [h]
@[simp] theorem State.emit_recb (c : Nat) (v : List Nat) : (s.emit c v).recb = s.recb := by
  obtain ⟨_, h⟩ := s.emit_cases c v; rw [h]
@[simp] theorem State.emit_fio (c : Nat) (v : List Nat) : (s.emit c v).fio = s.fio := by
  obtain ⟨_, h⟩ := s.emit_cases c v; rw [h]
@[simp] theorem State.emit_alp (c : Nat) (v : List Nat) : (s.emit c v).alp = s.alp := by
  obtain ⟨_, h⟩ := s.emit_cases c v; rw [h]
@[simp] theorem State.emit_net (c : Nat) (v : List Nat) : (s.emit c v).net = s.net := by
  obtain ⟨_, h⟩ := s.emit_cases c v; rw [h]
@[simp] theorem State.emit_time (c : Nat) (v : List Nat) : (s.emit c v).time = s.time := by
  obtain ⟨_, h⟩ := s.emit_cases c v; rw [h]
@[simp] theorem State.emit_oct (c : Nat) (v : List Nat) : (s.emit c v).oct = s.oct := by
  obtain ⟨_, h⟩ := s.emit_cases c v; rw [h]
@[simp] theorem State.emit_brg (c : Nat) (v : List Nat) : (s.emit c v).brg = s.brg := by
  obtain ⟨_, h⟩ := s.emit_cases c v; rw [h]
@[simp] theorem State.emit_pair (c : Nat) (v : List Nat) : (s.emit c v).pair = s.pair := by
  obtain ⟨_, h⟩ := s.emit_cases c v; rw [h]
@[simp] theorem State.emit_sys (c : Nat) (v : List Nat) : (s.emit c v).sys = s.sys := by
  obtain ⟨_, h⟩ := s.emit_cases c v; rw [h]
@[simp] theorem State.emit_flash (c : Nat) (v : List Nat) : (s.emit c v).flash = s.flash := by
  obtain ⟨_, h⟩ := s.emit_cases c v; rw [h]
@[simp] theorem State.emit_flashBad (c : Nat) (v : List Nat) : (s.emit c v).flashBad = s.flashBad := by
  obtain ⟨_, h⟩ := s.emit_cases c v; rw [h]
@[simp] theorem State.emit_netbuf (c : Nat) (v : List Nat) : (s.emit c v).netbuf = s.netbuf := by
  obtain ⟨_, h⟩ := s.emit_cases c v; rw [h]
@[simp] theorem State.emit_mono (c : Nat) (v : List Nat) : (s.emit c v).mono = s.mono := by
  obtain ⟨_, h⟩ := s.emit_cases c v; rw [h]
@[simp] theorem State.emit_sync (c : Nat) (v : List Nat) : (s.emit c v).sync = s.sync := by
  obtain ⟨_, h⟩ := s.emit_cases c v; rw [h]
@[simp] theorem State.emit_busData (c : Nat) (v : List Nat) : (s.emit c v).busData = s.busData := by
  obtain ⟨_, h⟩ := s.emit_cases c v; rw [h]
@[simp] theorem State.emit_busError (c : Nat) (v : List Nat) : (s.emit c v).busError = s.busError := by
  obtain ⟨_, h⟩ := s.emit_cases c v; rw [h]
@[simp] theorem State.emit_free (c : Nat) (v : List Nat) : (s.emit c v).free = s.free := by
  obtain ⟨_, h⟩ := s.emit_cases c v; rw [h]
@[simp] theorem State.emit_pending (c : Nat) (v : List Nat) : (s.emit c v).pending = s.pending := by
  obtain ⟨_, h⟩ := s.emit_cases c v; rw [h]
@[simp] theorem State.emit_emitted (c : Nat) (v : List Nat) : (s.emit c v).emitted = s.emitted ++ [⟨c, v, s.mono⟩] := by
  obtain ⟨_, h⟩ := s.emit_cases c v; rw [h]

theorem State.get_foldl_set (l : List Fld) (g : State → Fld → Nat) (x : Fld) (h : ∀ f ∈ l, x.apart f) :
    (l.foldl (fun (y : State) f => y.set f (g y f)) s).get x = s.get x := by
  induction l generalizing s with
  | nil => rfl
  | cons f r ih =>
    rw [List.foldl_cons, ih _ fun f hf => h f (List.mem_cons_of_mem _ hf)]
    exact State.get_set_other s f x _ (h f (List.mem_cons_self ..))

theorem State.rd_foldl_set (l : List Fld) (g : State → Fld → Nat) (k : Nat) (h : ∀ f ∈ l, k ≠ f.reg) :
    (l.foldl (fun (y : State) f => y.set f (g y f)) s).rd k = s.rd k := by
  induction l generalizing s with
  | nil => rfl
  | cons f r ih =>
    rw [List.foldl_cons, ih _ fun f hf => h f (List.mem_cons_of_mem _ hf)]
    exact State.rd_set_other s f k _ (h f (List.mem_cons_self ..))

/-- An event leaves every field but the event sequences of its block. -/
theorem State.emit_get (c : Nat) (v : List Nat) (x : Fld) (h : ∀ f ∈ lastEvtFields (c / 0x1000), x.apart f) :
    (s.emit c v).get x = s.get x := s.get_foldl_set _ (fun x f => x.get f + 1) x h

theorem State.emit_rd (c : Nat) (v : List Nat) (k : Nat) (h : ∀ f ∈ lastEvtFields (c / 0x1000), k ≠ f.reg) :
    (s.emit c v).rd k = s.rd k := s.rd_foldl_set _ (fun x f => x.get f + 1) k h

/-! ### Mailboxes -/

@[simp] theorem State.answer_mem (l r : Fld) (v : Nat) : (s.answer l r v).mem = s.mem := rfl
@[simp] theorem State.answer_cx (l r : Fld) (v : Nat) : (s.answer l r v).cx = s.cx := rfl
@[simp] theorem State.answer_sc0 (l r : Fld) (v : Nat) : (s.answer l r v).sc0 = s.sc0 := rfl
@[simp] theorem State.answer_sc1 (l r : Fld) (v : Nat) : (s.answer l r v).sc1 = s.sc1 := rfl
@[simp] theorem State.answer_core (l r : Fld) (v : Nat) : (s.answer l r v).core = s.core := rfl
@[simp] theorem State.answer_memb (l r : Fld) (v : Nat) : (s.answer l r v).memb = s.memb := rfl
@[simp] theorem State.answer_cyc (l r : Fld) (v : Nat) : (s.answer l r v).cyc = s.cyc := rfl
@[simp] theorem State.answer_afe (l r : Fld) (v : Nat) : (s.answer l r v).afe = s.afe := rfl
@[simp] theorem State.answer_pe (l r : Fld) (v : Nat) : (s.answer l r v).pe = s.pe := rfl
@[simp] theorem State.answer_girth (l r : Fld) (v : Nat) : (s.answer l r v).girth = s.girth := rfl
@[simp] theorem State.answer_recb (l r : Fld) (v : Nat) : (s.answer l r v).recb = s.recb := rfl
@[simp] theorem State.answer_fio (l r : Fld) (v : Nat) : (s.answer l r v).fio = s.fio := rfl
@[simp] theorem State.answer_alp (l r : Fld) (v : Nat) : (s.answer l r v).alp = s.alp := rfl
@[simp] theorem State.answer_net (l r : Fld) (v : Nat) : (s.answer l r v).net = s.net := rfl
@[simp] theorem State.answer_time (l r : Fld) (v : Nat) : (s.answer l r v).time = s.time := rfl
@[simp] theorem State.answer_oct (l r : Fld) (v : Nat) : (s.answer l r v).oct = s.oct := rfl
@[simp] theorem State.answer_brg (l r : Fld) (v : Nat) : (s.answer l r v).brg = s.brg := rfl
@[simp] theorem State.answer_pair (l r : Fld) (v : Nat) : (s.answer l r v).pair = s.pair := rfl
@[simp] theorem State.answer_flash (l r : Fld) (v : Nat) : (s.answer l r v).flash = s.flash := rfl
@[simp] theorem State.answer_flashBad (l r : Fld) (v : Nat) : (s.answer l r v).flashBad = s.flashBad := rfl
@[simp] theorem State.answer_netbuf (l r : Fld) (v : Nat) : (s.answer l r v).netbuf = s.netbuf := rfl
@[simp] theorem State.answer_mono (l r : Fld) (v : Nat) : (s.answer l r v).mono = s.mono := rfl
@[simp] theorem State.answer_sync (l r : Fld) (v : Nat) : (s.answer l r v).sync = s.sync := rfl
@[simp] theorem State.answer_emitted (l r : Fld) (v : Nat) : (s.answer l r v).emitted = s.emitted := rfl
@[simp] theorem State.answer_busData (l r : Fld) (v : Nat) : (s.answer l r v).busData = s.busData := rfl
@[simp] theorem State.answer_busError (l r : Fld) (v : Nat) : (s.answer l r v).busError = s.busError := rfl
@[simp] theorem State.answer_free (l r : Fld) (v : Nat) : (s.answer l r v).free = s.free := rfl
@[simp] theorem State.answer_pending (l r : Fld) (v : Nat) : (s.answer l r v).pending = s.pending := rfl
@[simp] theorem State.answer_rd (l r : Fld) (v k : Nat) : (s.answer l r v).rd k = (s.set r v).rd k := rfl
@[simp] theorem State.answer_get (l r x : Fld) (v : Nat) : (s.answer l r v).get x = (s.set r v).get x := rfl
@[simp] theorem State.answer_bit (l r x : Fld) (v : Nat) : (s.answer l r v).bit x = (s.set r v).bit x := rfl

/-- An accepted command at a mailbox: its action runs with the sequence advanced, and its result is reported. -/
theorem State.mailbox_accepts {last : Fld} {cseq : Nat} (h : s.Accepts last cseq) (res : Fld) (act : State → State × Nat) (e : Nat)
    (rf : State → State) : s.mailbox last res cseq act e rf =
      (act (s.set last cseq)).1.answer last res (act (s.set last cseq)).2 := by
  rw [State.Accepts] at h; simp only [State.mailbox, h]

theorem State.mailboxLater_accepts {last : Fld} {cseq r : Nat} (h : s.Accepts last cseq) (res : Fld)
    (act : State → State × Option Nat) (e : Nat) (rf : State → State) (hr : (act (s.set last cseq)).2 = some r) :
    s.mailboxLater last res cseq act e rf = (act (s.set last cseq)).1.answer last res r := by
  rw [State.Accepts] at h; simp only [State.mailboxLater, h]
  split <;> simp_all

/-! ### Demands -/

theorem State.demand_eq (c d : Nat) : s.demand c d = { s with sys := { s.sys with demands := s.sys.demands ++ [(c, d)] } } := rfl

@[simp] theorem State.demand_regs (c d : Nat) : (s.demand c d).regs = s.regs := rfl
@[simp] theorem State.demand_mem (c d : Nat) : (s.demand c d).mem = s.mem := rfl
@[simp] theorem State.demand_cx (c d : Nat) : (s.demand c d).cx = s.cx := rfl
@[simp] theorem State.demand_sc0 (c d : Nat) : (s.demand c d).sc0 = s.sc0 := rfl
@[simp] theorem State.demand_sc1 (c d : Nat) : (s.demand c d).sc1 = s.sc1 := rfl
@[simp] theorem State.demand_core (c d : Nat) : (s.demand c d).core = s.core := rfl
@[simp] theorem State.demand_memb (c d : Nat) : (s.demand c d).memb = s.memb := rfl
@[simp] theorem State.demand_cyc (c d : Nat) : (s.demand c d).cyc = s.cyc := rfl
@[simp] theorem State.demand_afe (c d : Nat) : (s.demand c d).afe = s.afe := rfl
@[simp] theorem State.demand_pe (c d : Nat) : (s.demand c d).pe = s.pe := rfl
@[simp] theorem State.demand_girth (c d : Nat) : (s.demand c d).girth = s.girth := rfl
@[simp] theorem State.demand_recb (c d : Nat) : (s.demand c d).recb = s.recb := rfl
@[simp] theorem State.demand_fio (c d : Nat) : (s.demand c d).fio = s.fio := rfl
@[simp] theorem State.demand_alp (c d : Nat) : (s.demand c d).alp = s.alp := rfl
@[simp] theorem State.demand_net (c d : Nat) : (s.demand c d).net = s.net := rfl
@[simp] theorem State.demand_time (c d : Nat) : (s.demand c d).time = s.time := rfl
@[simp] theorem State.demand_oct (c d : Nat) : (s.demand c d).oct = s.oct := rfl
@[simp] theorem State.demand_brg (c d : Nat) : (s.demand c d).brg = s.brg := rfl
@[simp] theorem State.demand_pair (c d : Nat) : (s.demand c d).pair = s.pair := rfl
@[simp] theorem State.demand_flash (c d : Nat) : (s.demand c d).flash = s.flash := rfl
@[simp] theorem State.demand_flashBad (c d : Nat) : (s.demand c d).flashBad = s.flashBad := rfl
@[simp] theorem State.demand_netbuf (c d : Nat) : (s.demand c d).netbuf = s.netbuf := rfl
@[simp] theorem State.demand_mono (c d : Nat) : (s.demand c d).mono = s.mono := rfl
@[simp] theorem State.demand_sync (c d : Nat) : (s.demand c d).sync = s.sync := rfl
@[simp] theorem State.demand_emitted (c d : Nat) : (s.demand c d).emitted = s.emitted := rfl
@[simp] theorem State.demand_busData (c d : Nat) : (s.demand c d).busData = s.busData := rfl
@[simp] theorem State.demand_busError (c d : Nat) : (s.demand c d).busError = s.busError := rfl
@[simp] theorem State.demand_free (c d : Nat) : (s.demand c d).free = s.free := rfl
@[simp] theorem State.demand_pending (c d : Nat) : (s.demand c d).pending = s.pending := rfl
@[simp] theorem State.demand_rd (c d k : Nat) : (s.demand c d).rd k = s.rd k := rfl
@[simp] theorem State.demand_get (c d : Nat) (f : Fld) : (s.demand c d).get f = s.get f := rfl

end Sys2Proof.Machine
end

