-- ==== Sys2Proof/Laws/Mem.lean ====
section
/-!
SUPPORT. Every operation over memory and registers keeps the canonical form of both, so that equal contents are equal data; what a
write leaves at every other word.
-/

namespace Sys2Proof.Machine

open Reg

variable {s : State}

/-! ### What changes neither memory nor registers -/

theorem State.Canonical.of_eq {t : State} (h : s.Canonical) (hm : t.mem = s.mem) (hr : t.regs = s.regs) : t.Canonical := by
  unfold State.Canonical at *; rw [hm, hr]; exact h

theorem State.Canonical.withMem (h : s.Canonical) (f : MemBlock → MemBlock) : (s.withMem f).Canonical := h

theorem State.Canonical.advance (h : s.Canonical) (t : Nat) : (s.advance t).Canonical :=
  h.of_eq (State.advance_mem s t) (State.advance_regs s t)

theorem State.Canonical.demand (h : s.Canonical) (c d : Nat) : (s.demand c d).Canonical := h

theorem State.Canonical.when (h : s.Canonical) {c : Bool} {f : State → State} (hf : ∀ u : State, u.Canonical → (f u).Canonical) :
    (s.when c f).Canonical := by
  unfold State.when; split
  · exact hf s h
  · exact h

theorem State.Canonical.foldl {β : Type} {f : State → β → State} (hf : ∀ (u : State) (b : β), u.Canonical → (f u b).Canonical)
    (h : s.Canonical) (l : List β) : (l.foldl f s).Canonical := by
  induction l generalizing s with
  | nil => exact h
  | cons b r ih => exact ih (hf s b h)

/-! ### Registers -/

theorem State.Canonical.wr (h : s.Canonical) (k : Nat) (v : Word) : (s.wr k v).Canonical := ⟨h.1, CMap.wf_put _ _ k v h.2⟩
theorem State.Canonical.set (h : s.Canonical) (f : Fld) (v : Nat) : (s.set f v).Canonical := h.wr _ _
theorem State.Canonical.setBit (h : s.Canonical) (f : Fld) (b : Bool) : (s.setBit f b).Canonical := h.set f _
theorem State.Canonical.inc (h : s.Canonical) (f : Fld) (n : Nat := 1) : (s.inc f n).Canonical := h.set f _
theorem State.Canonical.sset (h : s.Canonical) (f : Fld) (i : Int) : (s.sset f i).Canonical := h.set f _

theorem State.Canonical.emit (h : s.Canonical) (code : Nat) (vals : List Nat) : (s.emit code vals).Canonical :=
  State.Canonical.foldl (f := fun u f => u.set f (u.get f + 1)) (fun _ f hu => hu.set f _) h _

theorem State.Canonical.answer (h : s.Canonical) (last res : Fld) (r : Nat) : (s.answer last res r).Canonical := h.set res r

theorem State.Canonical.sysDemand (h : s.Canonical) (code detail : Nat) : (s.sysDemand code detail).Canonical :=
  (h.when fun _ hu => ((hu.set _ _).set _ _).emit _ _).demand _ _

theorem State.Canonical.toMode (h : s.Canonical) (m : Mode) (cause : Nat) : (s.toMode m cause).Canonical := by
  unfold State.toMode; split
  · exact h
  · exact ((h.set _ _).set _ _).emit _ _

theorem State.Canonical.guaranteeBreak (h : s.Canonical) (a b c d e f : Nat) : (s.guaranteeBreak a b c d e f).Canonical :=
  (h.inc _).emit _ _

theorem State.Canonical.repeatAnswer (h : s.Canonical) (last res : Fld) : (s.repeatAnswer last res).Canonical := by
  unfold State.repeatAnswer; split
  · exact h.set _ _
  · exact h

theorem State.Canonical.mailbox (h : s.Canonical) (last res : Fld) (cseq : Nat) {act : State → State × Nat} (errorCode : Nat)
    {refuse : State → State} (ha : ∀ u : State, u.Canonical → (act u).1.Canonical)
    (hr : ∀ u : State, u.Canonical → (refuse u).Canonical) : (s.mailbox last res cseq act errorCode refuse).Canonical := by
  unfold State.mailbox; split
  · exact (ha _ (h.set _ _)).answer _ _ _
  · exact h.repeatAnswer _ _
  · exact hr _ (h.set _ _)

theorem State.Canonical.mailboxLater (h : s.Canonical) (last res : Fld) (cseq : Nat) {act : State → State × Option Nat}
    (errorCode : Nat) {refuse : State → State} (ha : ∀ u : State, u.Canonical → (act u).1.Canonical)
    (hr : ∀ u : State, u.Canonical → (refuse u).Canonical) : (s.mailboxLater last res cseq act errorCode refuse).Canonical := by
  unfold State.mailboxLater; split
  · have := ha _ (h.set last cseq)
    split
    · next e => rw [e] at this; exact this.answer _ _ _
    · next e => rw [e] at this; exact this
  · exact h.repeatAnswer _ _
  · exact hr _ (h.set _ _)

/-! ### Memory words -/

theorem State.Canonical.store (h : s.Canonical) (k : Nat) (w : MWord) : (s.store k w).Canonical := ⟨CMap.wf_put _ _ k w h.1, h.2⟩

/-- A stored word reads back; every other word reads as before. -/
theorem State.stored_store (k j : Nat) (w : MWord) : (s.store k w).stored j = if j = k then w else s.stored j :=
  CMap.lookup_put _ _ k j w

theorem State.Canonical.filterMem (h : s.Canonical) (p : Nat × MWord → Bool) : ({ s with mem := s.mem.filter p } : State).Canonical :=
  ⟨CMap.wf_filter _ p _ h.1, h.2⟩

theorem State.Canonical.showPoison (h : s.Canonical) : s.showPoison.Canonical := by
  unfold State.showPoison; split
  · exact ((((((h.set _ _).set _ _).set _ _).set _ _).set _ _).set _ _).set _ _
  · exact ((((((h.set _ _).set _ _).setBit _ _).set _ _).setBit _ _).set _ _).set _ _

theorem State.Canonical.queuePoison (h : s.Canonical) (k m : Nat) : (s.queuePoison k m).Canonical := by
  unfold State.queuePoison; split
  · exact h.setBit _ _
  · exact (h.withMem _).showPoison

theorem State.Canonical.cancelWriteback (h : s.Canonical) (k : Nat) : (s.cancelWriteback k).Canonical := h.withMem _

theorem State.Canonical.poison (h : s.Canonical) (k m c : Nat) (v : List Nat) : (s.poison k m c v).Canonical :=
  ((((h.cancelWriteback _).store _ _).inc _).emit _ _).queuePoison _ _

theorem State.Canonical.refetch (h : s.Canonical) (k n m : Nat) : (s.refetch k n m).1.Canonical := by
  unfold State.refetch; dsimp only; split
  · exact h.poison _ _ _ _
  · exact ((h.cancelWriteback _).store _ _).emit _ _

theorem State.Canonical.noteCorrection (h : s.Canonical) (k : Nat) (w f : MWord) (v c : Bool) :
    (s.noteCorrection k w f v c).Canonical := by
  have h1 (l : List Nat) := ((((((((h.inc MEM_CECNT_COUNT).set MEM_LASTCE_ADDR (reported k)).set MEM_LASTCS_SYN (syndrome w)).setBit
    MEM_LASTCS_VBIT v).set MEM_LASTCS_SPACE (spaceOf k).code).setBit MEM_LASTCS_SRC c).set MEM_LASTCS_HARD 0).emit 0x2001 l)
  unfold State.noteCorrection; dsimp only; split
  · exact h1 _
  · exact (h1 _).withMem _

theorem State.Canonical.markBlock (h : s.Canonical) (k : Nat) : (s.markBlock k).Canonical := by
  unfold State.markBlock; dsimp only; split <;> (split <;> exact h)

theorem State.Canonical.putWord (h : s.Canonical) (k : Nat) (w : MWord) : (s.putWord k w).Canonical := by
  have h1 := (h.withMem fun m => { m with wback := m.wback.filter fun e => e.1 != k }).markBlock k
  unfold State.putWord; dsimp only; split
  · exact ((((h1.store _ _).withMem _).setBit _ _).setBit _ _).emit _ _
  · exact h1.store _ _

theorem State.Canonical.writeWord (h : s.Canonical) (k : Nat) (d : Word) : (s.writeWord k d).Canonical := h.putWord k _

theorem State.Canonical.discardPartial (h : s.Canonical) (k m p : Nat) : (s.discardPartial k m p).Canonical := h.emit _ _

theorem State.Canonical.readModifyWrite (h : s.Canonical) (k : Nat) (be : BitVec 4) (d : Word) (m p : Nat) :
    (s.readModifyWrite k be d m p).Canonical := by
  unfold State.readModifyWrite; dsimp only; split
  · exact (h.when fun _ hu => hu.noteCorrection _ _ _ _ _).writeWord _ _
  · exact (h.when fun _ hu => hu.noteCorrection _ _ _ _ _).writeWord _ _
  · exact (h.queuePoison _ _).discardPartial _ _ _
  · split
    · next n _ =>
      have hr := h.refetch k n m
      split
      · next e => rw [e] at hr; exact hr.writeWord _ _
      · next e => rw [e] at hr; exact hr.discardPartial _ _ _
    · exact (h.poison _ _ _ _).discardPartial _ _ _

theorem State.Canonical.writeBytes (h : s.Canonical) (k : Nat) (be : BitVec 4) (d : Word) (m p : Nat) :
    (s.writeBytes k be d m p).Canonical := by
  unfold State.writeBytes; split
  · exact h.writeWord _ _
  · exact h.readModifyWrite _ _ _ _ _

/-! ### The merge buffer -/

theorem State.Canonical.flushEntry (h : s.Canonical) (e : MergeEntry) : (s.flushEntry e).Canonical :=
  (h.withMem _).writeBytes _ _ _ _ _

theorem State.Canonical.flushWhere (h : s.Canonical) (p : MergeEntry → Bool) : (s.flushWhere p).Canonical :=
  State.Canonical.foldl (fun _ e hu => hu.flushEntry e) h _

theorem State.Canonical.flushWord (h : s.Canonical) (k : Nat) : (s.flushWord k).Canonical := h.flushWhere _
theorem State.Canonical.flushMaster (h : s.Canonical) (c : Master) : (s.flushMaster c).Canonical := h.flushWhere _
theorem State.Canonical.flushFull (h : s.Canonical) (k : Nat) (c : Master) : (s.flushFull k c).Canonical := h.flushWhere _

theorem State.Canonical.breakReservations (h : s.Canonical) (k : Nat) (c : Option Master) :
    (s.breakReservations k c).Canonical := h

theorem State.Canonical.mergeStore (h : s.Canonical) (c : Master) (k : Nat) (be : BitVec 4) (d : Word) (p : Nat) :
    (s.mergeStore c k be d p).Canonical := by
  have h1 := (h.breakReservations k (some c)).flushWhere fun e => e.key == k && e.owner != c
  unfold State.mergeStore; dsimp only; split
  · exact (h1.withMem _).flushFull _ _
  · refine State.Canonical.flushFull (State.Canonical.withMem ?_ _) _ _
    split
    · split
      · exact h1.flushEntry _
      · exact h1
    · exact h1

theorem State.Canonical.agentWrite (h : s.Canonical) (k : Nat) (be : BitVec 4) (d : Word) (m p : Nat) :
    (s.agentWrite k be d m p).Canonical := by
  unfold State.agentWrite; dsimp only; split
  · exact h.breakReservations k none
  · exact ((h.breakReservations k none).flushWord k).writeBytes _ _ _ _ _

/-! ### Reads -/

theorem State.Canonical.badRead (h : s.Canonical) (k : Nat) (r : Reader) : (s.badRead k r).1.Canonical := by
  unfold State.badRead; split
  · exact (h.emit _ _).sysDemand _ _
  · exact h

theorem State.Canonical.readWord (h : s.Canonical) (k : Nat) (r : Reader) : (s.readWord k r).1.Canonical := by
  have h1 := h.flushWord k
  unfold State.readWord; dsimp only; split
  · have h2 := h1.when (c := ‹Bool›) fun _ hu => hu.noteCorrection k ((s.flushWord k).stored k) unwrittenMarker false false
    exact h2.when fun _ hu => hu.emit _ _
  · exact h1.when fun _ hu => hu.noteCorrection _ _ _ _ _
  · exact (h1.emit _ _).badRead _ _
  · split
    · exact (h1.poison _ _ _ _).badRead _ _
    · next n _ =>
      split
      · exact h1.withMem _
      · exact h1.withMem _
      · have hr := h1.refetch k n 0
        split
        · next e => rw [e] at hr; exact hr
        · next e => rw [e] at hr; exact hr.badRead _ _

/-! ### Clearing, write-back, copies -/

/-! ### The module's MRAM -/

theorem State.Canonical.moduleWrite (h : s.Canonical) (k : Nat) (d : Word) : (s.moduleWrite k d).Canonical := by
  unfold State.moduleWrite; split
  · exact (h.cancelWriteback _).store _ _
  · exact h

/-- A module word written leaves every other word. -/
theorem State.stored_moduleWrite (k j : Nat) (d : Word) (hj : j ≠ k) : (s.moduleWrite k d).stored j = s.stored j := by
  unfold State.moduleWrite; split
  · rw [State.stored_store, if_neg hj]; rfl
  · rfl

theorem State.Canonical.moduleRead (h : s.Canonical) (k : Nat) : (s.moduleRead k).1.Canonical := by
  have hr := h.readWord k (.block 0 0)
  unfold State.moduleRead; split
  · next e => rw [e] at hr; exact hr
  · next e => rw [e] at hr; exact hr

theorem State.Canonical.writeCopy (h : s.Canonical) (k : Nat) (g : BitVec 16) (l : List Word) : (s.writeCopy k g l).Canonical := by
  have step (l : List Word) : ∀ (u : State) (k : Nat), u.Canonical →
      (l.foldl (fun (x : State × Nat) w => (x.1.moduleWrite x.2 w, x.2 + 4)) (u, k)).1.Canonical := by
    induction l with
    | nil => exact fun u k hu => hu
    | cons w r ih => exact fun u k hu => ih _ _ (hu.moduleWrite k w)
  exact step _ _ _ h

/-- A record written leaves every word outside it. -/
theorem State.stored_writeCopy (k j : Nat) (g : BitVec 16) (l : List Word) (hj : j < k ∨ k + 4 * (l.length + 1) < j) :
    (s.writeCopy k g l).stored j = s.stored j := by
  have step (l : List Word) : ∀ (u : State) (k : Nat), (j < k ∨ k + 4 * l.length ≤ j + 3) →
      (l.foldl (fun (x : State × Nat) w => (x.1.moduleWrite x.2 w, x.2 + 4)) (u, k)).1.stored j = u.stored j := by
    induction l with
    | nil => exact fun u k _ => rfl
    | cons w r ih =>
      intro u k hk
      simp only [List.length_cons] at hk
      rw [List.foldl_cons, ih _ _ (by omega), State.stored_moduleWrite _ _ _ (by omega)]
  exact step _ _ _ (by simp only [List.length_append, List.length_cons, List.length_nil]; omega)

theorem State.Canonical.loadBoot (h : s.Canonical) : s.loadBoot.Canonical := h.wr _ _

theorem State.Canonical.saveBoot (h : s.Canonical) : s.saveBoot.Canonical := h.writeCopy _ _ _

theorem State.Canonical.clearWords (h : s.Canonical) (lo hi : Nat) : (s.clearWords lo hi).Canonical := h.filterMem _

theorem State.Canonical.handleUncorrectable (h : s.Canonical) (k : Nat) : (s.handleUncorrectable k).Canonical := by
  unfold State.handleUncorrectable; split
  · exact h.withMem _
  · exact h.poison _ _ _ _

theorem State.Canonical.setVariables (h : s.Canonical) (l : List (Nat × Nat × Word)) : (s.setVariables l).Canonical :=
  State.Canonical.foldl (fun _ _ hu => by
    split
    · exact hu.agentWrite _ _ _ _ _
    · exact hu) h _

theorem State.Canonical.clearVariables (h : s.Canonical) (r : Nat × Nat × Nat) : (s.clearVariables r).Canonical := by
  unfold State.clearVariables; split
  · exact ⟨CMap.wf_filter _ _ _ h.1, h.2⟩
  · exact h

theorem State.Canonical.carryWord (h : s.Canonical) (p b i j : Nat) : (s.carryWord p b i j).Canonical := by
  unfold State.carryWord; split
  · next a k _ _ =>
    split
    · exact h
    · dsimp only
      have hr := h.readWord a (.block 4 p)
      split
      · next e => rw [e] at hr; exact ((hr.breakReservations _ _).flushWord _).putWord _ _
      · next e => rw [e] at hr; exact ((hr.breakReservations _ _).flushWord _).putWord _ _
  · exact h

theorem State.Canonical.loadWords (h : s.Canonical) (l : List (Nat × Word)) : (s.loadWords l).Canonical :=
  State.Canonical.foldl (fun _ _ hu => hu.store _ _) h _

theorem State.Canonical.withSys (h : s.Canonical) (f : SysBlock → SysBlock) : (s.withSys f).Canonical := h

/-- A reset leaves a canonical memory and canonical registers. -/
theorem State.Canonical.moduleReset (h : s.Canonical) (lost : Bool) : (s.moduleReset lost).Canonical := by
  unfold State.moduleReset
  refine State.Canonical.set (State.Canonical.withSys (State.Canonical.setBit (State.Canonical.foldl
    (fun u k hu => State.Canonical.wr hu k (s.rd k)) ?_ _) _ _) _) _ _
  exact ⟨CMap.wf_filter _ _ _ h.1, rfl⟩

/-- The memory after reset has its canonical form. -/
theorem reset_memory_wf : Memory.wf State.reset.mem = true := rfl

end Sys2Proof.Machine
end

