-- ==== Sys2Proof/Laws/Time.lean ====
section
/-!
SUPPORT. Girth's time against MONO: the bounds of its deviation (08 R276).
-/

namespace Sys2Proof.Machine

theorem girthRate_ge (k : Nat) : -49997 ≤ girthRate k := Int.le_max_left ..

theorem girthRate_le (k : Nat) : girthRate k ≤ 50002 := by unfold girthRate; omega

theorem girthDrift_ge (k : Nat) : -50000 * (k : Int) ≤ girthDrift k := by
  induction k with
  | zero => simp [girthDrift]
  | succ k ih => have := girthRate_ge k; simp only [girthDrift]; omega

theorem girthDrift_le (k : Nat) : girthDrift k ≤ 50002 * (k : Int) := by
  induction k with
  | zero => simp [girthDrift]
  | succ k ih => have := girthRate_le k; simp only [girthDrift]; omega

/-- Girth's time falls behind MONO by at most 50 ppm. -/
theorem girthTime_ge (m : Nat) : m - m / 20000 - 2 ≤ girthTime m := by
  have hd := girthDrift_ge (m / 1000000000)
  have hr := girthRate_ge (m / 1000000000)
  have hx : -50000 * ((m % 1000000000 : Nat) : Int) ≤ girthRate (m / 1000000000) * ((m % 1000000000 : Nat) : Int) :=
    Int.mul_le_mul_of_nonneg_right (by omega) (by omega)
  unfold girthTime
  omega

/-- Girth's time runs ahead of MONO by at most 50.002 ppm. -/
theorem girthTime_le (m : Nat) : girthTime m ≤ m + m / 19999 + 1 := by
  have hd := girthDrift_le (m / 1000000000)
  have hr := girthRate_le (m / 1000000000)
  have hx : girthRate (m / 1000000000) * ((m % 1000000000 : Nat) : Int) ≤ 50002 * ((m % 1000000000 : Nat) : Int) :=
    Int.mul_le_mul_of_nonneg_right (by omega) (by omega)
  unfold girthTime
  omega

end Sys2Proof.Machine
end

