-- ==== Sys2Proof/Tests/Slice0.lean ====
section
/-!
SUPPORT. Tests: the checks of WellFormed refuse ill-formed terms; expected values from the spec's tables; for every statement with
hypotheses, concrete states and operands that meet them together, clause by clause.
-/

namespace Sys2Proof.Tests

set_option Elab.async false

open Sys2Proof.Machine Sys2Proof.Machine.Reg

/-! ### Small states -/

/-- Reset with fields set. -/
def st (l : List (Fld × Nat)) : State := l.foldl (fun s e => s.set e.1 e.2) State.reset

/-- A mode, with fields set. -/
def inMode (m : Mode) (l : List (Fld × Nat) := []) : State := st ((SYS_MODE_MODE, m.code) :: l)

/-- The complex at a privilege with PC in SRAM, partition 0 owning every address. -/
def coreAt (priv : Nat) (s : State := State.reset) (f : CoreState → CoreState := id) : State :=
  { s with cx := f { pc := 0x1000#32, spr := [(sprSTATUS, BitVec.ofNat 32 priv)] }
           sys := { s.sys with parts := [{ index := 0, safety := false, lo := 0, hi := 0xFFFFFFFF }] } }

/-- The state after the complex's fetch. -/
def fetched (s : State) : State := (s.fetch .cx).1

theorem runs_of {s : State} (h : (s.executes .cx && decide ((s.fetch .cx).2 = .ok)) = true) : s.Runs .cx (fetched s) := by
  simp only [Bool.and_eq_true, decide_eq_true_eq] at h
  exact ⟨h.1, Prod.ext rfl h.2⟩

def p0 : State := coreAt 0
def p1 : State := coreAt 1
def p2 : State := coreAt 2

theorem runs_p0 : p0.Runs .cx (fetched p0) := runs_of (by decide +kernel)
theorem runs_p1 : p1.Runs .cx (fetched p1) := runs_of (by decide +kernel)
theorem runs_p2 : p2.Runs .cx (fetched p2) := runs_of (by decide +kernel)
theorem runs_reset : State.reset.Runs .cx (fetched State.reset) := runs_of (by decide +kernel)
/-! ### WellFormed refuses -/

theorem test_wf_time_refused : WellFormed.time (2 ^ 64) = false ∧ WellFormed.time (2 ^ 64 - 1) = true := by decide
theorem test_wf_edge_refused : WellFormed.edgeTime 125001 = false ∧ WellFormed.edgeTime 125000 = true := by decide
theorem test_wf_aligned_refused : WellFormed.aligned 2 = false ∧ WellFormed.aligned (2 ^ 32) = false := by decide
theorem test_wf_header_refused : WellFormed.header ⟨2 ^ 32, List.replicate 40 0⟩ = false ∧ WellFormed.header ⟨0, [0]⟩ = false := by decide
theorem test_wf_datagram_refused : WellFormed.datagram (.access (2 ^ 32) 0 0 none) = false := by decide
theorem test_wf_message_refused : WellFormed.message (.block 0 [0]) = false ∧ WellFormed.message (.forces [⟨0, 8, 0⟩]) = false := by decide
theorem test_wf_record_refused : WellFormed.record ⟨16, 0, 0, [], []⟩ = false := by decide
theorem test_wf_joined_refused : WellFormed.joined (.configuration 0 4) = false := by decide
theorem test_wf_varEntry_refused : WellFormed.varEntry ⟨0, 8, 0, 0⟩ = false ∧ WellFormed.varEntry ⟨0, 1, 1024, 0⟩ = false := by decide

/-- A package that names image entry 1024. -/
def badPackage : ChangePackage :=
  { base := 0, identity := 0, parts := 0, plannedNs := 0, carry := [], reverse := [], entries := [⟨1024, 0, 0, 0⟩], tasks := [],
    sources := [], vars := [] }

theorem test_wf_package_refused : WellFormed.package badPackage = false ∧ WellFormed.offered (some badPackage) = false ∧
    (Instr.prepare 0 badPackage).wellFormed = false := by decide
theorem test_wf_slot_refused : WellFormed.slot ⟨0, 256, 0, 0⟩ = false := by decide
theorem test_wf_partition_refused : WellFormed.partition { index := 32, safety := false, lo := 0, hi := 0 } = false ∧
    WellFormed.partition { index := 0, safety := false, lo := 1, hi := 0 } = false := by decide
theorem test_wf_configuration_refused : WellFormed.configuration { values := [(2, 0)] } = false := by decide
theorem test_wf_sequence_refused : (Instr.safeCommand 0 65536).wellFormed = false := by decide
theorem test_wf_tickEdge_refused : (Instr.tickEdge 1 0 []).wellFormed = false ∧ (Instr.tickEdge 0 0 [3, 3]).wellFormed = false := by decide
theorem test_wf_window_refused : (Instr.bandwidthWindowEnd 1 ⟨[], []⟩).wellFormed = false := by decide
theorem test_wf_cycRun_refused : (Instr.cycRunWrite 0 16 true).wellFormed = false := by decide
theorem test_wf_force_refused : (Instr.forceSet 0 8 true).wellFormed = false := by decide
theorem test_wf_frame_refused : (Instr.afeFrameStart 0 [(24, 0)]).wellFormed = false := by decide
theorem test_wf_upset_refused : (Instr.peSlotStart 0 0 [(2 ^ 32, 0)]).wellFormed = false := by decide
theorem test_wf_captureStored_refused : (Instr.captureStored 0 [1, 1]).wellFormed = false := by decide
theorem test_wf_hart_refused : (Instr.hartGo 0 0 0 512).wellFormed = false ∧
    (Instr.hartTransactionEnd 0 false 0 (List.replicate 273 0)).wellFormed = false := by decide +kernel
theorem test_wf_pd_refused : (Instr.pdReceive 0 0 ⟨0, List.replicate 40 0⟩ (List.replicate 1433 0)).wellFormed = false ∧
    (Instr.safeCopyReceive 0 0 ⟨0, List.replicate 40 0⟩ (List.replicate 1433 0) true).wellFormed = false := by decide +kernel
theorem test_wf_ring_refused : (Instr.ringFrameReceive 0 0 .kept false (List.replicate 1523 0)).wellFormed = false ∧
    (Instr.arpIcmpReceive 0 0 true false (List.replicate 1523 0)).wellFormed = false := by decide +kernel
theorem test_wf_tool_refused : (Instr.maintDatagram 0 (2 ^ 48) 0 .request).wellFormed = false := by decide
theorem test_wf_octet_refused : (Instr.octFrameReceive 0 0 0 ⟨0, List.replicate 128 0, 0, true⟩).wellFormed = false := by decide +kernel
theorem test_wf_bridle_refused : (Instr.pcieLinkChange 0 true 4 0).wellFormed = false ∧
    (Instr.pcieCompletionReceive 0 256 0 {} []).wellFormed = false ∧ (Instr.completionTimeout 0 256).wellFormed = false ∧
    (Instr.flushTimer 0 272).wellFormed = false ∧ (Instr.pcieErrorMessage 0 [272] none).wellFormed = false ∧
    (Instr.pcieInboundRequest 0 ⟨0, 2 ^ 32, none⟩).wellFormed = false := by decide
theorem test_wf_pair_refused : (Instr.pairBlockReceive 0 (.block 0 [])).wellFormed = false ∧
    (Instr.commitRecordReceive 0 ⟨16, 0, 0, [], []⟩ true).wellFormed = false ∧ (Instr.snapshotReceive 0 0 [(1024, [])]).wellFormed = false ∧
    (Instr.partnerBlockReceive 0 (List.replicate 359 0)).wellFormed = false ∧
    (Instr.joinPhaseComplete 0 (.configuration 0 4)).wellFormed = false := by decide +kernel
theorem test_wf_start_refused : (Instr.firmwareLoaded 0 ⟨⟨0, 256, 0, 0⟩, ⟨0, 0, 0, 0⟩, [], [], 0⟩).wellFormed = false ∧
    (Instr.startTestComplete 0 ⟨[(0, 0), (0, 1)], [], 0, [(0, 0)]⟩).wellFormed = false ∧
    (Instr.loadComplete 0 ⟨0, 256, 0, 0⟩ {}).wellFormed = false ∧
    (Instr.sysFlashCommandDone 0 (List.replicate 3 ⟨true, true, true, true, 0⟩) []).wellFormed = false := by decide

/-! ### Witnesses: cores -/

theorem witness_StepRunsFrontCommand : State.reset.pending = [] := rfl

theorem witness_IntegerOperationsWriteResult :
    p1.Runs .cx (fetched p1) ∧
    ((intUnary .clz = true → (0 : RegNo) = 0) ∧ intResult .clz ((fetched p1).cx.gpr 31) ((fetched p1).cx.gpr 0) 0 = some 32) ∧
    (intUnary .add = true → (31 : RegNo) = 0) ∧ intResult .add ((fetched p1).cx.gpr 0) ((fetched p1).cx.gpr 31) 31 = some 0 ∧
    (ImmOp.lui = .lui → (0 : RegNo) = 0) := ⟨runs_p1, by decide +kernel⟩

theorem witness_DivisionAndProductResults :
    (1#32 ≠ 0 ∧ ¬ (5#32 = 0x80000000#32 ∧ 1#32 = 0xFFFFFFFF#32)) ∧ p1.Runs .cx (fetched p1) ∧ p0.Runs .cx (fetched p0) ∧
    ((fetched p1).cx.gpr 31 = 0 ∧ (fetched p1).cx.priv ≤ 1 ∧ (fetched p1).cx.exle = false) ∧
    (fetched p0).cx.gpr 0 = 0 ∧ (fetched p0).cx.priv ≤ 1 ∧ (fetched p0).cx.exle = false :=
  ⟨by decide, runs_p1, runs_p0, by decide +kernel⟩

theorem witness_BranchesAndJumpsSetPc :
    p1.Runs .cx (fetched p1) ∧ ((fetched p1).cx.gpr 0 + (4#16).signExtend 32).toNat % 4 = 0 ∧
    ((fetched p1).cx.gpr 0 + (2#16).signExtend 32).toNat % 4 ≠ 0 ∧ (fetched p1).cx.priv ≤ 1 ∧ (fetched p1).cx.exle = false :=
  ⟨runs_p1, by decide +kernel⟩

/-- 1.0 + 1.0 raises nothing; 0 / 0 raises NV, enabled. -/
def fpTrap : State := coreAt 1 State.reset fun x => x.setSpecial sprFPSR 0xF80#32

theorem witness_FloatingPointOperationsWriteResult :
    (p1.Runs .cx (fetched p1) ∧ fpDefined .fadd false 1 0 = true ∧
      Nat.land (fpResult .fadd false (Rounding.ofCode ((fetched p1).cx.sprField sprFPSR 0 2)) ((fetched p1).cx.fpr 0)
        ((fetched p1).cx.fpr 1) ((fetched p1).cx.fpr 0) ((fetched p1).cx.gpr 0)).flags
        ((fetched p1).cx.sprField sprFPSR 7 5) = 0) ∧
    fpTrap.Runs .cx (fetched fpTrap) ∧ fpDefined .fdiv false 1 0 = true ∧
      Nat.land (fpResult .fdiv false (Rounding.ofCode ((fetched fpTrap).cx.sprField sprFPSR 0 2)) ((fetched fpTrap).cx.fpr 0)
        ((fetched fpTrap).cx.fpr 1) ((fetched fpTrap).cx.fpr 0) ((fetched fpTrap).cx.gpr 0)).flags
        ((fetched fpTrap).cx.sprField sprFPSR 7 5) ≠ 0 ∧
      (fetched fpTrap).cx.priv ≤ 1 ∧ (fetched fpTrap).cx.exle = false :=
  ⟨⟨runs_p1, by decide +kernel⟩, runs_of (by decide +kernel), by decide +kernel⟩

/-- Line 19 held and enabled, interrupts on. -/
def line19 : State := coreAt 1 State.reset fun x =>
  { (x.setSpecial sprSTATUS 0x5#32).setSpecial sprIMASK 0x80000#32 with tline := true }

theorem takenLine_19 (v : Word) : takenLine line19.cx (BitVec.ofNat 32 (line19.linesHeld .cx) ||| (v &&& openLines)) = some 19 := by
  have h : (BitVec.ofNat 32 (line19.linesHeld .cx) ||| (v &&& openLines)) &&& line19.cx.special sprIMASK = 0x80000#32 := by
    rw [BitVec.and_comm, BitVec.and_or_distrib_left, BitVec.and_comm v, ← BitVec.and_assoc]
    have h1 : line19.cx.special sprIMASK &&& BitVec.ofNat 32 (line19.linesHeld .cx) = 0x80000#32 := by decide +kernel
    have h2 : line19.cx.special sprIMASK &&& openLines = 0#32 := by decide +kernel
    rw [h1, h2]; simp
  unfold takenLine; rw [h]; decide +kernel

theorem witness_CallsAndTrapsEnterTheirLevel :
    (p0.Runs .cx (fetched p0) ∧ (fetched p0).cx.priv = 0 ∧ (fetched p0).cx.exle = false) ∧
    (p1.Runs .cx (fetched p1) ∧ (fetched p1).cx.priv = 1) ∧
    (definedEncoding 0xFFFFFFFF#32 = false ∧ (fetched p1).cx.priv ≤ 1 ∧ (fetched p1).cx.exle = false) ∧
    (decodeWord .cx 0 none 0x08BEFFF0#32).isSome = true ∧
    line19.interruptible .cx = true ∧ line19.fetchRaises .cx = false ∧ takenLine line19.cx (line19.ipend .cx).2 = some 19 :=
  ⟨⟨runs_p0, by decide +kernel⟩, ⟨runs_p1, by decide +kernel⟩, by decide +kernel, by decide +kernel, by decide +kernel, by decide +kernel,
    takenLine_19 _⟩

/-- SERVICE: halting debug is available. -/
def dbg : State := coreAt 1 (inMode .service)
/-- Comparator 0 set at PC. -/
def dbgSet : State := { dbg with core := { dbg.core with cmpSet := [0, 5] }, cx := dbg.cx.setSpecial 0x200 0x1000#32 }
def runSet : State := { dbgSet.set SYS_MODE_MODE 6 with cx := dbgSet.cx }

theorem witness_BreakHaltsUnderDebug :
    (dbg.Runs .cx (fetched dbg) ∧ (fetched dbg).haltOpen = true) ∧
    (p1.Runs .cx (fetched p1) ∧ (fetched p1).debugRefused ≠ none ∧ (fetched p1).cx.priv ≤ 1 ∧ (fetched p1).cx.exle = false) ∧
    (dbgSet.core.cmpSet.contains 0 = true ∧ dbgSet.cx.special (0x200 + 0) = dbgSet.cx.pc ∧
      (dbgSet.advance 1).executes .cx = true ∧ dbgSet.haltOpen = true) ∧
    (dbgSet.core.cmpSet.contains 5 = true ∧ dbgSet.cx.special (0x200 + 5) = 0) ∧
    runSet.core.cmpSet.contains 0 = true ∧ runSet.debugRefused ≠ none :=
  ⟨⟨runs_of (by decide +kernel), by decide +kernel⟩, ⟨runs_p1, by decide +kernel⟩, by decide +kernel⟩

/-- ESTAT of the executive names a privilege above it. -/
def badReturn : State := coreAt 1 State.reset fun x => x.setSpecial (sprESTAT false) 2#32
def badMonitor : State := coreAt 2 State.reset fun x => x.setSpecial (sprESTAT true) 3#32

theorem witness_ReturnRestoresSavedState :
    (p0.Runs .cx (fetched p0) ∧ (fetched p0).cx.priv = 0 ∧ (fetched p0).cx.exle = false) ∧
    (p1.Runs .cx (fetched p1) ∧ (fetched p1).cx.priv = 1 ∧
      fieldGet ((fetched p1).cx.special (sprESTAT false)) 0 2 ≤ (fetched p1).cx.priv ∧
      ((fetched p1).cx.special (sprEPC false)).toNat % 4 = 0) ∧
    (p2.Runs .cx (fetched p2) ∧ (fetched p2).cx.priv = 2 ∧
      fieldGet ((fetched p2).cx.special (sprESTAT true)) 0 2 ≤ (fetched p2).cx.priv ∧
      ((fetched p2).cx.special (sprEPC true)).toNat % 4 = 0) ∧
    (badReturn.Runs .cx (fetched badReturn) ∧ (fetched badReturn).cx.priv = 1 ∧
      (fetched badReturn).cx.priv < fieldGet ((fetched badReturn).cx.special (sprESTAT false)) 0 2 ∧
      (fetched badReturn).cx.exle = false) ∧
    badMonitor.Runs .cx (fetched badMonitor) ∧ (fetched badMonitor).cx.priv = 2 ∧
      (fetched badMonitor).cx.priv < fieldGet ((fetched badMonitor).cx.special (sprESTAT true)) 0 2 ∧
      (fetched badMonitor).cx.exlm = false :=
  ⟨⟨runs_p0, by decide +kernel⟩, ⟨runs_p1, by decide +kernel⟩, ⟨runs_p2, by decide +kernel⟩,
    ⟨runs_of (by decide +kernel), by decide +kernel⟩, runs_of (by decide +kernel), by decide +kernel⟩

theorem witness_SpecialRegistersReadAndWritten :
    (p1.Runs .cx (fetched p1) ∧ (fetched p1).cx.priv = 1 ∧ (fetched p1).cx.exle = false) ∧
    (p0.Runs .cx (fetched p0) ∧ (fetched p0).cx.priv = 0 ∧ (fetched p0).cx.exle = false) ∧
    (sprReadLevel sprFPSR = some 0 ∧ sprReadLevel sprRIC_LO = some 0 ∧ sprReadLevel (sprEPC false) = some 1) ∧
    sprWriteLevel sprFPSR = some 0 ∧ sprWriteLevel (sprEPC false) = some 1 :=
  ⟨⟨runs_p1, by decide +kernel⟩, ⟨runs_p0, by decide +kernel⟩, by decide +kernel⟩

/-- What a load part answers at an address of SRAM nothing has written. -/
def loaded (s : State) (op : LoadOp) (a : Nat) : State := (s.loadPart .cx op a).1

theorem loadPart_of {s : State} {op : LoadOp} {a : Nat} {w : Word} (h : (s.loadPart .cx op a).2 = .data w) :
    s.loadPart .cx op a = (loaded s op a, .data w) := Prod.ext rfl h

theorem witness_LoadsWriteTheirRegister :
    p1.Runs .cx (fetched p1) ∧
    ((fetched p1).ea .cx 0 0x2001 % 2 ^ loadSize .lbu = 0 ∧
      (fetched p1).loadPart .cx (.gp .lbu 5) ((fetched p1).ea .cx 0 0x2001) = (loaded (fetched p1) (.gp .lbu 5) 0x2001, .data 0)) ∧
    ((fetched p1).ea .cx 0 0x2004 % 4 = 0 ∧
      (fetched p1).loadPart .cx (.flw 5) ((fetched p1).ea .cx 0 0x2004) = (loaded (fetched p1) (.flw 5) 0x2004, .data 0)) ∧
    ((fetched p1).ea .cx 0 0x2008 % 8 = 0 ∧
      (fetched p1).loadPart .cx (.fld 5 none) ((fetched p1).ea .cx 0 0x2008) = (loaded (fetched p1) (.fld 5 none) 0x2008, .data 0) ∧
      (loaded (fetched p1) (.fld 5 none) 0x2008).loadPart .cx (.fld 5 (some 0)) 0x200C =
        (loaded (loaded (fetched p1) (.fld 5 none) 0x2008) (.fld 5 (some 0)) 0x200C, .data 0)) ∧
    (((fetched p1).cx.gpr 0).toNat % 4 = 0 ∧ linkable ((fetched p1).cx.gpr 0).toNat = true ∧
      (fetched p1).loadPart .cx (.ldl 5) ((fetched p1).cx.gpr 0).toNat = (loaded (fetched p1) (.ldl 5) 0, .data 0) ∧
      memoryKey ((loaded (fetched p1) (.ldl 5) 0).dramBank .cx) ((fetched p1).cx.gpr 0).toNat = some 0) ∧
    ((loaded (fetched p1) (.gp .lbu 5) 0x2001).cx.priv ≤ 1 ∧ (loaded (fetched p1) (.gp .lbu 5) 0x2001).cx.exle = false ∧
      (loaded (fetched p1) (.flw 5) 0x2004).cx.exle = false ∧ (loaded (fetched p1) (.ldl 5) 0).cx.exle = false) ∧
    (fetched p1).ea .cx 0 0x2001 % 2 ^ loadSize .lh ≠ 0 ∧ (fetched p1).cx.priv ≤ 1 ∧ (fetched p1).cx.exle = false :=
  ⟨runs_p1, ⟨by decide +kernel, loadPart_of (a := 0x2001) (by decide +kernel)⟩,
    ⟨by decide +kernel, loadPart_of (a := 0x2004) (by decide +kernel)⟩,
    ⟨by decide +kernel, loadPart_of (a := 0x2008) (by decide +kernel), loadPart_of (by decide +kernel)⟩,
    ⟨by decide +kernel, by decide +kernel, loadPart_of (a := 0) (by decide +kernel), by decide +kernel⟩, by decide +kernel, by decide +kernel⟩

/-- The state a store part leaves. -/
def storedAt (s : State) (double : Bool) (a size : Nat) (v : Word) : State := (s.storePart .cx none double a size v).1

theorem storePart_of {s : State} {double : Bool} {a size : Nat} {v : Word} (h : (s.storePart .cx none double a size v).2 = .done) :
    s.storePart .cx none double a size v = (storedAt s double a size v, .done) := Prod.ext rfl h

theorem witness_StoresReachTheirWordOnly :
    p1.Runs .cx (fetched p1) ∧ (fetched p1).ea .cx 0 0x2008 % 8 = 0 ∧
    (fetched p1).storePart .cx none false 0x2008 (storeSize .sb) ((fetched p1).cx.gpr 31) =
      (storedAt (fetched p1) false 0x2008 0 ((fetched p1).cx.gpr 31), .done) ∧
    (fetched p1).target .cx ((fetched p1).ea .cx 0 0x2008) = .word 0x2008 ∧
      (fetched p1).cacheKey .cx ((fetched p1).ea .cx 0 0x2008) = none ∧ (fetched p1).NotMerged 0x2000 ∧
    (fetched p1).storePart .cx none true 0x2008 2 (((fetched p1).cx.fpr 0).setWidth 32) =
      (storedAt (fetched p1) true 0x2008 2 (((fetched p1).cx.fpr 0).setWidth 32), .done) ∧
    (storedAt (fetched p1) true 0x2008 2 (((fetched p1).cx.fpr 0).setWidth 32)).storePart .cx none true 0x200C 2
        ((((fetched p1).cx.fpr 0) >>> 32).setWidth 32) =
      (storedAt (storedAt (fetched p1) true 0x2008 2 (((fetched p1).cx.fpr 0).setWidth 32)) true 0x200C 2
        ((((fetched p1).cx.fpr 0) >>> 32).setWidth 32), .done) :=
  ⟨runs_p1, by decide +kernel, storePart_of (by decide +kernel), by decide +kernel, by decide +kernel, by decide +kernel, storePart_of (by decide +kernel),
    storePart_of (by decide +kernel)⟩

/-- A reservation of the complex on word 0. -/
def reserved : State := { p1 with memb := { p1.memb with resv := [(.cx, 0)] } }

theorem checkAccess_of {s : State} {r : Right} {lo hi : Nat} (h : decide (s.checkAccess .cx r lo hi = (s, none)) = true) :
    s.checkAccess .cx r lo hi = (s, none) := of_decide_eq_true h

theorem witness_StoreConditionalNeedsReservation :
    (reserved.Runs .cx (fetched reserved) ∧ ((fetched reserved).cx.gpr 0).toNat % 4 = 0 ∧
      linkable ((fetched reserved).cx.gpr 0).toNat = true ∧
      (fetched reserved).checkAccess .cx .wr ((fetched reserved).cx.gpr 0).toNat (((fetched reserved).cx.gpr 0).toNat + 3) =
        (fetched reserved, none) ∧
      (fetched reserved).frozenAt .cx ((fetched reserved).cx.gpr 0).toNat = false ∧
      (fetched reserved).target .cx ((fetched reserved).cx.gpr 0).toNat = .word 0 ∧
      (fetched reserved).memb.resv.contains (.cx, 0) = true ∧ (((fetched reserved).bypassCache .cx 0).flushWord 0).memb.resv.contains (.cx, 0) = true ∧
      (((fetched reserved).bypassCache .cx 0).flushWord 0).memb.flip ≠ some 0) ∧
    (((fetched p1).bypassCache .cx 0).flushWord 0).memb.resv.contains (.cx, 0) = false ∧ Master.sc0 ≠ .cx :=
  ⟨⟨runs_of (by decide +kernel), by decide +kernel, by decide +kernel, checkAccess_of (by decide +kernel), by decide +kernel⟩,
    by decide +kernel⟩

theorem witness_WrittenWordReadsBack :
    (0 < 39 ∧ 38 < 39) ∧ State.reset.NotMerged 0 ∧ State.reset.memb.flip ≠ some 0 ∧ (4 : Nat) ≠ 0 := by decide +kernel

/-- Service core 0 at executive privilege, running in its own partition. -/
def svc : State :=
  let s := st [(CORE_SCCTL_EN0, 1)]
  { s with sc0 := { pc := 0x1000#32, spr := [(sprSTATUS, 1#32)], stopped := false }
           sys := { s.sys with parts := [{ index := 0, safety := false, service := true, lo := 0, hi := 0xFFFFFFFF }] } }

/-- The complex waits. -/
def waits (w : Wait) : State := { p1 with cx := { p1.cx with wait := w } }

theorem witness_BarriersAndHintsComplete :
    p1.Runs .cx (fetched p1) ∧
    ((waits .barM).cx.wait = .barM ∧ (waits .barM).mayComplete .cx = true ∧ ∀ e ∈ (waits .barM).memb.merge, e.owner ≠ .cx) ∧
    ((waits (.barW 31)).cx.wait = .barW 31 ∧ (waits (.barW 31)).mayComplete .cx = true ∧
      (waits (.barW 31)).openOf (waits (.barW 31)).cx.part = []) ∧
    ((0#11).toNat ≤ 3 ∧ (3#11).toNat ≤ 3 ∧ (fetched p1).cx.priv ≠ 0) ∧
    (svc.executes .sc0 && decide ((svc.fetch .sc0).2 = .ok)) = true ∧ (svc.fetch .sc0).1.sc0.priv ≠ 0 ∧
    memoryKey (svc.dramBank .sc0) (svc.sc0.gpr 0).toNat = some 0 := ⟨runs_p1, by decide +kernel⟩

/-- The compare armed at MONO 100. -/
def armed : State := coreAt 1 State.reset fun x => { (x.setSpecial sprTCMP_LO 100#32).setSpecial sprTCMP_HI 0#32 with tarmed := true }

theorem witness_TimeReadsGiveOneSnapshot :
    ((p1.advance 1000).Runs .cx (fetched (p1.advance 1000)) ∧ (1 : RegNo) ≠ 31 ∧ (1 : RegNo) ≠ 0 ∧ (31 : RegNo) ≠ 0) ∧
    (fetched (p1.advance 1000)).cx.trsAt < (fetched (p1.advance 1000)).mono ∧
    ((armed.advance 100).coreOf .cx).tarmed = true ∧
    (((armed.advance 100).coreOf .cx).special sprTCMP_LO).toNat +
      (((armed.advance 100).coreOf .cx).special sprTCMP_HI).toNat * 2 ^ 32 ≤ (armed.advance 100).mono :=
  ⟨⟨runs_of (by decide +kernel), by decide⟩, by decide +kernel, by decide +kernel⟩

/-- A task at partition privilege, with a dispatched cycle whose release edge lies ahead or is past. -/
def inTask (release : Nat) (l : List (Fld × Nat) := []) : State :=
  let s := coreAt 0 (inMode .run ((CYC_STAT_RUN, 1) :: l)) fun x => x.setSpecial sprTASK 0x80000003#32
  s.setTask 3 { cycle := some { start := 0, release := release, dispatchAt := 0, latchAt := 0 } }

def line16 : State := { waits (.cyw 5) with cyc := { (waits (.cyw 5)).cyc with line16 := true } }

theorem witness_CycleWaitAndCommit :
    ((inTask 1).Runs .cx (fetched (inTask 1)) ∧ (fetched (inTask 1)).cx.priv = 0 ∧ (fetched (inTask 1)).cx.taskValid = true ∧
      (fetched (inTask 1)).cx.exle = false) ∧
    (p1.Runs .cx (fetched p1) ∧ (fetched p1).cx.priv = 1) ∧
    (line16.cx.wait = .cyw 5 ∧ line16.mayComplete .cx = true ∧ line16.cyc.line16 = true) ∧
    (∃ y, (((fetched (inTask 1)).barrier .cx).task (fetched (inTask 1)).cx.taskIndex).cycle = some y ∧
      ((fetched (inTask 1)).barrier .cx).bit CYC_STAT_RUN = true ∧
      ((fetched (inTask 1)).barrier .cx).bit (CYC_TnSTAT_COMMIT (fetched (inTask 1)).cx.taskIndex) = false ∧
      ((fetched (inTask 1)).barrier .cx).tick < y.release) ∧
    (∃ y, (((fetched (inTask 0)).barrier .cx).task (fetched (inTask 0)).cx.taskIndex).cycle = some y ∧
      y.release ≤ ((fetched (inTask 0)).barrier .cx).tick) ∧
    ((fetched (inTask 1 [(CYC_TnSTAT_COMMIT 3, 1)])).barrier .cx).bit (CYC_TnSTAT_COMMIT 3) = true ∧
    (((fetched (coreAt 0 State.reset fun x => x.setSpecial sprTASK 0x80000003#32)).barrier .cx).task 3).cycle = none ∧
    ((fetched (coreAt 0 State.reset fun x => x.setSpecial sprTASK 0x80000003#32)).barrier .cx).bit CYC_STAT_RUN = false :=
  ⟨⟨runs_of (by decide +kernel), by decide +kernel⟩, ⟨runs_p1, by decide +kernel⟩, by decide +kernel,
    ⟨_, rfl, by decide +kernel⟩, ⟨_, rfl, by decide +kernel⟩, by decide +kernel⟩

theorem witness_SafeCallAndSliceCall :
    (p1.Runs .cx (fetched p1) ∧ (fetched p1).cx.priv = 1 ∧ (fetched p1).get SYS_SAFED_CODE = 0 ∧
      (fetched p1).cx.pc.toNat % 4 = 0) ∧
    (p0.Runs .cx (fetched p0) ∧ (fetched p0).cx.priv = 0 ∧ (fetched p0).cx.exle = false) ∧
    (fetched (coreAt 1 (st [(SYS_SAFED_CODE, 8)]))).get SYS_SAFED_CODE ≠ 0 ∧
    (p1.advance 5).Runs .cx (fetched (p1.advance 5)) :=
  ⟨⟨runs_p1, by decide +kernel⟩, ⟨runs_p0, by decide +kernel⟩, by decide +kernel, runs_of (by decide +kernel)⟩
/-! ### Witnesses: memory, mailboxes, debug, voter -/

/-- A state with its memory block set. -/
def withMemb (f : MemBlock → MemBlock) (s : State := State.reset) : State := { s with memb := f s.memb }

def correcting : State := withMemb fun m => { m with wback := [(4, encodeWord 7#32)] }
def scrubbing : State := st [(MEM_SCRCTL_EN, 1), (MEM_SCRCTL_LAPMAX, 0)]

theorem witness_MemoryCommandsDoTheirWork :
    correcting.memb.wback = (4, encodeWord 7#32) :: [] ∧
    ((scrubbing.advance 1).bit MEM_SCRCTL_EN = true ∧ scrubbing.memb.walker[(0 : Fin 6).val]? = some 0 ∧ 0 + 1 < walkerWords 0 ∧
      classify (scrubbing.stored (walkerKey 0 0)) = .unwritten false) ∧
    ((scrubbing.advance 1).bit MEM_STAT_PROMO = false ∧
      (scrubbing.advance 1).get MEM_SCRCTL_LAPMAX * 1000000000 < (scrubbing.advance 1).mono - scrubbing.memb.lapStart) ∧
    State.reset.mode ≠ .powerup ∧ State.reset.bit MEM_STAT_SINIT = false ∧ State.reset.bit MEM_STAT_DINIT = false := by
  decide +kernel

def armedFlip : State := withMemb fun m => { m with flip := some 4 }
def clearing : State := withMemb fun m => { m with clear := some (0, 3) }
def rangeSet : State := st [(MEM_CLRLEN_VALUE, 8)]

theorem witness_FlipClearAndPoisonQueue :
    (memoryKey (State.reset.get MEM_DBANK_CX) (State.reset.get MEM_FLIPA_VALUE) = some 0) ∧
    (memoryKey ((st [(MEM_FLIPA_VALUE, 0x40000000)]).get MEM_DBANK_CX) ((st [(MEM_FLIPA_VALUE, 0x40000000)]).get MEM_FLIPA_VALUE) = none) ∧
    armedFlip.memb.flip = some 4 ∧ (0 : Nat) ≠ 4 ∧
    (rangeSet.Accepts MEM_CLRSEQ_LASTCMD 1 ∧ rangeSet.clearRange.isSome = true ∧ rangeSet.bit MEM_STAT_CLRBUSY = false) ∧
    clearing.memb.clear = some (0, 3) := by decide +kernel

/-- A written word with two wrong bits. -/
def doubleError : MWord := encodeWord 0#32 ^^^ mword false 0#7 3#32
def refetching : State :=
  { withMemb (fun m => { m with refetch := [⟨0x1000, 0⟩] }) with mem := [(0x1000, doubleError)], flash := [(0x1000, 5#32), (0x2000, 6#32)] }
def refetchWait : State := { refetching with cx := { pc := 0x1000#32, wait := .fetch 0x1000 } }

theorem witness_CodeRefetchRestoresTheWord :
    (refetching.memb.refetch = ⟨0x1000, 0⟩ :: [] ∧ classify (refetching.stored 0x1000) = .uncorrectable ∧
      refetching.flashBad.contains ((refetching.advance 1).imageOffset 0x1000 0 - (refetching.advance 1).imageOffset 0x1000 0 % 4) = false ∧
      refetching.flashErased ((refetching.advance 1).imageOffset 0x1000 0) = false ∧
      refetching.cx.wait = .none ∧ refetching.sc0.wait = .none ∧ refetching.sc1.wait = .none) ∧
    refetchWait.cx.wait = .fetch refetchWait.cx.pc.toNat ∧
      memoryKey ((refetchWait.advance 1).dramBank .cx) refetchWait.cx.pc.toNat = some 0x1000 := by decide +kernel

theorem witness_MailboxSequenceRule :
    (CYC_CMDSEQ_LASTCMD.reg ≠ CYC_CMDRES_RESULT.reg ∧ CYC_CMDSEQ_LASTCMD.w = 16 ∧ CYC_CMDSEQ_LASTCMD.lo + 16 ≤ 32 ∧
      CYC_CMDRES_RESULT.lo + CYC_CMDRES_RESULT.w ≤ 32) ∧
    1 % 0x10000 = (State.reset.get CYC_CMDSEQ_LASTCMD + 1) % 0x10000 ∧ 0 % 0x10000 = State.reset.get CYC_CMDSEQ_LASTCMD ∧
    5 % 0x10000 ≠ (State.reset.get CYC_CMDSEQ_LASTCMD + 1) % 0x10000 ∧ 5 % 0x10000 ≠ State.reset.get CYC_CMDSEQ_LASTCMD ∧
    State.reset.lastResult CYC_CMDSEQ_LASTCMD.reg = some 0 ∧
    (State.reset.keepResult CYC_CMDSEQ_LASTCMD none).lastResult CYC_CMDSEQ_LASTCMD.reg = none := by
  decide +kernel

def halted : State := { inMode .service [(CORE_STAT_HALTED, 1), (CORE_DBGADDR_VALUE, 0x2000)] with cx := p1.cx }
/-- The debug address lies in Bridle's window 15 at 0xC000_0000. -/
def haltedWindow : State :=
  { inMode .service [(CORE_STAT_HALTED, 1), (CORE_DBGADDR_VALUE, 0xC0000000), (BRG_WnCTL_EN 15, 1), (BRG_WnCTL_SIZE 15, 16)] with cx := p1.cx }
/-- Halted before the exception of an access. -/
def deferred : State := { halted with cx := { halted.cx with wait := .exception 6 2 0x3000#32 } }
def haltPending : State := { inMode .service [(CORE_DBGSTAT_STATE, 1)] with cx := p1.cx }

theorem witness_DebugCommandsHaltAndRun :
    (dbg.Accepts CORE_DBGSEQ_LASTCMD 1 ∧ dbg.debugRefused = none ∧ dbg.bit CORE_STAT_HALTED = false) ∧
    ((haltPending.advance 1).haltDue = true ∧ (haltPending.advance 1).coreFree .cx = true ∧ haltPending.atBoundary = true) ∧
    halted.Accepts CORE_DBGSEQ_LASTCMD 1 ∧ halted.debugRefused = none ∧ halted.bit CORE_STAT_HALTED = true ∧
    halted.get CORE_STAT_VOTE = 0 ∧ halted.cx.wait = .none ∧
    (deferred.Accepts CORE_DBGSEQ_LASTCMD 1 ∧ deferred.debugRefused = none ∧ deferred.bit CORE_STAT_HALTED = true ∧
      deferred.cx.wait = .exception 6 2 0x3000#32 ∧ deferred.cx.priv ≠ 2) := by decide +kernel

/-- The halted complex with its debug command accepted. -/
def debugged : State := (halted.advance 1).set CORE_DBGSEQ_LASTCMD 1

theorem witness_DebugAccessesOfTheLeadCore :
    (halted.Accepts CORE_DBGSEQ_LASTCMD 1 ∧ halted.debugRefused = none ∧ halted.bit CORE_STAT_HALTED = true) ∧
    sprListed (1 : RegNo).val = true ∧ halted.core.dbgLog.length < 256 ∧ (5 : RegNo).val ≤ 5 ∧
    (halted.rsRefused 0x2000 = false ∧ (halted.rd CORE_DBGADDR).toNat = 0x2000 ∧ 0x2000 % 4 = 0 ∧
      debugged.target .cx 0x2000 = .word 0x2000) ∧
    (debugged.readTarget (.block 1 debugged.cx.part) .cx 1 0x2000 2).2 = .data 0 ∧
    (debugged.writeTarget ⟨false, 1, none⟩ .cx debugged.cx.part 0x2000 2 (halted.rd CORE_DBGDATA_LO)).2 = .done ∧
    (haltedWindow.Accepts CORE_DBGSEQ_LASTCMD 1 ∧ haltedWindow.debugRefused = none ∧ haltedWindow.bit CORE_STAT_HALTED = true ∧
      haltedWindow.rsRefused 0xC0000000 = false ∧ (haltedWindow.rd CORE_DBGADDR).toNat = 0xC0000000 ∧
      ((haltedWindow.advance 1).set CORE_DBGSEQ_LASTCMD 1).target .cx 0xC0000000 = .backplane 0xC0000000) := by decide +kernel

/-- A core port on which core 1 presents another address, and one on which all three differ. -/
def view (a b c : Word) : PortView :=
  let p := fun x => some { kind := 0, addr := x, size := 2, wdata := 0, priv := 0, part := 0 }
  ⟨p a, p b, p c⟩

def transferring : State := { State.reset with core := { State.reset.core with resync := .transfer 2 6 0 } }
/-- RUN, degradation allowed, no resync counted. -/
def voting : State := inMode .run [(CORE_CFG_DEGALLOW, 1), (CORE_CFG_RSLIM, 3)]
def transferring2 : State := { inMode .resync with core := { State.reset.core with resync := .transfer 2 6 0 } }
def heldEdge : HeldEdge := { tick := 1, delay := 0, work := 0, sampled := [] }
/-- The transfer of an edge whose steps 9 and 10 wait. -/
def holding : State := { transferring2 with cyc := { transferring2.cyc with held := some heldEdge } }
def released2 : State := { inMode .resync with core := { State.reset.core with resync := .released 2 7 0 28000 } }
/-- RUN_DEGRADED in 2oo2 with core 1 odd. -/
def voting2 : State := inMode .runDegraded [(CORE_STAT_VOTE, 1), (CORE_STAT_ODD, 1)]
def kicked1 : State := { st [(CORE_SCCTL_WDT, 1), (CORE_SCCTL_EN1, 1)] with sc1 := {} }
def kicked : State := { st [(CORE_SCCTL_WDT, 1), (CORE_SCCTL_EN0, 1)] with sc0 := {} }

theorem witness_VoterAndServiceCores :
    ((inMode .safe).mode = .safe ∧ State.reset.mode ≠ .powerup ∧ State.reset.mode ≠ .safe ∧ State.reset.core.resync = .idle ∧
      State.reset.get CORE_STAT_VOTE = 0 ∧ State.reset.mode.starts = true) ∧
    pattern3 (view 0 0 0) = .p1 ∧ (pattern3 (view 0 1 0) = .odd 2 1 (view 0 1 0).p0 ∧ 1 < 3) ∧ pattern3 (view 0 1 2) = .p5 ∧
    pattern3 (view 0 0 1) = .odd 2 2 (view 0 0 1).p0 ∧
    (voting.mode = .run ∧ voting.bit CORE_CFG_DEGALLOW = true ∧ (voting.advance 1).recentResyncs 1 < voting.get CORE_CFG_RSLIM ∧
      voting.core.resync = .idle ∧ voting.get CORE_STAT_VOTE = 0 ∧ voting.mode.starts = false) ∧
    ((inMode .stop).mode.starts = false ∧ (inMode .stop).core.resync = .idle ∧ (inMode .stop [(CORE_CFG_DEGALLOW, 0)]).bit CORE_CFG_DEGALLOW = false) ∧
    (voting2.get CORE_STAT_VOTE ≠ 0 ∧ voting2.core.resync = .idle ∧ pattern2 (view 0 1 0) (voting2.get CORE_STAT_ODD) = .p1 ∧
      pattern2 (view 0 0 1) (voting2.get CORE_STAT_ODD) = .p6) ∧
    (released2.core.resync = .released 2 7 0 28000 ∧ released2.mode = .resync ∧ released2.get CORE_STAT_VOTE = 0 ∧
      presents (view 0 0 0) = true) ∧
    (transferring.core.resync = .transfer 2 6 0 ∧ 27000 ≤ (transferring.advance 28000).mono - 0 ∧
      (transferring.advance 28000).mono - 0 ≤ 30000 ∧ transferring.cyc.held = none) ∧
    (transferring2.mode = .resync ∧ transferring2.core.resync = .transfer 2 6 0 ∧ (2 : Nat) < 3 ∧ Mode.ofCode 6 ≠ .resync ∧
      transferring2.cyc.held = none ∧ holding.cyc.held = some heldEdge ∧ holding.sys.demands = [] ∧ holding.mode ≠ .safe) ∧
    (30000 < (transferring.advance 30001).mono - 0 ∧ (transferring.advance 26999).mono - 0 < 27000) ∧ (0#32 ≠ 0xA5) ∧
    (kicked1.get CORE_SCCTL_WDT ≠ 0 ∧ kicked1.sc1.stopped = false ∧
      kicked1.core.kick1 + kicked1.get CORE_SCCTL_WDT * 1000000 ≤ (kicked1.advance 2000000).mono) ∧
    kicked.get CORE_SCCTL_WDT ≠ 0 ∧ kicked.sc0.stopped = false ∧
      kicked.core.kick0 + kicked.get CORE_SCCTL_WDT * 1000000 ≤ (kicked.advance 2000000).mono := by decide +kernel

theorem witness_RegisterWritesByAccessType :
    ((p1.advance 1).cx.priv ≠ 0 ∧ (regInfo (0x40100008#32).toNat).isSome = true ∧
      (0x40100008#32).toNat ∉ [CORE_DBGCMD, CORE_SCCTL, CORE_SCKICK0, CORE_SCKICK1, MEM_FLIPCTL, CYC_RUN, GIRTH_PDATA, GIRTH_WDRESP,
        NET_TXPTR, SYS_OVSEL] ∧
      (p1.advance 1).writeMailbox ⟨false, p1.cx.priv, none⟩ (0x40100008#32).toNat 3#32 = none ∧
      (p1.advance 1).hartBusy (0x40100008#32).toNat = false ∧ timerControl (0x40100008#32).toNat = none ∧
      clearsWhole (0x40100008#32).toNat = none) ∧
    (regInfo (0x40FFFFFC#32).toNat).isNone = true ∧ (0 : Fin 4).val ≠ 2 := by decide +kernel
/-! ### Witnesses: cyclic execution -/

def withCycB (f : CycBlock → CycBlock) (s : State := State.reset) : State := { s with cyc := f s.cyc }

/-- Task 3 charged, its budget 10 us over at MONO 20000. -/
def charged : State :=
  (st [(CYC_RUN_TASK, 3), (CYC_RUN_VALID, 1), (CYC_TnBUD_BUD 3, 100)]).setTask 3
    { cycle := some { start := 0, release := 1, dispatchAt := 0, latchAt := 0 } }
def oneEdge : State := withCycB fun c => { c with edges := [⟨2, true, 77⟩] }

theorem witness_CycChargingAndReads :
    (charged.bit CYC_RUN_VALID = true ∧ ((charged.task (charged.get CYC_RUN_TASK)).cycle.map (·.expired)) = some false ∧
      charged.cyc.chargedTo < (charged.advance 2000000).mono ∧
      charged.taskBudget (charged.get CYC_RUN_TASK) ≤ 0 + ((charged.advance 2000000).mono - charged.cyc.chargedTo)) ∧
    (oneEdge.cyc.edges = ⟨2, true, 77⟩ :: [] ∧ ([] : List EdgeEntry).length < 512) ∧ State.reset.cyc.edges = [] := by decide +kernel

/-- Timer 31 one-shot with 1 us; timer 0 running since 0. -/
def timerSet : State := withCycB (fun c => { c with timers := [⟨0, 0, 1, false, 0⟩] })
  (st [(CYC_TMnDUR_DUR 31, 1), (CYC_TMnCTL_MODE 31, 1)])

theorem witness_TimersStartStopAndExpire :
    timerSet.mono ≤ 5000 ∧ (timerSet.get (CYC_TMnDUR_DUR 31) ≠ 0 ∧ timerSet.get (CYC_TMnCTL_MODE 31) = 1) ∧
    timerSet.get (CYC_TMnDUR_DUR 30) = 0 ∧ timerSet.cyc.timers.find? (fun y => y.index == (0 : Fin 32).val) = some ⟨0, 0, 1, false, 0⟩ ∧
    0 < TimerRun.expiries ⟨0, 0, 1, false, 0⟩ 5000 := by decide +kernel

/-- A program with variable 7 of type 3, forced or not. -/
def oneVar (forces : List Force) (vid : Nat) : State :=
  let s := withCycB (fun c => { c with forces := forces }) (st [(CYC_FVID_VALUE, vid)])
  { s with sys := { s.sys with program := { vars := [⟨7, 3, 0, 0⟩] } } }

theorem witness_ForcesAreSetReadAndRemoved :
    ((oneVar [] 7).Accepts CYC_FSEQ_LASTCMD 1 ∧ (oneVar [] 7).variable ((oneVar [] 7).get CYC_FVID_VALUE) = some ⟨7, 3, 0, 0⟩) ∧
    ((oneVar [] 7).forceRefused ⟨7, 3, 0, 0⟩ = false ∧ (∀ f ∈ (oneVar [] 7).cyc.forces, f.vid ≠ 7) ∧
      (oneVar [] 7).cyc.forces.length < 256) ∧ (3 : Nat) ≠ 4 ∧
    (∃ f ∈ (oneVar [⟨7, 3, 0, 0, 5⟩] 7).cyc.forces, f.vid = (oneVar [⟨7, 3, 0, 0, 5⟩] 7).get CYC_FVID_VALUE) ∧
    (oneVar [⟨7, 3, 0, 0, 5⟩] 7).cyc.forces.find? (fun x => x.vid == (oneVar [⟨7, 3, 0, 0, 5⟩] 7).get CYC_FVID_VALUE) =
      some ⟨7, 3, 0, 0, 5⟩ ∧
    ((oneVar [] 8).Accepts CYC_FSEQ_LASTCMD 1 ∧ (oneVar [] 8).variable ((oneVar [] 8).get CYC_FVID_VALUE) = none) := by decide +kernel

def stopped : State := inMode .stop [(SYS_STAT_CFGOK, 1)]
def stopping : State := withCycB (fun c => { c with pendingStop := true }) (inMode .run [(CYC_STAT_RUN, 1)])

theorem witness_StartsStopsAndTheEdge :
    (stopped.Accepts CYC_CMDSEQ_LASTCMD 1 ∧ stopped.mode = .stop ∧ stopped.mayJoin = false ∧ stopped.bit CORE_STAT_HALTED = false ∧
      stopped.bit SYS_STAT_CFGOK = true ∧ stopped.layoutMismatch = none) ∧
    (stopping.Accepts CYC_CMDSEQ_LASTCMD 1 ∧ stopping.mode = .run) ∧
    (125000 % 125000 = 0 ∧ stopping.mono ≤ 125000 ∧ stopping.pairMode = 0 ∧ stopping.sys.demands = [] ∧ stopping.core.odd = none ∧
      stopping.cyc.pendingStop = true ∧ stopping.cyc.pendingStart = none) ∧
    ((inMode .safe).mode = .safe ∧ (inMode .powerup).mode = .powerup ∧ [(3, 8)] ≠ ([] : List (Nat × Nat))) ∧
    State.reset.mode.starts = true ∧ State.reset.sys.demands = [] := by decide +kernel

/-- A package that changes nothing but the program's identity. -/
def identityChange : ChangePackage :=
  { base := 0, identity := 9, parts := 0, plannedNs := 8000, carry := [], reverse := [], entries := [], tasks := [], sources := [], vars := [] }
def inOc (state : Nat) (l : List (Fld × Nat) := []) : State :=
  withCycB (fun c => { c with change := some identityChange }) (inMode .run ((CYC_OCSTAT_STATE, state) :: l))
def switchingNow : State :=
  withCycB (fun c => { c with change := some identityChange, switching := some { start := 0, tick := 0, revert := false } }) (inMode .run)

theorem witness_OnlineChangeRunsItsStates :
    ((inMode .run).Accepts CYC_OCSEQ_LASTCMD 1 ∧ (inMode .run).ocState = 0 ∧
      identityChange.base = (inMode .run).sys.program.identity ∧
      ((inMode .run).set CYC_OCSEQ_LASTCMD 1).packageAddressesOk identityChange = true ∧
      (((inMode .run).set CYC_OCSEQ_LASTCMD 1).uncover.applyDescriptors identityChange).checkConfiguration = none ∧
      ((inMode .run).set CYC_OCSEQ_LASTCMD 1).haveCommonStart
        (((inMode .run).set CYC_OCSEQ_LASTCMD 1).changedTasks identityChange.parts) = true ∧
      identityChange.plannedNs ≤ 200000 ∧ switchTime identityChange ≤ identityChange.plannedNs ∧
      firstRefusal ((((inMode .run).set CYC_OCSEQ_LASTCMD 1).uncover.applyDescriptors identityChange).checkResponse (switchTime identityChange)
        (((inMode .run).set CYC_OCSEQ_LASTCMD 1).uncover.applyDescriptors identityChange).enabledTasks)
        (((inMode .run).set CYC_OCSEQ_LASTCMD 1).uncover.applyDescriptors identityChange).enabledTasks = none) ∧
    ((inOc 1).Accepts CYC_OCSEQ_LASTCMD 1 ∧ (inOc 1).ocState = 1 ∧ (inOc 1).get PAIR_STAT_ROLE ≠ 1 ∧ (inOc 1).get CYC_OCEDGE_TICK = 0 ∧
      (inOc 1).cyc.switching = none) ∧
    ((inOc 1 [(CYC_OCEDGE_TICK, 8)]).get CYC_OCEDGE_TICK ≠ 0 ∧ (inOc 1 [(CYC_OCEDGE_TICK, 8)]).namedEdge = some 8) ∧
    (inOc 3).ocState = 3 ∧ (inOc 2).ocState = 2 ∧
    (switchingNow.mode ≠ .safe ∧ switchingNow.cyc.switching = some { start := 0, tick := 0, revert := false } ∧
      (if ({ start := 0, tick := 0, revert := false } : RunningSwitch).revert then switchingNow.cyc.undo else switchingNow.cyc.change) =
        some identityChange) := by decide +kernel
/-! ### Witnesses: sampling and the protection engine -/

def withAfeB (f : AfeBlock → AfeBlock) (s : State := State.reset) : State := { s with afe := f s.afe }
def withPeB (f : PeBlock → PeBlock) (s : State := State.reset) : State := { s with pe := f s.pe }

theorem witness_RawWordCarriesItsFields :
    (-8388607 : Int) ≤ 8388607 ∧ (-8388607 : Int) ≤ -8388607 ∧ 31 < 32 ∧ saturateCode 8388608 = 8388607 := by decide

/-- Frame 32 taken in at MONO 1 ms, channel 0 converted. -/
def sampling : State := withPeB (fun p => { p with frame := 32, closed := false })
  (withAfeB (fun a => { a with started := true }) ((st [(AFE_CHnCFG_RANGE 0, 1)]).advance 1000000))
def evenWord : Word := rawWord 5 0 false 32
def oddWord : Word := evenWord ^^^ 1#32

/-- The one converted channel of the frame has been received. -/
def received : State := withPeB (fun p => { p with intake := [(0, 5#32)] }) sampling

theorem witness_FramesAreSampledAndTakenIn :
    (sampling.afe.started = true ∧ 0 < 24 ∧ frameAt (sampling.advance 1031250).mono = some 33 ∧ sampling.pe.frame < 33 ∧
      sampling.channelOn 0 = true) ∧
    (sampling.pe.closed = false ∧ (sampling.advance 1002000).mono ≤ sampling.pe.frame * 31250 + 2000) ∧
    (onesBelow 32 evenWord.toNat % 2 = 0 ∧ fieldGet evenWord 24 5 = 0 ∧ 0 / 6 = (0 : Fin 4).val ∧
      evenWord.getLsbD 30 = (sampling.pe.frame % 2 == 1)) ∧
    onesBelow 32 oddWord.toNat % 2 = 1 ∧ sampling.pe.frame * 31250 + 2000 ≤ (sampling.advance 1002000).mono ∧
    (3 ≤ received.pe.frame ∧ received.intakeComplete = true ∧ received.pe.intake.filter (fun e => e.1 == 0) = [(0, 5#32)]) := by decide +kernel

def calibrating (phase : Nat) : State :=
  withAfeB (fun a => { a with started := true, groups := [(0, { cal := some ⟨5, 0, phase⟩ })] }) (st [(AFE_CALCFG_EN, 1)])
/-- The same in a group suspended meanwhile. -/
def suspendedCal : State :=
  withAfeB (fun a => { a with started := true, groups := [(0, { cal := some ⟨5, 0, 3⟩, suspended := true })] }) (st [(AFE_CALCFG_EN, 1)])
/-- A result that passes the checks and one whose gain lies too far from the factory's. -/
def calGood : CalResult := ⟨0, 0, 0, 0, 0⟩
def calBad : CalResult := ⟨0, 0, 0, 5001, 0⟩

theorem witness_CalibrationRunsItsPhases :
    ((calibrating 0).afe.started = true ∧ (calibrating 0).bit AFE_CALCFG_EN = true ∧ ((calibrating 0).group 3).suspended = false ∧
      ((calibrating 0).group 3).cal = none ∧
      ((calibrating 0).group 3).lastStart + (calibrating 0).calInterval ≤ ((calibrating 0).advance 3600000000000).mono) ∧
    (((calibrating 0).group 0).cal = some ⟨5, 0, 0⟩ ∧ 5 < 24 ∧ 0 + phaseTime 0 ≤ ((calibrating 0).advance 8000000).mono) ∧
    (((calibrating 3).group 0).cal = some ⟨5, 0, 3⟩ ∧ 0 + phaseTime 3 ≤ ((calibrating 3).advance 48000000).mono) ∧
    calFailure ((calibrating 3).channel 5) calGood = none ∧ calFailure ((calibrating 3).channel 5) calBad ≠ none ∧
    ((3, 100) ∈ [(0, 0), (1, 0), (2, 0), (3, (100 : Int))] ∧
      (twiceMedian [0, 0, 0, 100]).natAbs < 2000 * (2 * 100 - twiceMedian [0, 0, 0, 100]).natAbs) ∧
    (State.reset.channel 23).ageSaid = false ∧
      60 * (State.reset.calInterval / 1000000000) < (State.reset.advance 216001000000001).calAge 23 ∧
    ((calibrating 3).group 0).suspended = false ∧ (suspendedCal.group 0).suspended = true ∧
    (suspendedCal.group 0).cal = some ⟨5, 0, 3⟩ := by decide +kernel

def loader : State := inMode .load [(PE_CXnSTAT_VOK 63, 1), (PE_CXnSTAT_VWCET 63, 12000), (PE_CXnCTL_EN 1, 1)]
def verifying : State := withPeB fun p => { p with verify := some (63, 0) }
def parameters : State := inMode .stop [(PE_PADDR_OFFS, 4), (PE_PADDR_COUNT, 3)]

theorem witness_PeLoaderAndParameters :
    (loader.Accepts PE_LSEQ_LASTCMD 1 ∧ loader.pe.verify = none) ∧
    (loaderMode loader.mode = true ∧ loader.willBeEnabled 63 = false ∧ loader.bit (PE_CXnSTAT_VOK 63) = true ∧
      ((List.range 64).filter fun k => k != 63 && loader.willBeEnabled k).foldl (fun v k => v + loader.get (PE_CXnSTAT_VWCET k))
        (loader.get (PE_CXnSTAT_VWCET 63)) ≤ 12000) ∧
    (loader.willBeEnabled 1 = true ∧ loader.lifeCycle < 3) ∧
    (verifying.pe.verify = some (63, 0) ∧ 63 < 64 ∧
      0 + (verifying.get (PE_CXnRANGE_LAST 63) + 1 - verifying.get (PE_CXnRANGE_FIRST 63) + 64) * 5 / 2 ≤ (verifying.advance 1000).mono) ∧
    parameters.Accepts PE_PSEQ_LASTCMD 1 ∧ parameters.isSafety (parameters.get (PE_CXnCTL_PART 0)) = false ∧
      4 ≤ parameters.get PE_PADDR_OFFS ∧
      parameters.get PE_PADDR_OFFS + parameters.get PE_PADDR_COUNT + 1 ≤ parameters.dataWords 0 := by decide +kernel

/-- An evaluation of context 1, in LOGIC, with a verified worst case of 100 bundles. -/
def run1 (f : PeRun → PeRun := id) : PeRun :=
  f { cx := 1, frame := 32, logic := true, logicNext := false, pc := 8, count := 0, before := 2, contribBefore := 0, missing := false }
def evaluating (f : PeRun → PeRun := id) (l : List (Fld × Nat) := []) : State :=
  withPeB (fun p => { p with frame := 32, closed := true, slot := true, slotFrame := some 32, run := some (run1 f) })
    (st ((PE_CXnSTAT_VWCET 1, 100) :: l))
def slotReady : State := withAfeB (fun a => { a with started := true }) (withPeB (fun p => { p with frame := 32 }))

theorem witness_PeSlotsBeginAndEnd :
    (slotReady.afe.started = true ∧ slotReady.pe.slot = false ∧ slotReady.pe.slotFrame ≠ some slotReady.pe.frame ∧
      slotReady.pe.closed = true) ∧
    ((evaluating fun r => { r with count := 100 }).pe.run = some (run1 fun r => { r with count := 100 }) ∧ 1 < 64 ∧
      (evaluating fun r => { r with count := 100 }).exhausted (run1 fun r => { r with count := 100 }) = true) ∧
    (evaluating).pe.slot = true ∧ (evaluating).pe.frame * 31250 + 33250 ≤ ((evaluating).advance 1033250).mono := by decide +kernel

def evaluatingMeas : State := evaluating fun r => { r with logic := false, logicNext := true }
def trapping : State := evaluating (fun r => { r with regs := r.regs.setFl 2 true }) [(PE_CXnFLM_FLAGS 1, 2 ^ 31), (PE_CXnCHM_TRIG 1, 8)]

theorem witness_PeOperationsAct :
    ((evaluating).pe.run = some (run1) ∧ (run1).cx < 64 ∧ (evaluating).exhausted (run1) = false ∧ (run1).vector = none) ∧
    ((run1 fun r => { r with vector := some (.op .vnop) }).vector = some (.op .vnop)) ∧ (evaluating).scheme 1 = [] ∧ (evaluating).pe.rest = [] ∧
    (evaluatingMeas.pe.run.map fun r => (r.logic, r.logicNext)) = some (false, true) ∧
    (bitOf (trapping.get (PE_CXnFLM_FLAGS 1)) 31 = true ∧ bitOf (trapping.get (PE_CXnCHM_TRIG 1)) 3 = true ∧
      (trapping.pe.run.map fun r => r.regs.fl 2) = some true) := by decide +kernel

/-- Data memory word 4 of the context, an address beyond its data area, result word 0. -/
def inData : PeMem := ⟨0, 2, 4⟩
def beyond : PeMem := ⟨0, 2, 0x7FFF⟩

theorem witness_PeLoadsAndStoresReachTheirWords :
    ((evaluating).pe.run = some (run1) ∧ (evaluating).exhausted (run1) = false ∧ (run1).vector = none) ∧
    (((evaluating).peAddress (run1) inData false false 1).isSome = true ∧ ((evaluating).peAddress (run1) inData false true 1).isSome = true ∧
      ((evaluating).peAddress (run1) inData false false 2).isSome = true ∧ ((evaluating).peAddress (run1) inData false true 2).isSome = true ∧
      ((evaluating).peAddress (run1) inData true false 4).isSome = true ∧ ((evaluating).peAddress (run1) inData true true 4).isSome = true ∧
      inData.space.val ≠ 1) ∧
    (∀ off, peDecode ((evaluating).peMem off) = some (0, none)) ∧
    (run1 fun r => { r with vector := some (.vld 0 inData) }).vector = some (.vld 0 inData) ∧
    (run1 fun r => { r with vector := some (.vst 0 inData) }).vector = some (.vst 0 inData) ∧
    (evaluating).peAddress (run1) beyond false false 1 = none :=
  ⟨by decide +kernel, by decide +kernel, fun _ => (by decide : peDecode 0#39 = some (0, none)), by decide +kernel⟩
/-! ### Witnesses: Girth -/

theorem gx_ge (s : State) {k : Nat} (h : decide (k + s.mono / 20000 + 2 ≤ s.mono) = true) : k ≤ s.gx := by
  have := girthTime_ge s.mono
  have := of_decide_eq_true h
  unfold State.gx; omega

theorem witness_GirthTimeWithin50ppm : 0 ≤ 1000000000 := by decide

/-- Girth with parameter words and fields. -/
def girthSet (words : List (Nat × Word)) (l : List (Fld × Nat)) (f : GirthBlock → GirthBlock := id) : State :=
  let s := words.foldl (fun s e => s.wr (bank GIRTH_PDATA e.1) e.2) (st l)
  { s with girth := f { s.girth with accepted := true } }

/-- A set in which everything is disabled, with its CRC. -/
def goodSet : State :=
  let s := [(0, 0x00230001#32), (33, 25#32)].foldl (fun s e => s.wr (bank GIRTH_PDATA e.1) e.2) State.reset
  s.wr (bank GIRTH_PDATA 34) (BitVec.ofNat 32 s.girthCrc)

theorem witness_GirthTakesItsParameterSetOnce :
    (State.reset.get GIRTH_STAT_STATE = 0 ∧ State.reset.get GIRTH_PIDX_IDX < 35) ∧ 35 ≤ (st [(GIRTH_PIDX_IDX, 35)]).get GIRTH_PIDX_IDX ∧
    (goodSet.Accepts GIRTH_SEQ_LASTCMD 1 ∧ goodSet.get GIRTH_STAT_STATE = 0 ∧ (goodSet.girthWord 34).toNat = goodSet.girthCrc ∧
      goodSet.girthBadWord = none ∧ goodSet.lifeCycle < 3) ∧
    (goodSet.wr (bank GIRTH_PDATA 34) 0).girthCrc ≠ ((goodSet.wr (bank GIRTH_PDATA 34) 0).girthWord 34).toNat := by decide +kernel

def demanded : State := { inMode .run with sys := { (inMode .run).sys with demands := [(3, 8)] } }
/-- ARMED, the watchdog running or not, its window 10 us (MIN) to 50 us (MAX) in units of 10 us. -/
def watched (run : Nat) (min max : Nat) : State :=
  girthSet [(33, BitVec.ofNat 32 (max + min * 2 ^ 14))] [(SYS_MODE_MODE, 6), (GIRTH_STAT_STATE, 1), (GIRTH_STAT_WDRUN, run)]

theorem witness_GirthLatchesSafe :
    (demanded.sys.demands = (3, 8) :: [] ∧ demanded.get GIRTH_STAT_STATE ≠ 2 ∧ demanded.mode ≠ .powerup ∧ demanded.mode ≠ .safe ∧
      demanded.bit SYS_STAT_TRIAL = false ∧ (demanded.setBit SYS_STAT_TRIAL true).bit SYS_STAT_TRIAL = true) ∧
    ((watched 1 1 5).get GIRTH_STAT_STATE = 1 ∧ (watched 1 1 5).bit GIRTH_STAT_WDRUN = true ∧ (watched 1 1 5).bit GIRTH_STAT_HALT = false) ∧
    (watched 1 1 5).wdMax < ((watched 1 1 5).advance 100000).gx - (watched 1 1 5).girth.wdAt ∧
    ((watched 1 8 16).advance 0).gx - (watched 1 8 16).girth.wdAt ≤ (watched 1 8 16).wdMax ∧
      ((watched 1 8 16).advance 0).gx - (watched 1 8 16).girth.wdAt < (watched 1 8 16).wdMin ∧
    (((watched 1 0 16).advance 0).gx - (watched 1 0 16).girth.wdAt ≤ (watched 1 0 16).wdMax ∧
      (watched 1 0 16).wdMin ≤ ((watched 1 0 16).advance 0).gx - (watched 1 0 16).girth.wdAt ∧
      0 ≠ ~~~ (watched 1 0 16).rd GIRTH_WDCHAL) ∧
    (watched 0 1 5).bit GIRTH_STAT_WDRUN = false := by
  have h := gx_ge ((watched 1 1 5).advance 100000) (k := 60000) (by decide +kernel)
  have h0 : ((watched 1 8 16).advance 0).gx ≤ 1 := girthTime_le 0
  have h1 : ((watched 1 0 16).advance 0).gx ≤ 1 := girthTime_le 0
  have e1 : (watched 1 1 5).wdMax = 50000 := by decide +kernel
  have e2 : (watched 1 8 16).wdMax = 160000 := by decide +kernel
  have e3 : (watched 1 8 16).wdMin = 80000 := by decide +kernel
  have e4 : (watched 1 0 16).wdMax = 160000 := by decide +kernel
  have e5 : (watched 1 0 16).wdMin = 0 := by decide +kernel
  refine ⟨by decide +kernel, by decide +kernel, ?_, ?_, ?_, ⟨?_, ?_, by decide +kernel⟩, by decide +kernel⟩ <;>
    simp only [e1, e2, e3, e4, e5, show (watched 1 1 5).girth.wdAt = 0 from rfl, show (watched 1 8 16).girth.wdAt = 0 from rfl,
      show (watched 1 0 16).girth.wdAt = 0 from rfl] <;> omega

def safeLatched : State := girthSet [] [(GIRTH_STAT_STATE, 2)]

theorem witness_NoGirthCommandLeavesSafe : safeLatched.SafeLatched ∧
    (match Machine.exec (.tcsResume 5 0) safeLatched with | .next _ => true | _ => false) = true := by decide +kernel

def discrepant : State := girthSet [(25, 1#32)] [(GIRTH_SIN_DISC 0, 1)]
def refreshed : State := girthSet [(32, 1#32)] [(GIRTH_STAT_STATE, 1)] fun g => { g with outs := [(3, { refreshAt := some 0 })] }
def conducting (out : Nat) (f : GirthBlock → GirthBlock := id) : State := girthSet [] [(GIRTH_STAT_STATE, 1), (GIRTH_STAT_SOUTON, 2 ^ out)] f
def outTest : State := conducting 0 fun g => { g with test := some ⟨3, false, 0⟩ }
def pulsing : State := girthSet [] [] fun g => { g with glPulse := 1 }

theorem witness_SafetyOutputsAndPairsFault :
    (discrepant.pairOn 0 = true ∧ discrepant.bit (GIRTH_SIN_DISC 0) = true ∧ discrepant.bit (GIRTH_SIN_FAULT 0) = false ∧
      discrepant.pairT 0 < (discrepant.advance 5).gx - (discrepant.pairTimes 0).since + 100000 ∧ (discrepant.pairTimes 0).unsampled = none) ∧
    ((refreshed.safetyOut 3).refreshAt = some 0 ∧ refreshed.get GIRTH_STAT_STATE = 1 ∧ refreshed.gp (29 + 3) 0 1 = 1 ∧
      refreshed.bit (GIRTH_SOUT_REFTO 3) = false ∧ 0 + refreshed.gp (29 + 3) 5 10 * 100000 ≤ (refreshed.advance 5).gx) ∧
    (refreshed.get GIRTH_STAT_STATE ≠ 0 ∧ (refreshed.bit (GIRTH_SOUT_PERMIT 3) && refreshed.bit (GIRTH_SOUT_REQ 3)) = false ∧
      (refreshed.bit (GIRTH_SOUT_FAULT 3) && bitOf (refreshed.get GIRTH_FAULT_EXTD) 3) = false ∧ refreshed.get FIO_STAT_FS1 ≤ 1) ∧
    (bitOf ((conducting 3).get GIRTH_STAT_SOUTON) 3 = true ∧ (conducting 3).girth.test = none ∧
      (conducting 3).girth.testEnd + 10000000 ≤ ((conducting 3).advance 20000000).gx ∧
      ((conducting 3).safetyOut 3).testBase + (conducting 3).gp (29 + 3) 15 12 * 1000000000 ≤ ((conducting 3).advance 20000000).gx) ∧
    (outTest.girth.test = some ⟨3, false, 0⟩ ∧ 3 < 4 ∧ 0 + 200000 ≤ (outTest.advance 300000).gx ∧ 0 + 150000 ≤ (outTest.advance 300000).gx) ∧
    ((0 : Fin 4).val ≠ 3 ∧ (1#4).getLsbD (0 : Fin 4).val = true ∧ outTest.get FIO_STAT_FS1 ≤ 1) ∧
    State.reset.girth.enableLost.contains 4 = false ∧
    (pulsing.girth.glPulse ≠ 0 ∧ pulsing.girth.glAt + 180000000 ≤ (pulsing.advance 180000000).mono) ∧
    (refreshed.Accepts GIRTH_SEQ_LASTCMD 1 ∧ refreshed.bit (GIRTH_SOUT_REQ (4 - 1)) = false) := by
  have e1 : discrepant.pairT 0 = 0 := by decide +kernel
  have e2 : refreshed.gp (29 + 3) 5 10 = 0 := by decide +kernel
  have e3 : (conducting 3).gp (29 + 3) 15 12 = 0 := by decide +kernel
  have h1 := gx_ge ((conducting 3).advance 20000000) (k := 10000000) (by decide +kernel)
  have h2 := gx_ge (outTest.advance 300000) (k := 200000) (by decide +kernel)
  refine ⟨⟨by decide +kernel, by decide +kernel, by decide +kernel, ?_, by decide +kernel⟩, ⟨by decide +kernel, by decide +kernel, by decide +kernel,
    by decide +kernel, ?_⟩, by decide +kernel, ⟨by decide +kernel, by decide +kernel, h1, ?_⟩,
    ⟨by decide +kernel, by decide, by omega, by omega⟩, by decide +kernel, by decide +kernel, by decide +kernel, by decide +kernel⟩
  · rw [e1]; omega
  · rw [e2]; omega
  · rw [e3]; exact Nat.zero_le _

def tripping (l : List (Fld × Nat)) (f : TripOut → TripOut := id) : State :=
  girthSet [(21, 0x2001#32)] ((GIRTH_STAT_STATE, 1) :: l) fun g => { g with trips := [(0, f {})] }
def watching : State := girthSet [(1, BitVec.ofNat 32 (1 + 5 * 2)), (2, 100#32)] [(GIRTH_STAT_STATE, 1)]

/-- Channel 5 lost, 31 good words in a row. -/
def restoring : State := { watching with girth := { watching.girth with channels := [(5, { lost := true, run := 31 })] } }

theorem witness_TripOutputsAndRawPath :
    (((tripping [(GIRTH_TOUT_ON 0, 1)]).advance 5).driveTrips.bit (GIRTH_TOUT_ON 0) = true ∧
      ((tripping [(GIRTH_TOUT_ON 0, 1)]).advance 5).driveTrips.sources 0 = 0 ∧
      (((tripping [(GIRTH_TOUT_ON 0, 1)]).advance 5).driveTrips.tripOut 0).onAt + ((tripping [(GIRTH_TOUT_ON 0, 1)]).advance 5).driveTrips.tripMin 0 ≤
        ((tripping [(GIRTH_TOUT_ON 0, 1)]).advance 5).driveTrips.gx) ∧
    ((tripping [(GIRTH_TOUT_ON 0, 1)]).bit (GIRTH_TOUT_ON 0) = true ∧
      ((tripping [(GIRTH_TOUT_ON 0, 1)]).tripOut 0).onAt + 300000000 ≤ ((tripping [(GIRTH_TOUT_ON 0, 1)]).advance 400000000).gx) ∧
    (((tripping [(GIRTH_TOUT_ON 0, 1)] fun x => { x with confirm := true }).tripOut 0).confirm = true ∧
      (tripping [(GIRTH_TOUT_ON 0, 1)] fun x => { x with confirm := true }).bit (GIRTH_TOUT_ON 0) = true ∧ 50 ≤ 50 ∧ 49 < 50) ∧
    ((tripping [(GIRTH_TOUT_ON 0, 1)] fun x => { x with confirm := true }).tripOut 0).onAt + 5000000 ≤
      ((tripping [(GIRTH_TOUT_ON 0, 1)] fun x => { x with confirm := true }).advance 6000000).gx ∧
    ((tripping []).tripOn 0 = true ∧ (tripping []).gp (21 + 0) 13 1 = 1 ∧ (tripping []).bit (GIRTH_TOUT_ON 0) = false ∧
      (tripping []).bit (GIRTH_TCS_SUSP 0) = false ∧ tcsClass 16799 0 0 ≠ (tripping []).get (GIRTH_TCS_STATE 0)) ∧
    ((tripping [(GIRTH_TCS_SUSP 0, 1)]).bit (GIRTH_TCS_SUSP 0) = true ∧ (tripping [(GIRTH_TCS_SUSP 0, 1)]).bit (GIRTH_TOUT_ON 0) = false ∧
      ((tripping [(GIRTH_TCS_SUSP 0, 1)]).tripOut 0).releasedAt + 1000000000 ≤ ((tripping [(GIRTH_TCS_SUSP 0, 1)]).advance 2000000000).gx) ∧
    (watching.get GIRTH_STAT_STATE ≠ 0 ∧ watching.bit GIRTH_STAT_PESIL = false ∧
      watching.girth.strobeAt + 250000 ≤ (watching.advance 300000).gx) ∧
    ((girthSet [] [(GIRTH_STAT_STATE, 1), (GIRTH_STAT_PESIL, 1)] fun g => { g with strobes := 64 }).girth.strobes = 64) ∧
    (watching.rawDiscard oddWord = some 1 ∧ watching.rawDiscard (rawWord 100 5 false 0) = none ∧
      (watching.rawChannel 5).lost = false) ∧
    (restoring.rawDiscard (rawWord 100 5 false 0) = none ∧ (restoring.rawChannel 5).lost = true ∧ 31 ≤ (restoring.rawChannel 5).run ∧
      (restoring.advance 1).gx < (restoring.rawChannel 5).at_ + 125000) ∧
    (watching.watchers 5 ≠ [] ∧ max (watching.rawChannel 5).at_ watching.girth.armedAt + 125000 ≤ (watching.advance 300000).gx) ∧
    (watching.Accepts GIRTH_SEQ_LASTCMD 1 ∧ watching.elOn 0 = true ∧ bitOf (watching.get GIRTH_INST_PICK) 0 = false) := by
  have hm : ((tripping [(GIRTH_TOUT_ON 0, 1)]).advance 5).driveTrips.tripMin 0 = 0 := by decide +kernel
  have ho : (((tripping [(GIRTH_TOUT_ON 0, 1)]).advance 5).driveTrips.tripOut 0).onAt = 0 := by decide +kernel
  have h1 := gx_ge ((tripping [(GIRTH_TOUT_ON 0, 1)]).advance 400000000) (k := 300000000) (by decide +kernel)
  have h2 := gx_ge ((tripping [(GIRTH_TCS_SUSP 0, 1)]).advance 2000000000) (k := 1000000000) (by decide +kernel)
  have h4 := gx_ge ((tripping [(GIRTH_TOUT_ON 0, 1)] fun x => { x with confirm := true }).advance 6000000) (k := 5000000) (by decide +kernel)
  have h5 : (restoring.advance 1).gx ≤ 2 := girthTime_le 1
  have h3 := gx_ge (watching.advance 300000) (k := 250000) (by decide +kernel)
  have e5 : (restoring.rawChannel 5).at_ = 0 := by decide +kernel
  refine ⟨⟨by decide +kernel, by decide +kernel, ?_⟩, ⟨by decide +kernel, h1⟩, by decide +kernel, ?_, by decide +kernel,
    ⟨by decide +kernel, by decide +kernel, h2⟩, ⟨by decide +kernel, by decide +kernel, h3⟩, by decide +kernel, by decide +kernel,
    ⟨by decide +kernel, by decide +kernel, by decide +kernel, by omega⟩, ⟨by decide +kernel, ?_⟩, by decide +kernel⟩
  · rw [hm, ho]; exact Nat.zero_le _
  · have e : ((tripping [(GIRTH_TOUT_ON 0, 1)] fun x => { x with confirm := true }).tripOut 0).onAt = 0 := by decide +kernel
    rw [e]; omega
  · have : max (watching.rawChannel 5).at_ watching.girth.armedAt = 0 := by decide +kernel
    rw [this]; omega
/-! ### Witnesses: records, field inputs and outputs, loops -/

def withRecB (f : RecBlock → RecBlock) (s : State := State.reset) : State := { s with recb := f s.recb }
def record1 (bad : Bool) : EventRecord := { number := 1, code := 0x2001, flags := 0, opsec := 0, pcyc := 0, time := 0, vals := [], bad := bad }
def emitting : State := { State.reset with emitted := [⟨0x2001, [3], 0⟩] }
/-- A limiter entry for the code whose bucket is empty. -/
def limited : State :=
  withRecB (fun r => { r with buckets := [(255, { taken := 1, since := 0, supp := 0 })] })
    ((({ State.reset with emitted := [⟨0x2001, [3], 0⟩] }).wr (bank REC_RLDAT0 255) 0x80002001#32).wr (bank REC_RLDAT1 255) 0x00010001#32)
/-- The same with the code's token left. -/
def tokened : State := withRecB (fun r => { r with buckets := [(255, { taken := 0, since := 0, supp := 4 })] }) limited
def queued (bad : Bool) : State := withRecB (fun r => { r with queue := [record1 bad] }) (st [(REC_NUM_NUM, 1)])

theorem witness_EventsBecomeRecords :
    (emitting.emitted = ⟨0x2001, [3], 0⟩ :: [] ∧ emitting.limiter 0x2001 = none ∧ emitting.recb.queue.length < 256) ∧
    (limited.emitted = ⟨0x2001, [3], 0⟩ :: [] ∧ limited.limiter 0x2001 = some 255 ∧ limited.burst 255 ≤ (limited.bucket 255).taken) ∧
    (tokened.emitted = ⟨0x2001, [3], 0⟩ :: [] ∧ tokened.limiter 0x2001 = some 255 ∧ (tokened.bucket 255).taken < tokened.burst 255 ∧
      tokened.recb.queue.length < 255) ∧
    State.reset.emitted = [] ∧
    ((limited.bucket 255).taken ≠ 0 ∧ (limited.bucket 255).since + limited.period 255 * 1000000 ≤ (limited.advance 1000000).mono) ∧
    (State.reset.recb.savedAt + 60000000000 ≤ (State.reset.advance 60000000000).mono ∧ State.reset.recb.opsFrom ≠ none) ∧
    ((queued true).Accepts REC_SEQ_LASTCMD 1 ∧ (queued true).findRecord ((queued true).get REC_NUM_NUM) = some (record1 true)) ∧
    State.reset.findRecord (State.reset.get REC_NUM_NUM) = none := by decide +kernel

def closedCapture : Capture := { number := 1, first := 0, trigger := 0, last := 0, closed := true }
def noFrames : DisturbanceRecord := { capture := closedCapture, block := 0, frames := [] }
def frozenBy (source : Nat) : State := st [(REC_STAT_FROZEN, 1), (REC_STAT_FSRC, source)]
def triggered : State := withRecB (fun r => { r with triggers := true }) (st [(REC_TRIGEN_CORE, 1)])
def storing : State := withRecB fun r => { r with captures := [closedCapture] }
def exportable (job : Option (Nat × Nat × Nat)) : State :=
  withRecB (fun r => { r with stored := [noFrames], export_ := job })
    (((st [(REC_NUM_NUM, 1), (MEM_STAT_DINIT, 1)]).wr REC_XADDR 0x80000000#32).wr REC_XLEN 0x10000#32)

theorem config_length (s : State) (h : s.recb.station = [] ∧ s.recb.units = [] ∧ s.recb.lf = []) :
    (s.comtradeConfig noFrames).length ≤ 20000 := by
  have a := analogueLines_length [] (List.range 24)
  have d := digitalLines_length (List.range 64)
  have h1 := csvLine_length [[], decimal (s.rd SYS_SER).toNat, ascii "2013"]
  have := decimal_length (s.rd SYS_SER).toNat
  have e1 : (ascii "2013").length = 4 := by decide
  have e2 : (csvLine [ascii "88", ascii "24A", ascii "64D"] ++ csvLine [[]] ++ csvLine [ascii "1"] ++ csvLine [ascii "32000", decimal 0] ++
      csvLine [stampText 0] ++ csvLine [stampText 0] ++ csvLine [ascii "BINARY32"] ++ csvLine [ascii "1"] ++
      csvLine [ascii "+0h00", ascii "+0h00"] ++ csvLine [ascii "F", ascii "0"]).length ≤ 200 := by decide +kernel
  simp only [List.map_cons, List.map_nil, List.sum_cons, List.sum_nil, List.length_nil] at h1
  simp only [List.length_range] at a d
  have e3 : stampText ((0 : Nat) + (0 - 0) * 31250) = stampText 0 := rfl
  simp only [State.comtradeConfig, noFrames, closedCapture, h.1, h.2.1, h.2.2, List.length_append, List.length_nil] at e2 ⊢
  simp only [e3, Bool.false_eq_true, if_false] at e2 ⊢
  omega

theorem witness_RecorderFreezesTriggersAndExports :
    (State.reset.Accepts REC_SEQ_LASTCMD 1 ∧ State.reset.frozen = false) ∧
    ((frozenBy 1).Accepts REC_SEQ_LASTCMD 1 ∧ (frozenBy 1).frozen = true ∧ (frozenBy 1).get REC_STAT_FSRC = 1) ∧
    (triggered.Accepts REC_SEQ_LASTCMD 1 ∧ triggered.bit REC_TRIGEN_CORE = true ∧ triggered.recb.triggers = true ∧
      triggered.recb.captures = []) ∧
    ((exportable none).Accepts REC_SEQ_LASTCMD 1 ∧ (exportable none).recb.export_ = none ∧
      (exportable none).disturbance ((exportable none).get REC_NUM_NUM) = some noFrames ∧ (exportable none).bit MEM_STAT_DINIT = true ∧
      bufferOk (((exportable none).rd REC_XADDR).toNat / 4 * 4) ((exportable none).rd REC_XLEN).toNat = true ∧
      exportBytes ((((exportable none).advance 1).set REC_SEQ_LASTCMD 1).comtradeConfig noFrames).length (4 * noFrames.dataFile.length) ≤
        ((exportable none).rd REC_XLEN).toNat) ∧
    ((exportable (some (1, 0x80000000, 0x10000))).recb.export_ = some (1, 0x80000000, 0x10000) ∧
      (exportable (some (1, 0x80000000, 0x10000))).disturbance 1 = some noFrames ∧
      (exportable (some (1, 0x80000000, 0x10000))).bit MEM_STAT_DINIT = true ∧
      (exportable (some (1, 0x80000000, 0x10000))).memb.clear = none ∧ (exportable (some (1, 0x80000000, 0x10000))).memb.flip = none) ∧
    (storing.frozen = false ∧ storing.recb.captures.find? (·.closed) = some closedCapture) := by
  refine ⟨by decide +kernel, by decide +kernel, by decide +kernel,
    ⟨by decide +kernel, by decide +kernel, by decide +kernel, by decide +kernel, by decide +kernel, ?_⟩, by decide +kernel, by decide +kernel⟩
  have h := config_length (((exportable none).advance 1).set REC_SEQ_LASTCMD 1) (by decide +kernel)
  have e : ((exportable none).rd REC_XLEN).toNat = 0x10000 := by decide +kernel
  have e2 : 4 * noFrames.dataFile.length = 0 := by decide +kernel
  rw [e, e2]; unfold exportBytes; omega

def wired (broken : Nat) : State := st [(FIO_INnCFG_WBEN 24, 1), (FIO_WB_INPUT, broken)]
def counting (kind level : Nat) : State :=
  let s := st [(FIO_INnCFG_CNT 12, kind), (FIO_IN_INPUT, level)]
  { s with fio := { s.fio with counting := true } }
def output16 (f : FioBlock → FioBlock := id) : State :=
  let s := st [(FIO_OnCFG_TP 16, 1), (FIO_OnCFG_OLEN 16, 1), (FIO_OnCFG_TPPER 16, 1)]
  { s with fio := f { s.fio with on := 2 ^ 15 } }
def lowSupply : State := { State.reset with fio := { State.reset.fio with fs1 := { low := 40 } } }

theorem witness_FieldInputsAndOutputsFollow :
    (State.reset.isCounter 24 = false ∧ [24000] ≠ [] ∧
      State.reset.input 24 ∉ State.reset.comparators 24 (State.reset.compared 24) [24000] ∧
      (State.reset.advance 20000000).steadyFor 24 (State.reset.filterNs 24) = true) ∧
    ((wired 0).bit (FIO_INnCFG_WBEN 24) = true ∧ (wired 0).input 24 = false ∧ 149 < 150 ∧ bitOf ((wired 0).get FIO_WB_INPUT) 23 = false) ∧
    (300 ≤ 300 ∧ bitOf ((wired (2 ^ 23)).get FIO_WB_INPUT) 23 = true) ∧
    ((counting 3 0).isCounter 12 = true ∧ (counting 3 0).comparator 12 ((counting 3 0).compared 12) 24000 ≠ (counting 3 0).input 12 ∧
      (counting 2 (2 ^ 11)).comparator 12 ((counting 2 (2 ^ 11)).compared 12) 0 ≠ (counting 2 (2 ^ 11)).input 12 ∧ (counting 3 0).fio.counting = true ∧ (counting 3 0).get (FIO_INnCFG_CNT 12) = 3 ∧
      ((counting 3 0).advance 5000).steadyFor 12 2000 = true ∧
      ((counting 3 0).advance 5000).edge + 5000 ≤ ((counting 3 0).advance 5000).mono) ∧
    ((counting 1 0).get (FIO_INnCFG_CNT 12) = 1 ∧ (counting 1 0).input 12 = false) ∧
    ((counting 2 (2 ^ 11)).get (FIO_INnCFG_CNT 12) = 2 ∧ (counting 2 (2 ^ 11)).input 12 = true) ∧
    ((output16).conducts 16 = true ∧ 4 ≤ (15 : Fin 16).val ∧ (output16).bit (FIO_OnCFG_TP 16) = true ∧ (output16).bit (FIO_OnCFG_OLEN 16) = true ∧
      (output16).fio.test = none ∧ (output16).girth.test = none ∧
      (output16).fio.testEnd + 10000000 ≤ ((output16).advance 1000000000).mono ∧
      CMap.lookup (fun _ => 0) (output16).fio.testBase 16 + (output16).get (FIO_OnCFG_TPPER 16) * 1000000000 ≤
        ((output16).advance 1000000000).mono) ∧
    (output16).girth.testEnd + 10000000 ≤ ((output16).advance 1000000000).gx ∧
    ((output16 fun b => { b with test := some ⟨16, 0⟩ }).fio.test = some ⟨16, 0⟩ ∧ 5 ≤ 16 ∧
      0 + 200000 ≤ ((output16 fun b => { b with test := some ⟨16, 0⟩ }).advance 200000).mono ∧
      (0 : Fin 16).val + 1 ≠ 16 ∧ (1#16).getLsbD (0 : Fin 16).val = true ∧
      (output16 fun b => { b with test := some ⟨16, 0⟩ }).get FIO_STAT_FS1 ≠ 2 ∧
      (output16 fun b => { b with test := some ⟨16, 0⟩ }).get FIO_STAT_FS2 ≠ 2) ∧
    (14999 < 15000 ∧ 40 ≤ (lowSupply.supply 1).low ∧ lowSupply.get (supplyField 1) ≤ 1) ∧
    (State.reset.Accepts FIO_SEQ_LASTCMD 1 ∧ State.reset.requested 16 = false) ∧
    ((st [(FIO_STAT_FS1, 3)]).Accepts FIO_SEQ_LASTCMD 1 ∧ (st [(FIO_STAT_FS1, 3)]).get (supplyField 1) = 3) := by
  have h := gx_ge ((output16).advance 1000000000) (k := 10000000) (by decide +kernel)
  exact ⟨by decide +kernel, by decide +kernel, by decide +kernel, by decide +kernel, by decide +kernel, by decide +kernel,
    by decide +kernel, h, by decide +kernel, by decide +kernel, by decide +kernel, by decide +kernel⟩

def loop7 (mode : Nat) (l : List (Fld × Nat)) (x : LoopState := {}) : State :=
  let s := st ([(ALP_CHnCFG_MODE 7, mode), (ALP_CHnCFG_TMO 7, 5), (ALP_CHnCFG_HART 7, 1), (SYS_MODE_MODE, 10)] ++ l)
  { s with alp := { s.alp with channels := [(7, x)], driving := true, modem1 := some 7 } }

def zeroHeld : State := loop7 1 [(ALP_KEYS_ZERO, 1), (ALP_KEYS_CALCH, 7)] { raw := 3800 }
def spanHeld : State := loop7 1 [(ALP_KEYS_SPAN, 1), (ALP_KEYS_CALCH, 7)] { raw := 19600 }

theorem witness_LoopChannelsKeysAndHart :
    ((loop7 1 []).get (ALP_CHnCFG_MODE 7) = 1 ∧ (loop7 1 []).sget (ALP_CHnVAL_UA 7) < 500) ∧ State.reset.get (ALP_CHnCFG_MODE 7) = 0 ∧
    ((loop7 2 []).get (ALP_CHnCFG_MODE 7) = 2 ∧ (loop7 2 []).get (ALP_CHnHEAD_MV 7) < 2500 ∧ (loop7 2 []).bit (ALP_CHnSTAT_OPEN 7) = false) ∧
    (30000 : Nat) < 30001 ∧
    ((loop7 1 [(ALP_CHnHEAD_MV 7, 2500)]).get (ALP_CHnCFG_MODE 7) ≠ 0 ∧ 2500 ≤ (loop7 1 [(ALP_CHnHEAD_MV 7, 2500)]).get (ALP_CHnHEAD_MV 7)) ∧
    ((loop7 1 [(ALP_CHnSTAT_OVLD 7, 1)]).bit (ALP_CHnSTAT_OVLD 7) = true ∧
      ((loop7 1 [(ALP_CHnSTAT_OVLD 7, 1)]).loop 7).triedAt + 1000000000 ≤ ((loop7 1 [(ALP_CHnSTAT_OVLD 7, 1)]).advance 1000000000).mono) ∧
    ((loop7 2 []).alp.driving = true ∧ (loop7 2 []).get (ALP_CHnCFG_TMO 7) ≠ 0 ∧
      ((loop7 2 []).loop 7).releasedAt + (loop7 2 []).get (ALP_CHnCFG_TMO 7) * 1000000 ≤ ((loop7 2 []).advance 5000000).mono) ∧
    ((loop7 1 []).Accepts (ALP_HnSEQ_LASTCMD 7) 1 ∧ ((loop7 1 []).bit (ALP_CHnCFG_HART 7) || (loop7 1 []).bit (ALP_CHnCFG_HEXCL 7)) = true ∧
      ((loop7 1 []).loop 7).hart = none ∧ 1 ≤ 272 ∧ 272 ≤ 272) ∧
    (loop7 1 []).Accepts ALP_SEQ_LASTCMD 1 ∧
    ((loop7 1 []).hartModem true.toNat = some 7 ∧ 7 < 8 ∧ ([] : List Byte).length ≤ 272) ∧
    (State.reset.bit ALP_KEYS_SEL = false) ∧
    ((loop7 1 [(ALP_KEYS_SEL, 1)]).bit ALP_KEYS_SEL = true ∧
      ((loop7 1 [(ALP_KEYS_SEL, 1)]).advance 999999999).mono < (loop7 1 [(ALP_KEYS_SEL, 1)]).alp.selAt + 1000000000 ∧
      (loop7 1 [(ALP_KEYS_SEL, 1)]).mode = .service) ∧
    (zeroHeld.bit ALP_KEYS_ZERO = true ∧ zeroHeld.alp.zeroAt + 2000000000 ≤ (zeroHeld.advance 2000000000).mono ∧
      zeroHeld.mode = .service ∧ zeroHeld.get ALP_KEYS_CALCH < 8 ∧ 3800 ≤ (zeroHeld.loop (zeroHeld.get ALP_KEYS_CALCH)).raw ∧
      (zeroHeld.loop (zeroHeld.get ALP_KEYS_CALCH)).raw ≤ 4400) ∧
    (spanHeld.bit ALP_KEYS_SPAN = true ∧ spanHeld.alp.spanAt + 2000000000 ≤ (spanHeld.advance 2000000000).mono ∧
      spanHeld.mode = .service ∧ spanHeld.get ALP_KEYS_CALCH < 8 ∧ (spanHeld.loop 7).raw + spanHeld.sget (ALP_CHnTRIM_OFFS 7) - 4000 = 15600 ∧
      19000 ≤ spanHeld.loopCorrected 7 (spanHeld.loop 7).raw ∧ spanHeld.loopCorrected 7 (spanHeld.loop 7).raw ≤ 21000 ∧
      roundRatio ((16000 - 15600) * 1000000 * Int.sign 15600) (Int.natAbs 15600) = 25641) ∧
    KeyHold.press ≠ .held ∧ KeyHold.release ≠ .held := by decide +kernel
/-! ### Witnesses: network and time -/

def withNetB (f : NetBlock → NetBlock) (s : State := State.reset) : State := { s with net := f s.net }
/-- Receive flow 255 of ComId 77 on port 1, plain (4 bytes) or safe (13 bytes). -/
def receiving (safe : Nat) (x : FlowState := {}) : State :=
  withNetB (fun b => { b with flows := [(255, x)] })
    (st [(SYS_STAT_CFGOK, 1), (NET_PnCFG_SPEED 1, 1), (NET_FD0_EN.at 255, 1), (NET_FD0_KIND.at 255, safe), (NET_FD0_PORTS.at 255, 3), (NET_FD1_VALUE.at 255, 77),
      (NET_FD3_LEN.at 255, if safe = 1 then 13 else 4), (NET_FLAST_SEQ.at 255, 5), (NET_FD8_SKEW.at 255, 10), (NET_FD8_SEQWIN.at 255, 3),
      (NET_FD5_TIME.at 255, 100), (NET_FSTAT_ACKWAIT.at 255, 1), (NET_FSTAT_LOST.at 255, 0)])
/-- A header of ComId 77 with a dataset of a length; cut short it is refused. -/
def header (counter len : Nat) (ok : Bool) : PdHeader :=
  { src := 0, bytes := (pdHeader counter 77 0 0 len).take (if ok then 40 else 39) }
def data4 : List Byte := [6#8, 0#8, 0#8, 0#8]
/-- A safe telegram of one byte with sequence 6 and its check sequence, as the flow expects it. -/
def telegram : List Byte := 9#8 :: (leBytes 4 6 ++ leBytes 4 0x10001)
/-- The flow with the pair sequence at its end, which counts in place of the header's. -/
def paired : State := (receiving 0 { first := false, pairSeq := 5 }).set (NET_FD0_PAIRSEQ.at 255) 1
/-- A safe flow that shows lost, as its station does, without a fault yet. -/
def silentSafe : State := ((receiving 1).set (NET_FSTAT_LOST.at 255) 1).set (stLost 5 255) 1
/-- A safe telegram of flow 255 waiting at port 1, not missed yet. -/
def waitingSafe : State :=
  withNetB (fun b => { b with queues := [(1, [{ kind := .safe, claimant := 0x50FF, len := 64, data := [], at_ := 0 }])] }) (receiving 1)
def copy1 : SafeCopy := ⟨6, 1, 0, []⟩

theorem witness_ProcessDataAndSafeTelegramsArrive :
    ((receiving 0).get (NET_PnCFG_SPEED (1 : Fin 3).val) ≠ 0 ∧ (receiving 0).headerRefused (header 6 4 true) data4 = false ∧
      (header 6 4 true).comId = 77 ∧ (receiving 0).receiveFlow false 1 0 77 = some 255 ∧ (receiving 0).bit (NET_FD0_PAIRSEQ.at 255) = false ∧
      data4.length = (receiving 0).flowLen 255 ∧ ((receiving 0).flow 255).first = true) ∧
    (paired.headerRefused (header 6 4 true) data4 = false ∧ paired.receiveFlow false 1 0 77 = some 255 ∧
      paired.bit (NET_FD0_PAIRSEQ.at 255) = true ∧ data4.length = paired.flowLen 255 ∧
      after32 (word32At data4 0) (paired.flow 255).pairSeq = true) ∧
    (((receiving 0 { first := false }).flow 255).first = false ∧
      ((receiving 0).flowPort 255 0 && (receiving 0).flowPort 255 1) = true ∧
      after32 6 ((receiving 0).get (NET_FLAST_SEQ.at 255)) = true ∧ (header 5 4 true).counter = (receiving 0).get (NET_FLAST_SEQ.at 255)) ∧
    (receiving 0).headerRefused (header 6 4 false) data4 = true ∧
    ((receiving 1).receiveFlow true 1 0 77 = some 255 ∧ (receiving 1).headerRefused (header 6 0 true) [] = false ∧
      (receiving 1).telegramOk 255 [] = false) ∧
    (((receiving 1 { window := some copy1 }).flow 255).window = some copy1 ∧
      copy1.at_ + (receiving 1).get (NET_FD8_SKEW.at 255) * 10000 ≤ ((receiving 1 { window := some copy1 }).advance 100000).mono) ∧
    ((receiving 1).configured = true ∧ (receiving 1).flowOn 255 = true ∧ (receiving 1).flowTransmits 255 = false ∧ (receiving 1).bit (NET_FSTAT_LOST.at 255) = false ∧
      ((receiving 1).flow 255).lastAt + (receiving 1).get (NET_FD5_TIME.at 255) * 1000000 ≤ ((receiving 1).advance 100000000).mono) ∧
    (silentSafe.bit (NET_FSTAT_LOST.at 255) = true ∧
      silentSafe.bit (stLost 5 255) = true ∧
      silentSafe.flowSafe 255 = true ∧
      silentSafe.bit (NET_FSTAT_FAULT.at 255) = false) ∧
    (waitingSafe.portQueue 1 = [{ kind := .safe, claimant := 0x5000 + 255, len := 64, data := [], at_ := 0 }] ∧
      waitingSafe.net.sending = [] ∧ 0 ∉ (waitingSafe.flow 255).missed ∧
      0 + waitingSafe.get (NET_FD5_TIME.at 255) * 1000 ≤ (waitingSafe.advance 100000).mono) ∧
    ((receiving 1 { withheld := [0] }).portQueue 1 = [] ∧ (receiving 1).net.sending = [] ∧
      ((receiving 1 { withheld := [0] }).flow 255).withheld = 0 :: [] ∧ 0 ∉ ((receiving 1 { withheld := [0] }).flow 255).missed ∧
      0 + (receiving 1).get (NET_FD5_TIME.at 255) * 1000 ≤ ((receiving 1 { withheld := [0] }).advance 100000).mono) := by decide +kernel

/-- The telegram above with its check sequence passes; its sequence is one above the last. -/
def goodTelegram : List Byte := telegram ++ leBytes 4 ((receiving 1).scrc 255 telegram)

theorem witness_SafeTelegramAccepted :
    (receiving 1).telegramOk 255 goodTelegram = true ∧
    (receiving 1).headerRefused (header 6 goodTelegram.length true) goodTelegram = false ∧ ((receiving 1).flow 255).window = none ∧
    (word32At goodTelegram ((receiving 1).safeLen 255) + 2 ^ 32 - (receiving 1).get (NET_FLAST_SEQ.at 255)) % 2 ^ 32 = 1 ∧
    1 ≤ (receiving 1).get (NET_FD8_SEQWIN.at 255) := by decide +kernel

def frame1 : TxFrame := { kind := .ring, len := 64, data := [], at_ := 0 }
def portUp (q : List TxFrame) (tail : Nat) : State :=
  withNetB (fun b => { b with queues := [(2, q)] })
    (st [(NET_STAT_LINK, 4), (NET_STAT_SPD, 16), (NET_PnCFG_SPEED 2, 1), (NET_RXCFG_EN, 1), (NET_RXCFG_SLOTS, 7), (NET_RXPTR_TAIL, tail),
      (NET_TXCFG_EN, 1), (NET_TXCFG_SLOTS, 7)])

/-- In SAFE a safe telegram may not leave. -/
def stoppedPort : State := { portUp [{ frame1 with kind := .safe }] 0 with regs := ((portUp [] 0).putMode .safe).regs }

/-- A tier 6 share of the software update on the Bridle link, declared; the module is in a pair. -/
def sharing : State := { st [(PAIR_CFG_MODE, 1)] with sys := { State.reset.sys with shares := [⟨14, 0x8000, 9⟩] } }

theorem witness_PortsRingsAndLinks :
    (∃ i, (portUp [frame1] 0).firstEligible 2 = some i) ∧ (portUp [frame1] 0).portQueue 2 ≠ [] ∧
    (frameFits false (List.replicate 1523 0) = false ∧ frameFits false [1#8] = true) ∧
    ((portUp [] 0).get (NET_PnCFG_SPEED (2 : Fin 3).val) ≠ 0 ∧ RingFrameKind.kept ≠ .other ∧ (portUp [] 0).bit NET_RXCFG_EN = true ∧
      ((portUp [] 0).get NET_RXPTR_HEAD + 1) % ((portUp [] 0).get NET_RXCFG_SLOTS + 1) ≠
        (portUp [] 0).get NET_RXPTR_TAIL % ((portUp [] 0).get NET_RXCFG_SLOTS + 1)) ∧
    ((portUp [] 1).get NET_RXPTR_HEAD + 1) % ((portUp [] 1).get NET_RXCFG_SLOTS + 1) =
      (portUp [] 1).get NET_RXPTR_TAIL % ((portUp [] 1).get NET_RXCFG_SLOTS + 1) ∧
    ((portUp [] 0).bit NET_TXCFG_EN = true ∧ 7 ≤ (portUp [] 0).get NET_TXCFG_SLOTS ∧
      (portUp [] 0).get NET_TXPTR_TAIL ≤ (portUp [] 0).get NET_TXCFG_SLOTS) ∧
    ((portUp [frame1] 0).get NET_STAT_LINK / 2 ^ (2 : Fin 3).val % 2 = 1 ∧ (portUp [frame1] 0).portQueue 2 = [frame1] ∧
      (portUp [frame1] 0).mayLeave frame1.kind = true ∧ ((portUp [frame1] 0).advance 5).firstEligible 2 = some 0 ∧
      (stoppedPort.mayLeave .safe = false ∧ stoppedPort.portQueue 2 = [{ frame1 with kind := .safe }]) ∧
      ((portUp [frame1] 0).advance 5).frameGone 2 = true) ∧
    ((portUp [] 0).get NET_STAT_LINK / 2 ^ (1 : Fin 3).val % 2 = 0 ∧ 1 ≤ (receiving 0).get (NET_PnCFG_SPEED 1)) ∧
    ((receiving 1).Accepts NET_SEQ_LASTCMD 1 ∧ (receiving 1).flowOn 255 = true ∧ (receiving 1).flowTransmits 255 = false ∧
      (receiving 1).flowSafe 255 = true ∧ (receiving 1).bit (NET_FSTAT_ACKWAIT.at 255) = true) ∧
    ((sharing.advance 1).mono % 1000000 ≠ 0) ∧
    ((sharing.advance 1000000).mono % 1000000 = 0 ∧ sharing.net.windowEnd < (sharing.advance 1000000).mono ∧
      (sharing.sys.shares.any fun x => x.resource == 14 && x.claimant == 0x8000) = true ∧ sharing.claimantTier 0x8000 = 6 ∧
      sharing.mayBenefit 6 0x1000 = true ∧ sharing.get PAIR_CFG_MODE ≠ 0) := by
  refine ⟨⟨0, by decide +kernel⟩, by decide +kernel⟩

def session (x : Session) : State := withNetB (fun b => { b with session := x, keys := [[1#8]] }) (st [(NET_PnCFG_SPEED 2, 1)])
def nonce8 : List Word := List.replicate 8 0#32
/-- Clock 7, better than the own one. -/
def clock7 : PtpClock := { gm := 7#64, priority1 := 1#8, sender := 7#64 }
def timing (l : List (Fld × Nat)) (f : TimeBlock → TimeBlock := id) : State :=
  let s := st ([(TIME_CFG_MODE, 1), (TIME_PnCFG_PTPEN 1, 1), (TIME_STAT_SLAVE, 1), (TIME_STAT_STATE, 2), (TIME_PnPST_STATE 1, 6),
    (NET_PnCFG_SPEED 1, 1)] ++ l)
  { s with time := f s.time }

theorem witness_MaintenanceSessionAndTime :
    ((session .closed).get (NET_PnCFG_SPEED 2) ≠ 0 ∧ (session .closed).net.session = .closed) ∧
    ((session (.challenged 1 2 nonce8 0)).get (NET_PnCFG_SPEED 2) ≠ 0 ∧
      (session (.challenged 1 2 nonce8 0)).net.session = .challenged 1 2 nonce8 0 ∧
      ((session (.challenged 1 2 nonce8 0)).advance 5000000000).mono ≤ 0 + 5000000000 ∧ (0 : Fin 4).val < (session .closed).net.keys.length) ∧
    ((session (.open_ 1 2 3 7 0)).net.session = .open_ 1 2 3 7 0 ∧ after32 8 7 = true ∧ (regInfo SYS_ID).isSome = true ∧ SYS_ID % 4 = 0 ∧
      maskOf (fun x => x == .rs) SYS_ID = 0) ∧
    ((session (.open_ 1 2 3 7 0)).Accepts NET_SEQ_LASTCMD 1 ∧ 0 + 60000000000 ≤ ((session (.open_ 1 2 3 7 0)).advance 60000000000).mono) ∧
    (((timing []).advance 5).hear 1 (some clock7)).bestMaster = some (1, clock7) ∧ (timing []).get TIME_CFG_MODE = 1 ∧
    betterClock (timing []).ownClock clock7 = false ∧
    ((timing []).ptpOn (1 : Fin 2).val = true ∧ (timing []).get TIME_STAT_SLAVE = 1 ∧
      (timing [] fun t => { t with delayKnown := true }).time.delayKnown = true) ∧
    (PtpSend.sync ≠ .delayRequest ∧ (timing []).get (TIME_PnPST_STATE 1) = 6 ∧ (timing []).get (NET_PnCFG_SPEED 1) ≠ 0) ∧
    ((timing []).ptpOn 1 = true ∧ (timing []).get TIME_STAT_SLAVE = 1 ∧ (timing []).get TIME_STAT_STATE = 2 ∧
      (timing []).time.syncAt + 4 * (1000000000 / 2 ^ (timing []).get TIME_PTPCFG_SYNCI) ≤ ((timing []).advance 4000000000).mono ∧
      (timing []).heardAt 1 + (timing []).announceTimeout ≤ ((timing []).advance 100000000000).mono) ∧
    (((timing []).sget TIME_COMP_VALUE).natAbs ≤ 21475 ∧ ((timing []).advance 1).mono < (timing []).time.compAt + 1000000000 ∧
      (timing []).time.compAt + 1000000000 ≤ ((timing []).advance 1000000000).mono) ∧
    ((timing []).ptpTypes 1 .sync ≠ [] ∧ ((timing []).advance 1).ptpDue 1 .sync = true) ∧
    ((inMode .stop [(TIME_STAT_STEPNEED, 1)]).Accepts TIME_SEQ_LASTCMD 1 ∧ (inMode .stop [(TIME_STAT_STEPNEED, 1)]).mode = .stop ∧
      (inMode .stop [(TIME_STAT_STEPNEED, 1)]).bit TIME_STAT_STEPNEED = true) := by decide +kernel
/-! ### Witnesses: Octette, Bridle, pair -/

def withOctB (f : OctBlock → OctBlock) (s : State := State.reset) : State := { s with oct := f s.oct }
/-- A node of address 5 in a role, both channels enabled, entry 4095 of a kind on channel 0. -/
def node (role kind : Nat) (l : List (Fld × Nat) := []) (f : OctBlock → OctBlock := id) : State :=
  withOctB f (st ([(OCT_STAT_ROLE, role), (OCT_CFG_ADDR, 5), (OCT_CFG_CHEN, 3), (OCT_ED0_EN.at 4095, 1), (OCT_ED0_KIND.at 4095, kind),
    (OCT_ED0_OFFS.at 4095, 100), (OCT_ED1_ADDR.at 4095, 5), (OCT_ED1_LENW.at 4095, 1), (OCT_ED2_PORT.at 4095, 9), (OCT_OWN_RTD, 10)] ++ l))
def started (b : OctBlock) : OctBlock := { b with chA := { b.chA with start := some 1000 } }
/-- Port 9 as input or output of two words or one. -/
def port9 (out : Nat) : List (Fld × Nat) :=
  [(OCT_PCFG_EN.at 511, 1), (OCT_PCFG_PORT.at 511, 9), (OCT_PCFG_DIR.at 511, out), (OCT_PCFG_LENW.at 511, 1), (OCT_PCFG_TMO.at 511, 1)]
def dataFrame : OctFrame := ⟨octHeader 4 0 9 1 0, [7#32], BitVec.ofNat 32 (crcWords [octHeader 4 0 9 1 0, 7#32]), true⟩
def asked : OctAnswer := ⟨.poll, 9, 0#32, 0⟩
def owing : OctBlock → OctBlock := fun b => { b with chA := { b.chA with answer := some asked } }
/-- Asked by an ADMIT, or by a HANDOVER. -/
def owed (ask : OctAsk) : OctBlock → OctBlock := fun b => { b with chA := { b.chA with answer := some ⟨ask, 9, 3#32, 0⟩ } }

theorem witness_OctetteFramesGoOutAndComeIn :
    (((node 3 1).advance 500000).mono % 500000 = 0 ∧ (node 3 1).octRole = 3 ∧ (node 3 1).oct.first = false ∧ (node 3 1).oct.target = none ∧
      (node 3 1).oct.chA.poll = none ∧ (node 3 1).oct.chB.poll = none ∧ (node 3 1).get OCT_CFG_MACRO ≤ 10 ∧ (node 3 1).octEnabled 1 = true) ∧
    ((node 3 1).octEnabled ((node 3 1).edCh 4095) = true ∧ (node 3 1).octActive 4095 = true ∧
      ((node 3 1 [] started).octCh ((node 3 1 [] started).edCh 4095)).start = some 1000 ∧
      ((node 3 1 [] started).octCh ((node 3 1 [] started).edCh 4095)).poll = none ∧ (node 3 1 [] started).edKind 4095 = 1 ∧
      ((node 3 1 [] started).advance 100000).octDue ((node 3 1 [] started).edCh 4095) 4095 1000 = true ∧
      ((node 3 1 [] started).advance 100000).octDue ((node 3 1 [] started).edCh 4095) 4095 1001 = true) ∧
    ((node 3 2 [] started).octActive 4095 = true ∧ (node 3 2 [] started).edKind 4095 = 2 ∧ (node 3 2 [] started).octSilent = false ∧
      ((node 3 2 [] started).advance 100000).octDue ((node 3 2 [] started).edCh 4095) 4095 1000 = true) ∧
    ((node 3 4 [] started).octActive 4095 = true ∧ (node 3 4 [] started).edKind 4095 = 4 ∧ (node 3 4 [] started).edGranted 4095 = false ∧
      ((node 3 4 [] started).octCh ((node 3 4 [] started).edCh 4095)).grant = none ∧ (node 3 4 [] started).oct.target = none ∧
      (node 3 4 [] started).nextAdmit ((node 3 4 [] started).edCh 4095) = some 1 ∧
      ((node 3 4 [] started).advance 100000).octDue ((node 3 4 [] started).edCh 4095) 4095 0 = true) ∧
    ((node 2 2 (port9 0)).octRole = 2 ∧ (node 2 2 (port9 0)).bit OCT_STAT_IDMIS = false ∧ (node 2 2 (port9 0)).octEnabled 1 = true ∧
      (node 2 2 (port9 0)).frameError dataFrame = none ∧ octType dataFrame.header = 4 ∧
      (node 2 2 (port9 0)).consumes 0 5000 4 (octPort dataFrame.header) = true ∧
      (node 2 2 (port9 0)).octPortIndex (octPort dataFrame.header) false = some 511 ∧
      (node 2 2 (port9 0)).frameError { dataFrame with fcs := ~~~ dataFrame.fcs } = some 1 ∧ ((node 2 2 (port9 0)).octCh 0).poll = none) ∧
    ((node 2 2 (port9 0)).bit (stLost 4 9) = false ∨ (node 2 2 (port9 0)).bit (OCT_PSTAT_LOST.at 511) = false) ∧
    (((node 2 1 (port9 1) owing).octCh 0).answer = some asked ∧ asked.ask = .poll ∧
      asked.at_ + 1000 ≤ ((node 2 1 (port9 1) owing).advance 1000).mono ∧
      (node 2 1 (port9 1) owing).octPortIndex asked.port true = some 511 ∧ (node 2 1 (port9 1) owing).octSilent = false) ∧
    (∀ k ∈ [OctAsk.admission, .handover], ((node 2 1 [] (owed k)).octCh 0).answer = some ⟨k, 9, 3#32, 0⟩ ∧
      (node 2 1 [] (owed k)).bit OCT_STAT_IDMIS = false) ∧
    ((node 2 3 (port9 1) started).edKind 4095 = 3 ∧ (node 2 3 (port9 1) started).octActive 4095 = true ∧
      (node 2 3 (port9 1) started).edAddr 4095 = (node 2 3 (port9 1) started).octAddr ∧
      (node 2 3 (port9 1) started).octPortIndex ((node 2 3 (port9 1) started).edPort 4095) true = some 511 ∧
      (node 2 3 (port9 1) started).get OCT_OWN_RTD ≠ 4095 ∧
      (node 2 3 (port9 1) started).octT0 0 + (node 2 3 (port9 1) started).edS 4095 - (node 2 3 (port9 1) started).get OCT_OWN_RTD ≤
        ((node 2 3 (port9 1) started).advance 2000).mono ∧
      ((node 2 3 (port9 1) started).advance 2000).mono ≤
        (node 2 3 (port9 1) started).octT0 0 + (node 2 3 (port9 1) started).edS 4095 - (node 2 3 (port9 1) started).get OCT_OWN_RTD + 1000 ∧
      (node 2 3 (port9 1) started).octData 9 1 ≠ CMap.lookup (fun _ => []) (node 2 3 (port9 1) started).oct.events 9) ∧
    ((node 2 2 (port9 0)).bit (OCT_PCFG_EN.at 511) = true ∧ (node 2 2 (port9 0)).bit (OCT_PCFG_DIR.at 511) = false ∧
      CMap.lookup (fun _ => 0) (node 2 2 (port9 0)).oct.accepted 511 + (node 2 2 (port9 0)).get (OCT_PCFG_TMO.at 511) * 500000 ≤
        ((node 2 2 (port9 0)).advance 500000).mono) := by decide +kernel

theorem witness_OctetteMasterIsFoundAndLost :
    ((node 1 1).octRole = 1 ∧ (node 1 1 [(OCT_STAT_CSSTEP, 1)]).get OCT_STAT_CSSTEP = 1 ∧
      (node 1 1 [(OCT_STAT_CSSTEP, 1)]).oct.stepAt + 2000000 ≤ ((node 1 1 [(OCT_STAT_CSSTEP, 1)]).advance 2000000).mono) ∧
    ((node 1 1 [(OCT_STAT_CSSTEP, 2)]).get OCT_STAT_CSSTEP = 2 ∧
      (node 1 1 [(OCT_STAT_CSSTEP, 2)]).oct.stepAt + (node 1 1 [(OCT_STAT_CSSTEP, 2)]).octAddr * 20000 ≤ 100000) ∧
    ((node 1 1 [(OCT_STAT_CSSTEP, 4)]).get OCT_STAT_CSSTEP = 4 ∧
      (node 1 1 [(OCT_STAT_CSSTEP, 4)]).oct.frameAt + 5000000 + (node 1 1 [(OCT_STAT_CSSTEP, 4)]).octAddr * 40000 ≤ 5200000) ∧
    ((node 1 1 [(OCT_STAT_CSSTEP, 3)]).get OCT_STAT_CSSTEP = 3 ∧ (node 1 1).octEnabled 1 = true ∧
      (node 1 1 [(OCT_STAT_CSSTEP, 3)]).oct.frameAt + 4480 ≤ 4480) ∧
    ((node 2 1 [(OCT_STAT_MASTER, 7)]).octRole = 2 ∧ (node 2 1 [(OCT_STAT_MASTER, 7)]).get OCT_STAT_MASTER ≠ 0 ∧
      (node 2 1 [(OCT_STAT_MASTER, 7)]).oct.heardHand = none ∧ (node 2 1 [(OCT_STAT_MASTER, 7)]).oct.startAt + 1002000 ≤ 1002000 ∧
      (node 2 1 [(OCT_STAT_MASTER, 7)] fun b => { b with heardHand := some (0, 7) }).oct.heardHand = some (0, 7) ∧
      (node 2 1 [(OCT_STAT_MASTER, 7)]).get OCT_MCNT_COUNT = 0 ∧ (node 2 1 [(OCT_STAT_MASTER, 7)]).get OCT_MCNT_INDEX + 1 =
        (node 2 1 [(OCT_STAT_MASTER, 7)]).octM ∧
      (node 2 1 [(OCT_STAT_MASTER, 7), (OCT_CFG_MCAP, 1)]).bit OCT_CFG_MCAP = true) ∧
    ((node 3 4 [(OCT_NSTAT_ADM.at 126, 1)]).Accepts OCT_SEQ_LASTCMD 1 ∧ octAddressOk (126#7).toNat = true ∧
      (node 3 4 [(OCT_NSTAT_ADM.at 126, 1)]).bit (OCT_NSTAT_ADM.at (126#7).toNat) = true) ∧
    (node 3 4 [(OCT_ED2_GRANT.at 4095, 1), (OCT_ED2_GADDR.at 4095, 1)]).grantsOf (1#7).toNat ≠ [] := by decide +kernel

def withBrgB (f : BrgBlock → BrgBlock) (s : State := State.reset) : State := { s with brg := f s.brg }
def tagged (u : BrgUse) : State := withBrgB (fun b => { b with tags := [{ id := 3, use := u, at_ := 0 }] }) (waits (.load (.gp .lw 5) 0xC0000000))
def posted1 : PostedWrite := { serial := 0, addr := 0, pcie := 0, size := 2, seq := 1, part := 1, win := 15, at_ := 0, data := [7#32], sent := true }
def posting : State := withBrgB fun b => { b with open_ := [posted1], serial := 1 }
/-- Station descriptor 255 with an input block; route 0 from Octette's port 2 to its port 9. -/
def station255 : State :=
  st [(SYS_STAT_CFGOK, 1), (BRG_SD0_EN.at 255, 1), (BRG_SD0_INLEN.at 255, 1), (BRG_SD4_LEAD.at 255, 25), (BRG_SD3_PERD.at 255, 1), (BRG_SD4_TMO.at 255, 2)]
def routed : State :=
  { (((st [(SYS_STAT_CFGOK, 1), (BRG_RCOUNT_COUNT, 1), (stLost 4 2, 0)]).wr (bank BRG_RD0 0) (BitVec.ofNat 32 (4 + 2 * 16 + 4 * 2 ^ 16 + 9 * 2 ^ 20))).wr (bank BRG_RD1 0)
      (BitVec.ofNat 32 (2 * 2 ^ 20))).wr (bank BRG_RD2 0) 0x80000000#32 with
    brg := { State.reset.brg with arrivals := [⟨4, 2, ⟨[1#32, 2#32], 0, 0, false⟩⟩] } }
/-- The route's source is lost, its blocks all copied; zeros are due. -/
def unsourced : State := { (routed.set (stLost 4 2) 1).set ⟨bank BRG_RD2 0, 8, 1⟩ 1 with brg := State.reset.brg }
def crowded : State := { routed with brg := { State.reset.brg with arrivals := List.replicate 64 ⟨4, 2, ⟨[], 0, 0, false⟩⟩ } }

theorem witness_BridleRequestsWritesAndRoutes :
    (inMode .run).perstHigh = true ∧ (st [(BRG_STAT_LINK, 1)]).linkUp = true ∧ State.reset.brg.stores = [] ∧ State.reset.brg.waiting = [] ∧
     (State.reset.brg.tags.find? fun g => g.id == 3) = none ∧
    (((tagged (.load .cx (.gp .lw 5) 0xC0000000)).brg.tags.find? fun g => g.id == 3) = some { id := 3, use := .load .cx (.gp .lw 5) 0xC0000000, at_ := 0 } ∧
      ((tagged (.load .cx (.gp .lw 5) 0xC0000000)).coreOf .cx).wait = .load (.gp .lw 5) 0xC0000000) ∧
    ((tagged (.flush 15 0)).brg.tags.find? fun g => g.id == 3) = some { id := 3, use := .flush 15 0, at_ := 0 } ∧
    (((tagged (.config false)).brg.tags.find? fun g => g.id == 3) = some { id := 3, use := .config false, at_ := 0 } ∧
      0 + (tagged (.config false)).get BRG_CFG_CTO * 1000 ≤ ((tagged (.config false)).advance 100000000).mono) ∧
    (posting.sentIn 15 = posted1 :: [] ∧ posted1.at_ + 100000 ≤ (posting.advance 100000).mono ∧
      posting.flushing 15 posted1.serial = false ∧ posting.flushNeed 15 = true ∧ posting.mayAsk (.flush 15 0) = true) ∧
    ((tagged (.flush 15 0)).brg.waiting = [] ∧ (tagged (.flush 15 0)).brg.stores = [] ∧ posting.brg.waiting = [] ∧
      posting.brg.stores = [] ∧ posted1.sent = true) ∧
    (posting.brg.open_ = [posted1] ∧ posted1.win < 16 ∧ posting.brg.wef.length < 32 ∧
      posted1.at_ + posting.get BRG_CFG_PWLIM * 1000 ≤ (posting.advance 100000000).mono) ∧
    ((⟨0, 0xFFF00000, some 31⟩ : InboundRequest).write = some 31 ∧ (⟨0, 0xFFF00004, some 31⟩ : InboundRequest).addr ≠ 0xFFF00000) ∧
    ((st [(BRG_WnCTL_EN 15, 1)]).Accepts BRG_SEQ_LASTCMD 1 ∧ (st [(BRG_WnCTL_EN 15, 1)]).bit (BRG_WnCTL_EN 15) = true ∧
      (st [(BRG_WnCTL_EN 15, 1)]).openIn 15 = [] ∧
      (∀ w ∈ [true, false], (st [(BRG_WnCTL_EN 15, 1)]).asking (· == .config w) = false ∧
        (st [(BRG_WnCTL_EN 15, 1)]).mayAsk (.config w) = true)) ∧
    (station255.configured = true ∧ station255.bit (BRG_SD0_EN.at 255) = true ∧ station255.get (BRG_SD0_INLEN.at 255) ≠ 0 ∧
      ((station255.advance 100000).mono + station255.get (BRG_SD4_LEAD.at 255) * 1000) % 125000 = 0 ∧ station255.isExchange 255 1 = true ∧
      station255.asking (· == .station 255) = false ∧ station255.mayAsk (.station 255) = true) ∧
    (CMap.lookup (fun _ => 0) station255.brg.readAt 255 - 1 + station255.get (BRG_SD4_TMO.at 255) * 1000000 ≤
      (station255.advance 2000000).mono) ∧
    (routed.routesOf 4 2 = [0] ∧ routed.routeAllowed 0 = true ∧ routed.brg.arrivals = ⟨4, 2, ⟨[1#32, 2#32], 0, 0, false⟩⟩ :: [] ∧
      routed.routeDkind 0 = 4 ∧ routed.brg.arrivals.length < 64) ∧
    (unsourced.bit (stLost 4 2) = true ∧ (unsourced.brg.arrivals.any fun a => a.kind == 4 && a.index == 2) = false ∧
      unsourced.routeZlost 0 = true ∧ 0 ∉ unsourced.brg.zeroed ∧ unsourced.routesOf 4 2 = [0]) ∧
    (crowded.routesOf 4 2 ≠ [] ∧ 64 ≤ crowded.brg.arrivals.length) := by
  refine ⟨by decide +kernel, by decide +kernel, by decide +kernel, by decide +kernel, ?_⟩; decide +kernel
def withPairB (f : PairBlock → PairBlock) (s : State := State.reset) : State := { s with pair := f s.pair }
def partner1 (role tick : Nat) (ready : Bool) : PartnerState :=
  { slot := 1, role := role, mode := 6, ready := ready, tick := tick, psn := 0, program := 0, requests := 0, at_ := 0 }
/-- A unit of a pair in a mode and role with its cross-link current. -/
def unit (m : Mode) (role pairMode : Nat) (f : PairBlock → PairBlock := id) (l : List (Fld × Nat) := []) : State :=
  withPairB f (st ([(SYS_MODE_MODE, m.code), (PAIR_STAT_ROLE, role), (PAIR_CFG_MODE, pairMode), (PAIR_STAT_XL, 1), (PAIR_PSER_SERIAL, 77)] ++ l))
/-- A joining unit of a bounded-gap pair with its phases done so far. -/
def joining (j : PairJoin) : State := unit .resync 3 1 fun b => { b with join := some j }
/-- Output 16 has DIODEOR; the partner's request for it is off. -/
def redundant16 : State :=
  unit .run 1 1 (fun b => { b with partner := some (partner1 2 8 true) }) [(FIO_OnCFG_DIODEOR 16, 1)]
/-- A heartbeat of a serial number at a tick, with its check sequence. -/
def heartbeat (serial tick : Nat) : List Byte :=
  let d := leBytes 4 0x108 ++ leBytes 4 serial ++ List.replicate 8 0#8 ++ leBytes 4 tick ++ List.replicate 24 0#8
  d ++ leBytes 4 (crcBytes d)

theorem witness_PairHeartbeatsStateAndRoles :
    ((unit .run 1 2).pairMode ≠ 0 ∧ (heartbeat 77 9).length = 48 ∧ word32At (heartbeat 77 9) 44 = crcBytes ((heartbeat 77 9).take 44) ∧
      word32At (heartbeat 77 9) 4 = (unit .run 1 2).get PAIR_PSER_SERIAL ∧
      ((unit .run 1 2 fun b => { b with xl := { last := some 8 }, partner := some (partner1 2 8 true) }).pair.path 0).last = some 8 ∧
      after32 (word32At (heartbeat 77 9) 16) 8 = true ∧ (unit .run 1 2).role ≠ 2) ∧
    word32At (heartbeat 78 9) 4 ≠ (unit .run 1 2).get PAIR_PSER_SERIAL ∧
    ((unit .standby 2 2).crossLink = true ∧ (unit .standby 2 2).role = 2 ∧ (unit .standby 2 2).pair.join = none ∧
      (unit .standby 2 2).pairMode = 2) ∧
    ((unit .standby 2 1).crossLink = true ∧ (unit .standby 2 1).role = 2 ∧ (unit .standby 2 1).pair.join = none ∧
      (unit .standby 2 1).pairMode ≠ 2 ∧ (unit .standby 2 1).pairMode ≠ 0) ∧
    ((unit .stop 0 1 fun b => { b with partner := some (partner1 1 8 true) }).Accepts PAIR_SEQ_LASTCMD 1 ∧
      (unit .stop 0 1 fun b => { b with partner := some (partner1 1 8 true) }).mode = .stop ∧
      (unit .stop 0 1 fun b => { b with partner := some (partner1 1 8 true) }).role ≠ 3 ∧
      (unit .stop 0 1 fun b => { b with partner := some (partner1 1 8 true) }).partnerRole = 1 ∧
      (unit .stop 0 1 fun b => { b with partner := some (partner1 1 8 true) }).bit CORE_STAT_HALTED = false ∧
      (unit .stop 0 1 fun b => { b with partner := some (partner1 1 8 true) }).ocState ≠ ocArmed ∧
      (unit .stop 0 1 fun b => { b with partner := some (partner1 1 8 true) }).ocState ≠ ocSwitched ∧
      (unit .stop 0 1 fun b => { b with partner := some (partner1 1 8 true) }).ocState ≠ ocRevertArmed) ∧
    ((unit .run 1 1).role = 1 ∧ (unit .run 1 1).anyPath = true ∧ (partner1 2 8 true).ready = true ∧
      (unit .run 1 1 fun b => { b with partner := some (partner1 2 8 true) }).pair.partner = some (partner1 2 8 true) ∧
      (unit .run 1 1).get PAIR_STAT_COND = 0 ∧ (unit .run 1 1).ocState ≠ ocArmed ∧ (unit .run 1 1).ocState ≠ ocRevertArmed) ∧
    ((unit .standby 2 2).role = 2 ∧ (0 : Fin 3).val = 0 ∧ (unit .standby 2 2).pair.partner = none ∧
      (unit .standby 2 2).pair.refix = false ∧ (unit .standby 2 2).pair.join = none) ∧
    ((joining { identity := false }).pair.join = some { identity := false } ∧ (joining {}).crossLink = true ∧
      0 + 20000000 < ((joining {}).advance 20000001).mono) ∧
    ((joining { identity := true }).pair.join = some { identity := true, configuration := false } ∧
      ¬ 0 + 1000000 < ((joining { identity := true }).advance 1000000).mono) ∧
    ((joining { configuration := true, heldFrom := some 5 }).pair.join = some { configuration := true, heldFrom := some 5 } ∧
      ({ configuration := true, heldFrom := some 5 } : PairJoin).timed = false ∧
      5 + 10000000000 ≤ ((joining { configuration := true, heldFrom := some 5 }).advance 10000000005).mono ∧
      0 + 120000000000 < ((joining { configuration := true, heldFrom := some 5 }).advance 120000000001).mono) ∧
    (joining { configuration := true }).pair.join = some { configuration := true } ∧
    ((joining { configuration := true, timed := true, copied := true }).pair.join =
        some { configuration := true, timed := true, copied := true } ∧
      (joining { configuration := true, timed := true, copied := true }).allJoined = true) ∧
    ((joining { identity := true }).sys.identity = 0 ∧ (joining { identity := true }).pairMode = 1) ∧
    (redundant16.requested 16 = false ∧ redundant16.get (supplyField (groupOf 16)) ≠ 2 ∧ redundant16.bit (FIO_OnCFG_DIODEOR 16) = true ∧
      redundant16.anyPath = true ∧ redundant16.pair.partner = some (partner1 2 8 true) ∧ bitOf (partner1 2 8 true).requests 15 = false) ∧
    (4 ≤ (15 : Fin 16).val ∧ State.reset.requested 16 = false ∧ State.reset.get (supplyField (groupOf 16)) ≠ 2 ∧
      State.reset.bit (FIO_OnCFG_DIODEOR 16) = false) := by
  refine ⟨by decide +kernel, by decide +kernel, by decide +kernel, by decide +kernel, by decide +kernel, ?_⟩; decide +kernel

/-! ### Witnesses: start, SYS and BIST -/

def withSysB (f : SysBlock → SysBlock) (s : State := State.reset) : State := { s with sys := f s.sys }
def findings (a b : Fin 10) : BootFindings := { slotA := ⟨a, 1, 1, 0⟩, slotB := ⟨b, 1, 1, 0⟩, words := [], jumpers := [], slotCode := 0 }
def emptyCfg : Configuration := {}
def loadArmed : State := withSysB (fun b => { b with firmware := 1 }) (inMode .load [(GIRTH_STAT_STATE, 1)])
/-- A configuration refused because task 0 is enabled without a period. -/
def badTask : State := inMode .configure [(CYC_TnREL_EN 0, 1)]

theorem witness_StartRunsThroughItsPhases :
    ((withSysB fun b => { b with resetting := true }).sys.resetting = true ∧ State.reset.emitted = [] ∧ State.reset.recb.queue = []) ∧
    ((inMode .powerup).mode = .powerup ∧ 1000000 ≤ ((inMode .powerup).advance 1000000).mono) ∧ (State.reset.mode ≠ .powerup ∧ State.reset.bit SYS_STAT_PFAIL = false ∧ 15999 < 16000 ∧
      State.reset.wordReachable powerCyclesAt = true) ∧
    ((st [(SYS_STAT_PFAIL, 1)]).bit SYS_STAT_PFAIL = true ∧ 16800 ≤ 16800) ∧
    ((withSysB fun b => { b with supplyAt := some 5 }).sys.supplyAt = some 5 ∧
      5 + 1000000 ≤ ((withSysB fun b => { b with supplyAt := some 5 }).advance 1000005).mono) ∧
    (State.reset.mode = .boot ∧ (State.reset.advance 1).overrun = none ∧ (State.reset.advance 1).chooseSlot.2 = false ∧
      ((State.reset.advance 1).chooseSlot.1.reportSlot false (findings 0 1).slotA).2 = 0 ∧
      ((State.reset.advance 1).chooseSlot.1.reportSlot false (findings 1 0).slotA).2 ≠ 0 ∧
      (((State.reset.advance 1).chooseSlot.1.reportSlot false (findings 1 0).slotA).1.reportSlot true (findings 1 0).slotB).2 = 0 ∧
      (findings 1 9).slotA.reason ≠ 0 ∧ (findings 1 9).slotB.reason ≠ 0) ∧
    ((inMode .startTest [(MEM_STAT_DINIT, 1)]).mode = .startTest ∧ (inMode .startTest [(MEM_STAT_DINIT, 1)]).bit MEM_STAT_DINIT = true ∧
      ((inMode .startTest [(MEM_STAT_DINIT, 1)]).advance 1).overrun = none ∧ 8 ≤ (8 : Fin 14).val) ∧
    (loadArmed.mode = .load ∧ (loadArmed.advance 1).overrun = none ∧ (⟨0, 1, 1, 0⟩ : SlotCheck).reason = 0 ∧
      loadArmed.get SYS_SVN_CFG ≤ 1 ∧ loadArmed.sys.firmware = 1 ∧ emptyCfg.serial = none ∧ loadArmed.lifeCycle < 3 ∧
      (((loadArmed.advance 1).emit 0xD007 [2, 1, 1]).loadEngines emptyCfg).sys.demands.length = loadArmed.sys.demands.length) ∧
    ((⟨4, 1, 1, 0⟩ : SlotCheck).reason = 4 ∧ (⟨9, 1, 1, 0⟩ : SlotCheck).reason ≠ 0 ∧ (⟨9, 1, 1, 0⟩ : SlotCheck).reason ≠ 4) ∧
    ((inMode .configure).mode = .configure ∧ ((inMode .configure).advance 1).overrun = none ∧ ((inMode .configure).advance 1).checkConfiguration = none ∧
      (inMode .configure).get SYS_CFG_AUTO = 0) ∧
    (badTask.mode = .configure ∧ (badTask.advance 1).overrun = none ∧ (badTask.advance 1).checkConfiguration.isSome = true) ∧
    (phaseLimit State.reset.mode = some (120000000, 4) ∧ State.reset.sys.phaseAt = some 0 ∧
      0 + 120000000 < (State.reset.advance 120000001).mono) ∧
    (State.reset.bit SYS_STAT_GSIL = false ∧ 20000 ≤ 20000) := by decide +kernel

/-- A move from BLANK to MANUFACTURE with its authorisation. -/
def moving : State := withSysB (fun b => { b with authorised := true, advancing := none }) (inMode .stop [(SYS_CARG0_VALUE, 1)])
def staged1 : StagedImage := { at_ := 0, len := 8, svn := 2, pid := 3 }
def installing : State :=
  withSysB fun b => { b with job := some .install, verified := some { firmware := none, configuration := some staged1 } }
def stagingBeyond : State := withSysB fun b => { b with job := some (.stage 0 0xBFFFFFF8 16) }
def onTrial : State := inMode .stop [(SYS_STAT_TRIAL, 1), (SYS_BOOT_TRIALV, 1), (SYS_STAT_SLOT, 1)]

/-- A trial start that failed is found so after a reset, from the copies of the boot record in MRAM (15 R515, R519). -/
theorem test_boot_record_survives_reset :
    ((((onTrial.setBit SYS_BOOT_TFAIL true).saveBoot.moduleReset true).loadBoot).rd SYS_BOOT = 0x42#32) ∧
    ((((onTrial.saveBoot.setBit SYS_BOOT_TFAIL true).saveBoot.moduleReset false).loadBoot).rd SYS_BOOT = 0x42#32) := by decide +kernel

theorem witness_SysCommandsFlashAndLifeCycle :
    ((inMode .stop).Accepts SYS_SEQ_LASTCMD 1 ∧ (inMode .stop).mode = .stop ∧ (inMode .stop).cyc.pendingStart = none ∧
      (inMode .stop).bit CORE_STAT_HALTED = false) ∧
    (inMode .safe).mode = .safe ∧
    ((inMode .service).Accepts SYS_SEQ_LASTCMD 1 ∧ (inMode .service).mode = .service ∧ (inMode .service).lifeCycle ≠ 5 ∧
      (inMode .service).bit CORE_STAT_HALTED = false) ∧
    (moving.Accepts SYS_SEQ_LASTCMD 1 ∧ moving.mode = .stop ∧ moving.sys.advancing = none ∧ moving.rd SYS_CARG1 = moving.rd SYS_SER ∧
      moving.moveRefused moving.lifeCycle (moving.get SYS_CARG0_VALUE) = none) ∧
    ((inMode .stop).haltedHere = false ∧ (inMode .stop).mode ≠ .safe ∧ (inMode .stop).mode ≠ .powerup ∧ (inMode .stop).sys.job = none ∧
      (inMode .stop).bit SYS_BOOT_TRIALV = false ∧
      (withSysB (fun b => { b with verified := some {} }) (inMode .stop)).sys.verified ≠ none) ∧
    (onTrial.Accepts SYS_SEQ_LASTCMD 1 ∧ onTrial.mode.started = true ∧ onTrial.sys.job = none ∧ onTrial.bit SYS_STAT_TRIAL = true ∧
      onTrial.bit SYS_BOOT_TRIALV = true) ∧
    (installing.sys.job = some .install ∧ installing.sys.verified = some { firmware := none, configuration := some staged1 }) ∧
    (stagingBeyond.sys.job = some (.stage 0 0xBFFFFFF8 16) ∧ 0xC0000000 < 0xBFFFFFF8 + 16) ∧
    (withSysB fun b => { b with advancing := some 3 }).sys.advancing = some 3 ∧
    ((withSysB (fun b => { b with advancing := some 3 }) (st [(CORE_STAT_HALTED, 1)])).bit CORE_STAT_HALTED = true) ∧
    (withSysB fun b => { b with advancing := some 5 }).sys.advancing = some 5 := by decide +kernel

def lapping (safe : Nat) : State := withSysB (fun b => { b with lapAt := some 0 }) (st [(BIST_CFG_LAPMAX, 1), (BIST_CFG_LATESAFE, safe)])

theorem witness_SelfTestsAndPanel :
    ((inMode .stop).mode.slices = true ∧
      (withSysB (fun b => { b with exercised := true }) (inMode .stop)).sys.exercised = true) ∧
    ((lapping 1).sys.lapAt = some 0 ∧ (lapping 1).bit BIST_STAT_LATE = false ∧
      0 + (lapping 1).get BIST_CFG_LAPMAX * 3600000000000 < ((lapping 1).advance 3600000000001).mono) ∧
    ((inMode .stop).Accepts BIST_MSEQ_LASTCMD 1 ∧ (inMode .stop).mode = .stop ∧ (inMode .stop).lifeCycle = 0 ∧
      (13 : Fin 16).val ≤ 13 ∧ (inMode .stop).sys.manual = none) ∧
    (withSysB fun b => { b with manual := some 7 }).sys.manual = some 7 ∧ (withSysB fun b => { b with manual := some 13 }).sys.manual = some 13 ∧
    (inMode .powerup).sys.ledsAt = none ∧ (inMode .powerup).mode = .powerup ∧ (inMode .run).mode = .run ∧ (inMode .safe).mode = .safe := by decide +kernel

theorem witness_PeBundlesDecodeAsTheyEncode :
    (vectorDefined (.op .vnop) = true ∧ slotDefined (.scalar .snop) = true ∧ bundleAllowed (.op .vnop) (.scalar .snop) = true) ∧
    decodeBundle 0 0 = some (.op .vnop, .scalar .snop) := by decide +kernel

theorem witness_EveryStepKeepsCanonicalStores : Memory.wf State.reset.mem = true ∧ CMap.wf resetOf State.reset.regs = true ∧
    (match step { State.reset with pending := [.sramInitDone 5] } with | .next _ => true | _ => false) = true := by decide +kernel
/-! ### Values the spec gives -/

/-- The sequence example after 00 R10. -/
theorem test_mailbox_example :
    let s := st [(CYC_CMDSEQ_LASTCMD, 0xFFFE)]
    s.acceptance CYC_CMDSEQ_LASTCMD 0xFFFF = .accept ∧
    (s.set CYC_CMDSEQ_LASTCMD 0xFFFF).acceptance CYC_CMDSEQ_LASTCMD 0xFFFF = .answerAgain ∧
    (s.set CYC_CMDSEQ_LASTCMD 0xFFFF).acceptance CYC_CMDSEQ_LASTCMD 3 = .sequenceError ∧
    (s.set CYC_CMDSEQ_LASTCMD 0xFFFF).acceptance CYC_CMDSEQ_LASTCMD 0x7FFF = .sequenceError := by decide +kernel

/-- ADDI GP5, GP30, -16 is 0x08BE_FFF0 (03, the example of the formats). -/
theorem test_addi_word : wordI 2 5 30 0xFFF0 = 0x08BEFFF0#32 ∧ definedEncoding 0x08BEFFF0#32 = true ∧
    definedEncoding 0x8460FFFB#32 = true := by decide

/-- Subtracting V2 from V1 into V3 beside a load of data word 20 into S2 is 0x08C4_8000_8080_0014; LOOP 16, 12 is 0xE803_C00C (07). -/
theorem test_pe_words :
    decodeBundle 0x08C48000#32 0x80800014#32 = some (.op (.arith .vsub 3 1 2 0), .lds 2 ⟨0, 0, 20⟩) ∧
    (decodeBundle 0#32 0xE803C00C#32).map (fun p => match p.2 with | .loop _ _ => true | _ => false) = some true := by decide +kernel

/-- Tasks 3 and 10 of the example of 01 "Order of guarantees": 0.93 is refused, naming resource and claims; 0.88 passes. -/
def claims (budget10 : Nat) : State :=
  { st [(CYC_TnREL_EN 3, 1), (CYC_TnPER_PER 3, 2), (CYC_TnBUD_BUD 3, 1200), (CYC_TnREL_PART 3, 4), (CYC_TnREL_EN 10, 1), (CYC_TnPER_PER 10, 8),
      (CYC_TnBUD_BUD 10, budget10), (CYC_TnREL_PART 10, 9)] with
    sys := { State.reset.sys with parts := [{ index := 4, safety := true, lo := 0, hi := 3 }, { index := 9, safety := false, lo := 4, hi := 7 }] } }

theorem test_core_time_example :
    ((claims 4500).checkCoreTime [3, 10] [3, 10] (0, 1)).map (fun r => (r.result, r.resource, r.claimB, r.claimA)) =
      some (1, 0x0001, 0x100A, 0x1003) ∧
    (claims 4000).checkCoreTime [3, 10] [3, 10] (0, 1) = none := by decide +kernel

/-- The package of the example of 05: 40 carry-over ranges of 12 000 words, 3 image changes, 1 task, 2 sources. -/
def examplePackage : ChangePackage :=
  { base := 0, identity := 0, parts := 0, plannedNs := 0, carry := List.replicate 40 ⟨0, 0, 0, 300⟩, reverse := []
    entries := List.replicate 3 ⟨0, 0, 0, 0⟩, tasks := [⟨0, 0, 0, 0, 0, 0⟩], sources := [(0, 0), (1, 0)], vars := [] }

/-- Its switch time is 42.6 us. -/
theorem test_switch_time_example : switchTime examplePackage = 42600 := by decide +kernel

/-- Signed corners: the most negative number divided by -1 wraps, remainders take the dividend's sign (03 R93). -/
theorem test_division_corners : intResult .div 0x80000000#32 0xFFFFFFFF#32 0 = some 0x80000000#32 ∧
    intResult .rem 0xFFFFFFF9#32 2#32 0 = some 0xFFFFFFFF#32 ∧ intResult .div 0xFFFFFFF9#32 2#32 0 = some 0xFFFFFFFD#32 := by decide

/-- binary32: 1 + 1 = 2 without a flag; 0 / 0 raises one (03 R96, R97). -/
theorem test_float_values :
    (fpResult .fadd false .nearest 0x3F800000#64 0x3F800000#64 0 0).flags = 0 ∧
    (fpResult .fdiv false .nearest 0#64 0#64 0 0).flags ≠ 0 ∧
    (match fpResult .fadd false .nearest 0x3F800000#64 0x3F800000#64 0 0 with | .fp b _ => b % 2 ^ 32 | _ => 0) = 0x40000000 := by decide +kernel

/-- The check bits correct one wrong bit and detect two (04 R134). -/
theorem test_ecc : (match classify (encodeWord 0x12345678#32 ^^^ mword false 0#7 0x100#32) with | .written d c _ => (d, c) | _ => (0, false)) =
      (0x12345678#32, true) ∧
    classify (encodeWord 0x12345678#32 ^^^ mword false 0#7 0x101#32) = .uncorrectable := by decide +kernel

/-- CRC-32C of "123456789" is 0xE306_9283 (the check value of the polynomial 09 R321 names). -/
theorem test_crc : crc32c [49, 50, 51, 52, 53, 54, 55, 56, 57] = 0xE3069283 := by decide +kernel

/-- The zero and span example of 10: OFFS -120 uA and a reading 20.280 mA are corrected to 20 160 uA. -/
theorem test_loop_correction : (st [(ALP_CHnTRIM_OFFS 3, patternOf 16 (-120))]).loopCorrected 3 20280 = 20160 := by decide +kernel

/-- An event leaves for REC and becomes record 1 (09 R318, R319). -/
theorem test_event_record :
    (match Machine.exec (.recEventReceive 5) emitting with | .next t => t.recb.queue.map fun r => (r.number, r.code) | _ => []) =
      [(1, 0x2001)] := by decide +kernel

/-- A command at the front of the queue runs, the rest stays. -/
theorem test_step_queue :
    (match step { State.reset with pending := [.monoRead 7, .dispRead] } with | .next t => (t.pending, t.busData) | _ => ([], 0)) =
      ([.dispRead], 7#32) := by decide +kernel

end Sys2Proof.Tests
end

section
/-!
SUPPORT. The check code is linear (04 R134, R135): what correction makes of a written word with an error (for O13).
-/

namespace Sys2Proof.Machine.SharedMemory

theorem checkFold_xor (l : List Nat) (a b : Nat) : checkFold l (a ^^^ b) = checkFold l a ^^^ checkFold l b := by
  induction l generalizing a b with
  | nil => exact (Nat.xor_self 0).symm
  | cons h t ih =>
    have hcol : (if (a ^^^ b) % 2 = 1 then h else 0) = (if a % 2 = 1 then h else 0) ^^^ (if b % 2 = 1 then h else 0) := by
      simp only [Nat.mod_two_eq_one_iff_testBit_zero, Nat.testBit_xor]
      cases a.testBit 0 <;> cases b.testBit 0 <;>
        simp only [Bool.xor_self, Bool.xor_false, Bool.false_xor, Bool.false_eq_true, if_true, if_false, Nat.xor_self,
          Nat.xor_zero, Nat.zero_xor]
    calc checkFold (h :: t) (a ^^^ b)
        = (if (a ^^^ b) % 2 = 1 then h else 0) ^^^ checkFold t ((a ^^^ b) / 2) := rfl
      _ = ((if a % 2 = 1 then h else 0) ^^^ (if b % 2 = 1 then h else 0)) ^^^ (checkFold t (a / 2) ^^^ checkFold t (b / 2)) := by
          rw [hcol, Nat.xor_div_two, ih]
      _ = ((if a % 2 = 1 then h else 0) ^^^ checkFold t (a / 2)) ^^^ ((if b % 2 = 1 then h else 0) ^^^ checkFold t (b / 2)) := by
          ac_rfl
      _ = checkFold (h :: t) a ^^^ checkFold (h :: t) b := rfl

theorem checkBits_xor (a b : Word) : checkBits (a ^^^ b) = checkBits a ^^^ checkBits b := by
  unfold checkBits
  rw [BitVec.toNat_xor, checkFold_xor, BitVec.ofNat_xor]

@[simp] theorem v_mword (v : Bool) (c : BitVec 7) (d : Word) : MWord.v (mword v c d) = v := by
  unfold MWord.v mword
  rw [BitVec.getLsbD_append, BitVec.getLsbD_append]
  cases v <;> rfl

@[simp] theorem d_mword (v : Bool) (c : BitVec 7) (d : Word) : MWord.d (mword v c d) = d :=
  BitVec.extractLsb'_append_eq_right

@[simp] theorem c_mword (v : Bool) (c : BitVec 7) (d : Word) : MWord.c (mword v c d) = c :=
  (BitVec.extractLsb'_append_eq_of_le (Nat.le_refl 32)).trans BitVec.extractLsb'_append_eq_right

theorem v_xor (w e : MWord) : MWord.v (w ^^^ e) = (MWord.v w ^^ MWord.v e) := BitVec.getLsbD_xor

theorem c_xor (w e : MWord) : MWord.c (w ^^^ e) = MWord.c w ^^^ MWord.c e := BitVec.extractLsb'_xor

theorem d_xor (w e : MWord) : MWord.d (w ^^^ e) = MWord.d w ^^^ MWord.d e := BitVec.extractLsb'_xor

theorem syndrome_xor (w e : MWord) : syndrome (w ^^^ e) = syndrome w ^^^ syndrome e := by
  unfold syndrome
  rw [← BitVec.toNat_xor, c_xor, d_xor, checkBits_xor]
  congr 1
  ac_rfl

theorem syndrome_encodeWord (d : Word) : syndrome (encodeWord d) = 0 := by
  unfold syndrome encodeWord
  rw [c_mword, d_mword, BitVec.xor_self]; rfl

/-- Correction of a written word with an error `e` is correction of `e`, laid over the word's data. -/
theorem correctedData_encodeWord_xor (d : Word) (e : MWord) :
    correctedData (encodeWord d ^^^ e) = (correctedData e).map fun r => (d ^^^ r.1, r.2) := by
  have hd : MWord.d (encodeWord d ^^^ e) = d ^^^ MWord.d e := by rw [d_xor, encodeWord, d_mword]
  unfold correctedData
  rw [syndrome_xor, syndrome_encodeWord, Nat.zero_xor, hd]
  dsimp only
  split
  · rfl
  · split
    · rw [Option.map_some, BitVec.xor_assoc]
    · split <;> rfl

/-- A word with V = 1 that the code corrects is no poison marker: the marker's syndrome is uncorrectable. -/
theorem classify_of_corrected {w : MWord} {d : Word} {fixed : Bool} (hv : MWord.v w = true)
    (hc : correctedData w = some (d, fixed)) : classify w = .written d fixed false := by
  have hp : w ≠ poisonMarker := by
    rintro rfl
    rw [show correctedData poisonMarker = none by decide] at hc
    cases hc
  simp only [classify, hv, hp, hc, if_true, if_false]

/-- The code corrects every error of one bit in D or C. -/
theorem correctedData_one_bit : ∀ i < 39, correctedData (BitVec.ofNat 40 (2 ^ i)) = some (0, true) := by decide

theorem v_one_bit : ∀ i < 39, MWord.v (BitVec.ofNat 40 (2 ^ i)) = false := by decide

theorem classify_encodeWord_xor (d : Word) (e : MWord) (fixed : Bool) (hv : MWord.v e = false)
    (he : correctedData e = some (0, fixed)) : classify (encodeWord d ^^^ e) = .written d fixed false := by
  apply classify_of_corrected
  · rw [v_xor, hv, encodeWord, v_mword]; rfl
  · rw [correctedData_encodeWord_xor, he]; exact congrArg (fun x => some (x, fixed)) BitVec.xor_zero

theorem classify_encodeWord (d : Word) : classify (encodeWord d) = .written d false false := by
  have := classify_encodeWord_xor d 0#40 false (by decide) (by decide)
  rwa [BitVec.xor_zero] at this

end Sys2Proof.Machine.SharedMemory
end

section
/-!
SUPPORT. Words written and read (04 R138, R154, R158); a written word reads back (O13).
-/

namespace Sys2Proof.Machine.SharedMemory

/-! ### Stored words: what leaves them, what writes them -/

theorem stored_congr {s t : State} (h : t.mem = s.mem) (k : Nat) : t.stored k = s.stored k := by
  unfold State.stored; rw [h]

/-- Marking a block for the partner changes PAIR's own state only. -/
theorem markBlock_cases (s : State) (k : Nat) : ∃ p, s.markBlock k = { s with pair := p } := by
  unfold State.markBlock
  dsimp only
  split <;> split <;> exact ⟨_, rfl⟩

@[simp] theorem markBlock_mem (s : State) (k : Nat) : (s.markBlock k).mem = s.mem := by
  obtain ⟨_, h⟩ := markBlock_cases s k; rw [h]

@[simp] theorem markBlock_memb (s : State) (k : Nat) : (s.markBlock k).memb = s.memb := by
  obtain ⟨_, h⟩ := markBlock_cases s k; rw [h]

@[simp] theorem showPoison_mem (s : State) : s.showPoison.mem = s.mem := by
  unfold State.showPoison; split <;> rfl

@[simp] theorem queuePoison_mem (s : State) (k m : Nat) : (s.queuePoison k m).mem = s.mem := by
  unfold State.queuePoison
  split
  · rfl
  · exact showPoison_mem _

/-- A poisoned word holds the poison marker. -/
theorem stored_poison (s : State) (k m code : Nat) (vals : List Nat) : (s.poison k m code vals).stored k = poisonMarker := by
  have hmem : (s.poison k m code vals).mem = ((s.cancelWriteback k).store k poisonMarker).mem := by
    rw [State.poison, queuePoison_mem, State.emit_mem, State.inc_mem]
  rw [stored_congr hmem, State.stored_store, if_pos rfl]

/-- With no flip mask armed on it, a word is written as it is given. -/
theorem putWord_of_unarmed {s : State} {k : Nat} (hflip : s.memb.flip ≠ some k) (w : MWord) :
    s.putWord k w = ((s.cancelWriteback k).markBlock k).store k w :=
  if_neg (by rw [markBlock_memb]; exact hflip)

theorem stored_writeWord_of_unarmed {s : State} {k : Nat} (hflip : s.memb.flip ≠ some k) (d : Word) (j : Nat) :
    (s.writeWord k d).stored j = if j = k then encodeWord d else s.stored j := by
  have hmark : ((s.cancelWriteback k).markBlock k).stored j = s.stored j := stored_congr (markBlock_mem ..) j
  rw [State.writeWord, putWord_of_unarmed hflip, State.stored_store, hmark]

theorem merge_writeWord_of_unarmed {s : State} {k : Nat} (hflip : s.memb.flip ≠ some k) (d : Word) :
    (s.writeWord k d).memb.merge = s.memb.merge := by
  have hmark : ((s.cancelWriteback k).markBlock k).memb.merge = s.memb.merge := by rw [markBlock_memb]; rfl
  rw [State.writeWord, putWord_of_unarmed hflip]
  exact hmark

/-! ### Reads -/

theorem flushWord_of_notMerged {s : State} {k : Nat} (h : s.NotMerged k) : s.flushWord k = s := by
  have hnone : s.memb.merge.filter (fun e => e.key == k) = [] :=
    List.filter_eq_nil_iff.mpr fun e he hk => h e he (eq_of_beq hk)
  unfold State.flushWord State.flushWhere
  rw [hnone, List.foldl_nil]

/-- A word without error and without bytes in the merge buffer is read as it stands, by every reader. -/
theorem readWord_of_written {s : State} {k : Nat} {d : Word} {v : Bool} (hm : s.NotMerged k)
    (hc : classify (s.stored k) = .written d false v) (r : Reader) : s.readWord k r = (s, .data d) := by
  unfold State.readWord
  simp only [flushWord_of_notMerged hm, hc, State.when_false]

/-- Settles O13: the check code is linear, so that an error of one bit is corrected whatever the data; a write without the
flip mask stores the encoded word, and a read of it finds no error. -/
theorem writtenWordReadsBack : Obligations.WrittenWordReadsBack := by
  unfold Obligations.WrittenWordReadsBack
  refine ⟨classify_encodeWord, fun d i hi => ?_, fun s k d r hm hflip => ⟨?_, fun j hj => ?_⟩⟩
  · exact classify_encodeWord_xor d _ true (v_one_bit i hi) (correctedData_one_bit i hi)
  · have hmerge : (s.writeWord k d).NotMerged k := by
      rw [State.NotMerged, merge_writeWord_of_unarmed hflip]; exact hm
    have hclass : classify ((s.writeWord k d).stored k) = .written d false false := by
      rw [stored_writeWord_of_unarmed hflip, if_pos rfl, classify_encodeWord]
    rw [readWord_of_written hmerge hclass]
  · rw [stored_writeWord_of_unarmed hflip, if_neg hj]

end Sys2Proof.Machine.SharedMemory
end

section
/-!
SUPPORT. The end of a code refetch (04 R152; O20).
-/

namespace Sys2Proof.Machine.SharedMemory

@[simp] theorem advance_coreOf (s : State) (t : Nat) (c : Master) : (s.advance t).coreOf c = s.coreOf c := by
  cases c
  case cx => exact s.advance_cx t
  case sc0 => exact s.advance_sc0 t
  case sc1 => exact s.advance_sc1 t

@[simp] theorem emit_coreOf (s : State) (code : Nat) (vals : List Nat) (c : Master) :
    (s.emit code vals).coreOf c = s.coreOf c := by
  cases c
  case cx => exact s.emit_cx code vals
  case sc0 => exact s.emit_sc0 code vals
  case sc1 => exact s.emit_sc1 code vals

theorem coreOf_onCore_cx (s : State) {c : Master} (h : c ≠ .cx) (f : CoreState → CoreState) :
    (s.onCore .cx f).coreOf c = s.coreOf c := by
  cases c
  case cx => exact absurd rfl h
  all_goals rfl

@[simp] theorem advance_stored (s : State) (t k : Nat) : (s.advance t).stored k = s.stored k :=
  stored_congr (s.advance_mem t) k

@[simp] theorem advance_flashWord (s : State) (t off : Nat) : (s.advance t).flashWord off = s.flashWord off := by
  rw [State.flashWord, State.advance_flash]; rfl

@[simp] theorem advance_flashErased (s : State) (t off : Nat) : (s.advance t).flashErased off = s.flashErased off := by
  rw [State.flashErased, State.advance_flash]; rfl

/-- Events of MEM leave the masters' DRAM banks. -/
theorem emit_dramBank (s : State) (vals : List Nat) (c : Master) : (s.emit 0x2003 vals).dramBank c = s.dramBank c := by
  cases c
  all_goals exact s.emit_get 0x2003 vals _ (by decide)

/-- What a refetch of word `k` from flash leaves: the word stored with new check bits, every other word, the refetches still in progress,
the cores and their DRAM banks as they were. -/
structure Refetched (k : Nat) (d : Word) (s t : State) : Prop where
  word : t.stored k = encodeWord d
  others : ∀ j, j ≠ k → t.stored j = s.stored j
  queue : t.memb.refetch = s.memb.refetch
  cores : ∀ c, t.coreOf c = s.coreOf c
  banks : ∀ c, t.dramBank c = s.dramBank c

/-- A refetch whose flash word is readable and whose page is not erased gives the word. -/
theorem refetch_readable (s : State) (k n m : Nat)
    (hbad : s.flashBad.contains (s.imageOffset k n - s.imageOffset k n % 4) = false)
    (herased : s.flashErased (s.imageOffset k n) = false) :
    ∃ t, s.refetch k n m = (t, some (s.flashWord (s.imageOffset k n))) ∧
      Refetched k (s.flashWord (s.imageOffset k n)) s t := by
  refine ⟨_, if_neg (by simp only [hbad, herased, Bool.or_self]; decide), ?_⟩
  constructor
  case word => rw [stored_congr (State.emit_mem ..), State.stored_store, if_pos rfl]
  case others =>
    intro j hj
    rw [stored_congr (State.emit_mem ..), State.stored_store, if_neg hj]
    rfl
  case queue => rw [State.emit_memb]; rfl
  case cores => intro c; rw [emit_coreOf]; cases c <;> rfl
  case banks => intro c; rw [emit_dramBank]; cases c <;> rfl

/-- The oldest refetch ends well: its word is restored, then each core that waits for it goes on. -/
theorem endRefetch_readable {s : State} {r : Refetch} {rest : List Refetch} (bad : BitVec 2)
    (hq : s.memb.refetch = r :: rest) (hc : classify (s.stored r.key) = .uncorrectable)
    (hbad : s.flashBad.contains (s.imageOffset r.key r.region - s.imageOffset r.key r.region % 4) = false)
    (herased : s.flashErased (s.imageOffset r.key r.region) = false) :
    ∃ t, Refetched r.key (s.flashWord (s.imageOffset r.key r.region)) (s.withMem fun m => { m with refetch := rest }) t ∧
      s.endRefetch bad = ((t.resumeWord r.key bad .cx).resumeWord r.key bad .sc0).resumeWord r.key bad .sc1 := by
  obtain ⟨t, ht, hr⟩ := refetch_readable (s.withMem fun m => { m with refetch := rest }) r.key r.region 0 hbad herased
  have hc' : classify ((s.withMem fun m => { m with refetch := rest }).stored r.key) = .uncorrectable := hc
  refine ⟨t, hr, ?_⟩
  unfold State.endRefetch
  simp only [hq, hc', ht, List.foldl_cons, List.foldl_nil]

theorem resumeWord_of_not_waiting {s : State} {c : Master} (h : (s.coreOf c).wait = .none) (k : Nat) (bad : BitVec 2) :
    s.resumeWord k bad c = s := by
  simp only [State.resumeWord, h]

theorem resumeWord_of_fetch {s : State} {c : Master} {a k : Nat} (h : (s.coreOf c).wait = .fetch a)
    (hk : memoryKey (s.dramBank c) a = some k) (bad : BitVec 2) :
    s.resumeWord k bad c = s.onCore c fun x => { x with wait := .none } := by
  simp only [State.resumeWord, h, hk, if_true]

/-- Settles O20: the refetch restores the word; a core that waits for nothing is passed over, the complex that waits to fetch the word
goes on. -/
theorem codeRefetchRestoresTheWord : Obligations.CodeRefetchRestoresTheWord := by
  unfold Obligations.CodeRefetchRestoresTheWord
  intro n s r rest hq hc off
  have restored (hbad : s.flashBad.contains (off - off % 4) = false) (herased : s.flashErased off = false) :
      ∃ t, Refetched r.key (s.flashWord off) ((s.advance n.t).withMem fun m => { m with refetch := rest }) t ∧
        exec (.codeRefetchComplete n) s =
          .next (((t.resumeWord r.key n.bad .cx).resumeWord r.key n.bad .sc0).resumeWord r.key n.bad .sc1) := by
    obtain ⟨t, ht, hend⟩ := endRefetch_readable (s := s.advance n.t) n.bad (by rw [State.advance_memb, hq])
      (by rw [advance_stored, hc]) (by rw [State.advance_flashBad, hbad]) (by rw [advance_flashErased, herased])
    exact ⟨t, by rwa [advance_flashWord] at ht, congrArg Host.Outcome.next hend⟩
  have idle {t : State} {d : Word} (ht : Refetched r.key d ((s.advance n.t).withMem fun m => { m with refetch := rest }) t)
      (c : Master) (hw : (s.coreOf c).wait = .none) : (t.coreOf c).wait = .none := by
    rw [ht.cores, State.coreOf_withMem, advance_coreOf, hw]
  constructor
  · rintro ⟨hbad, herased, hwait⟩
    obtain ⟨t, ht, hexec⟩ := restored hbad herased
    have hidle := fun c => resumeWord_of_not_waiting (idle ht c (hwait c)) r.key n.bad
    rw [hidle, hidle, hidle] at hexec
    refine ⟨t, hexec, ht.word, ht.queue, fun j hj => ?_⟩
    rw [ht.others j hj]
    exact advance_stored s n.t j
  · rintro ⟨hbad, herased, hwait, hkey, hsc0, hsc1⟩
    obtain ⟨t, ht, hexec⟩ := restored hbad herased
    have hfetch : (t.coreOf .cx).wait = .fetch s.cx.pc.toNat := by
      rw [ht.cores, State.coreOf_withMem, advance_coreOf]; exact hwait
    have hbank : memoryKey (t.dramBank .cx) s.cx.pc.toNat = some r.key := by rw [ht.banks]; exact hkey
    have hothers (c : Master) (hc : c ≠ .cx) (hw : (s.coreOf c).wait = .none) :
        ((t.onCore .cx fun x => { x with wait := .none }).coreOf c).wait = .none := by
      rw [coreOf_onCore_cx _ hc]; exact idle ht c hw
    rw [resumeWord_of_fetch hfetch hbank, resumeWord_of_not_waiting (hothers .sc0 (by decide) hsc0),
      resumeWord_of_not_waiting (hothers .sc1 (by decide) hsc1)] at hexec
    exact ⟨_, hexec, ht.word, rfl⟩

end Sys2Proof.Machine.SharedMemory
end

section
/-!
SUPPORT. The write-back of a queued correction that is itself uncorrectable (04 R139, R140; O18).
-/

namespace Sys2Proof.Machine.SharedMemory

/-- An uncorrectable word that the reread gives, outside every CODE region, ends as the poison marker. -/
theorem stored_reread_uncorrectable {s : State} {k : Nat} {w : MWord} (hc : classify w = .uncorrectable)
    (hregion : s.codeRegion k = none) : (s.reread k w).stored k = poisonMarker := by
  have hbit : hardBit w = none := by simp only [hardBit, hc]
  have hregion' : (s.store k w).codeRegion k = none := hregion
  unfold State.reread State.handleUncorrectable
  simp only [hbit, hc, if_true, hregion', stored_poison]

theorem stored_writeBack_uncorrectable {s : State} {k : Nat} {w : MWord} {rest : List (Nat × MWord)}
    (hq : s.memb.wback = (k, w) :: rest) (hc : classify w = .uncorrectable) (hregion : s.codeRegion k = none) :
    (writeBack w s).stored k = poisonMarker := by
  have hregion' : ((s.withMem fun m => { m with wback := rest }).store k w).codeRegion k = none := hregion
  simp only [writeBack, hq]
  exact stored_reread_uncorrectable hc hregion'

/-- Two wrong data bits of a written 0. -/
def twoBitError : MWord := mword true 0#7 3#32

/-- The state after reset with a word of two wrong bits queued as the correction of SRAM word 0. -/
def queuedBadCorrection : State := State.reset.withMem fun m => { m with wback := [(0, twoBitError)] }

/-- Refutes O18: its clause for CORRECTION_WRITEBACK takes every stored word as the queued correction. With a word of two wrong bits
queued and given by the reread, the reread finds it uncorrectable and the word is poisoned, not left stored. The clause lacks the
hypothesis that the queued word is without error, as those that `noteCorrection` is given are. -/
theorem not_memoryCommandsDoTheirWork : ¬ Obligations.MemoryCommandsDoTheirWork := by
  unfold Obligations.MemoryCommandsDoTheirWork
  rintro ⟨-, hwriteback, -⟩
  obtain ⟨t, hexec, -, hstored, -⟩ := hwriteback 0 0 twoBitError [] queuedBadCorrection rfl
  have ht : writeBack twoBitError queuedBadCorrection = t := Host.Outcome.next.inj hexec
  have hpoison : t.stored 0 = poisonMarker := by
    rw [← ht]
    exact stored_writeBack_uncorrectable rfl (by decide) (by decide +kernel)
  exact absurd (hstored.symm.trans hpoison) (by decide)

end Sys2Proof.Machine.SharedMemory
end

section
/-!
SUPPORT. The flip mask on the disturbance ring (04 R158; 09 R329; O19).
-/

namespace Sys2Proof.Machine.SharedMemory

open Reg

/-- FLIP_ARM arms exactly on an address that names a word, that of the disturbance ring included. -/
theorem armFlip_bit_arm (s : State) :
    s.armFlip.bit MEM_FLIPCTL_ARM = (addressKey (s.get MEM_DBANK_CX) (s.get MEM_FLIPA_VALUE)).isSome := by
  unfold State.armFlip State.bit
  split
  · next k hk => rw [hk, State.withMem_get, State.setBit, State.get_set _ _ _ (by decide)]; rfl
  · next hk =>
    rw [hk, State.withMem_get, State.setBit, State.get_set_other _ _ _ _ (by decide), State.setBit,
      State.get_set _ _ _ (by decide)]
    rfl

/-- The state after reset with bank 2 selected for the complex and MEM_FLIPA at the first word of the disturbance ring. -/
def flipAtRing : State := (State.reset.set MEM_DBANK_CX 2).set MEM_FLIPA_VALUE 0xA0000000

/-- Refutes O19: where `memoryKey` names no word the statement has FLIP_ARM refuse, but FLIP_ARM asks `addressKey`, which also names the
words of the disturbance ring in DRAM bank 2, inside the DRAM window. There the mask is armed. -/
theorem not_flipClearAndPoisonQueue : ¬ Obligations.FlipClearAndPoisonQueue := by
  unfold Obligations.FlipClearAndPoisonQueue
  rintro ⟨harm, -⟩
  obtain ⟨t, hexec, hnot, -⟩ := (harm flipAtRing).2 (by decide +kernel)
  have ht : flipAtRing.armFlip = t := Host.Outcome.next.inj hexec
  have hon : t.bit MEM_FLIPCTL_ARM = true := by
    rw [← ht, armFlip_bit_arm]; decide +kernel
  rw [hnot] at hon
  contradiction

end Sys2Proof.Machine.SharedMemory
end


section
/-!
SUPPORT. PE's words decode as they encode (07 R244 to R252, R255; O58): the fields of a word, one lemma per format of the encoding
tables, the round trip of each slot both ways.
-/

namespace Sys2Proof.Machine.PeEncoding

/-! ### What reads a field -/

theorem reg4_eq_iff {w lo : Nat} {r : PeReg} : reg4 w lo = r ↔ w / 2 ^ lo % 16 = r.val := Fin.ext_iff

theorem reg3_eq_iff {w lo : Nat} {r : Fin 8} : reg3 w lo = r ↔ w / 2 ^ lo % 8 = r.val := Fin.ext_iff

theorem lane2_eq_iff {w lo : Nat} {r : Fin 4} : lane2 w lo = r ↔ w / 2 ^ lo % 4 = r.val := Fin.ext_iff

theorem ofNat_eq_iff {n w : Nat} {b : BitVec n} : BitVec.ofNat n w = b ↔ w % 2 ^ n = b.toNat := by
  rw [← BitVec.toNat_inj, BitVec.toNat_ofNat]

theorem bit_eq_iff {w lo : Nat} {b : Bool} : (w / 2 ^ lo % 2 == 1) = b ↔ w / 2 ^ lo % 2 = b.toNat := by
  cases b
  · simp only [beq_eq_false_iff_ne, Bool.toNat_false]; omega
  · simp only [beq_iff_eq, Bool.toNat_true]

theorem zeroBits_iff {w lo n : Nat} : zeroBits w lo n = true ↔ w / 2 ^ lo % 2 ^ n = 0 := beq_iff_eq

theorem condOf_eq_some_iff {n : Nat} {c : PeCond} : condOf n = some c ↔ n = condCode c := by
  unfold condOf
  split <;> cases c <;> simp [condCode] <;> omega

theorem condCode_lt (c : PeCond) : condCode c < 6 := by cases c <;> decide

theorem memOf_eq_iff {w : Nat} {m : PeMem} :
    memOf w = m ↔ w / 2 ^ 18 % 16 = m.xs.val ∧ w / 2 ^ 16 % 4 = m.space.val ∧ w % 2 ^ 16 = m.off.toNat := by
  obtain ⟨xs, space, off⟩ := m
  simp only [memOf, PeMem.mk.injEq, reg4_eq_iff, lane2_eq_iff, ofNat_eq_iff]

theorem memOf_off_even (w : Nat) : (memOf w).off.toNat % 2 = w % 2 := by
  obtain ⟨-, -, hoff⟩ := memOf_eq_iff.mp (rfl : memOf w = memOf w)
  omega

theorem ofNat_bne_zero (w : Nat) : (BitVec.ofNat 14 w != 0) = !zeroBits w 0 14 := by
  rw [bne, Bool.not_inj_iff, Bool.eq_iff_iff, beq_iff_eq, zeroBits_iff, ofNat_eq_iff]
  simp

theorem reg4_beq_zero (w lo : Nat) : ((reg4 w lo).val == 0) = zeroBits w lo 4 := rfl

theorem reg4_lt_eight (w : Nat) : decide ((reg4 w 10).val < 8) = zeroBits w 13 1 := by
  rw [Bool.eq_iff_iff, decide_eq_true_iff, zeroBits_iff]
  show w / 2 ^ 10 % 16 < 8 ↔ _
  omega

/-! ### Fields laid into a word -/

/-- Fields added to a word, each at its lowest bit: the sum of `peFields`, with one rule per list constructor. -/
def place (w : Nat) (fields : List (Nat × Nat)) : Nat := fields.foldl (fun w f => w + f.1 * 2 ^ f.2) w

theorem place_nil (w : Nat) : place w [] = w := by rw [place, List.foldl_nil]

theorem place_cons (w v lo : Nat) (fields : List (Nat × Nat)) :
    place w ((v, lo) :: fields) = place (w + v * 2 ^ lo) fields := by rw [place, List.foldl_cons, place]

theorem peFields_eq_place (op : Nat) (fields : List (Nat × Nat)) : peFields op fields = place (op * 2 ^ 26) fields := by
  rw [peFields, place]

/-! ### The formats: a word is its fields exactly where each reads back and the bits between them are 0 -/

section

variable {w op : Nat} {a b c d : PeReg} {f g h : Fin 8} {e : PeCond} {l : Fin 4} {m : PeMem} {imm : BitVec 14}

theorem fields_none : peFields op [] = w ↔ w / 2 ^ 26 = op ∧ zeroBits w 0 26 = true := by
  simp only [peFields_eq_place, place_nil, zeroBits_iff]
  omega

/-- The word of VNOP and of SNOP. -/
theorem zero_eq_iff : 0 = w ↔ w / 2 ^ 26 = 0 ∧ zeroBits w 0 26 = true := by
  rw [zeroBits_iff]; omega

theorem fields_rrrr : peFields op [(a.val, 22), (b.val, 18), (c.val, 14), (d.val, 10)] = w ↔
    w / 2 ^ 26 = op ∧ reg4 w 22 = a ∧ reg4 w 18 = b ∧ reg4 w 14 = c ∧ reg4 w 10 = d ∧ zeroBits w 0 10 = true := by
  simp only [peFields_eq_place, place_cons, place_nil, reg4_eq_iff, zeroBits_iff]
  omega

theorem fields_perm {sel : BitVec 8} : peFields op [(a.val, 22), (b.val, 18), (sel.toNat, 2)] = w ↔
    w / 2 ^ 26 = op ∧ reg4 w 22 = a ∧ reg4 w 18 = b ∧ BitVec.ofNat 8 (w / 4) = sel ∧ zeroBits w 10 8 = true ∧
      zeroBits w 0 2 = true := by
  simp only [peFields_eq_place, place_cons, place_nil, reg4_eq_iff, ofNat_eq_iff, zeroBits_iff]
  omega

theorem fields_rr : peFields op [(a.val, 22), (b.val, 18)] = w ↔
    w / 2 ^ 26 = op ∧ reg4 w 22 = a ∧ reg4 w 18 = b ∧ zeroBits w 0 18 = true := by
  simp only [peFields_eq_place, place_cons, place_nil, reg4_eq_iff, zeroBits_iff]
  omega

theorem fields_lane : peFields op [(a.val, 22), (b.val, 18), (l.val, 10)] = w ↔
    w / 2 ^ 26 = op ∧ reg4 w 22 = a ∧ reg4 w 18 = b ∧ lane2 w 10 = l ∧ zeroBits w 12 6 = true ∧ zeroBits w 0 10 = true := by
  simp only [peFields_eq_place, place_cons, place_nil, reg4_eq_iff, lane2_eq_iff, zeroBits_iff]
  omega

theorem fields_vcmp {all : Bool} {mask : BitVec 4} :
    peFields op [(f.val, 23), (all.toNat, 22), (a.val, 18), (b.val, 14), (mask.toNat, 10), (condCode e, 7)] = w ↔
    w / 2 ^ 26 = op ∧ reg3 w 23 = f ∧ (w / 2 ^ 22 % 2 == 1) = all ∧ reg4 w 18 = a ∧ reg4 w 14 = b ∧
      BitVec.ofNat 4 (w / 2 ^ 10) = mask ∧ condOf (w / 2 ^ 7 % 8) = some e ∧ zeroBits w 0 7 = true := by
  have := condCode_lt e
  have := all.toNat_lt
  simp only [peFields_eq_place, place_cons, place_nil, reg4_eq_iff, reg3_eq_iff, bit_eq_iff, ofNat_eq_iff, condOf_eq_some_iff,
    zeroBits_iff]
  omega

theorem fields_mem : peFields op ((a.val, 22) :: memFields m) = w ↔ w / 2 ^ 26 = op ∧ reg4 w 22 = a ∧ memOf w = m := by
  simp only [peFields_eq_place, memFields, place_cons, place_nil, reg4_eq_iff, memOf_eq_iff]
  omega

theorem fields_rrr : peFields op [(a.val, 22), (b.val, 18), (c.val, 14)] = w ↔
    w / 2 ^ 26 = op ∧ reg4 w 22 = a ∧ reg4 w 18 = b ∧ reg4 w 14 = c ∧ zeroBits w 0 14 = true := by
  simp only [peFields_eq_place, place_cons, place_nil, reg4_eq_iff, zeroBits_iff]
  omega

theorem fields_shift {n : Nat} (hn : n < 32) : peFields op [(a.val, 22), (b.val, 18), (n, 0)] = w ↔
    w / 2 ^ 26 = op ∧ reg4 w 22 = a ∧ reg4 w 18 = b ∧ w % 32 = n ∧ zeroBits w 5 13 = true := by
  simp only [peFields_eq_place, place_cons, place_nil, reg4_eq_iff, zeroBits_iff]
  omega

theorem fields_rri : peFields op [(a.val, 22), (b.val, 18), (imm.toNat, 0)] = w ↔
    w / 2 ^ 26 = op ∧ reg4 w 22 = a ∧ reg4 w 18 = b ∧ BitVec.ofNat 14 w = imm ∧ zeroBits w 14 4 = true := by
  simp only [peFields_eq_place, place_cons, place_nil, reg4_eq_iff, ofNat_eq_iff, zeroBits_iff]
  omega

theorem fields_slih {i : BitVec 18} : peFields op [(a.val, 22), (i.toNat, 0)] = w ↔
    w / 2 ^ 26 = op ∧ reg4 w 22 = a ∧ BitVec.ofNat 18 w = i ∧ zeroBits w 18 4 = true := by
  simp only [peFields_eq_place, place_cons, place_nil, reg4_eq_iff, ofNat_eq_iff, zeroBits_iff]
  omega

theorem fields_cmp : peFields op [(f.val, 23), (a.val, 18), (b.val, 14), (condCode e, 11)] = w ↔
    w / 2 ^ 26 = op ∧ reg3 w 23 = f ∧ reg4 w 18 = a ∧ reg4 w 14 = b ∧ condOf (w / 2 ^ 11 % 8) = some e ∧
      zeroBits w 22 1 = true ∧ zeroBits w 0 11 = true := by
  have := condCode_lt e
  simp only [peFields_eq_place, place_cons, place_nil, reg4_eq_iff, reg3_eq_iff, condOf_eq_some_iff, zeroBits_iff]
  omega

theorem fields_flop {i : Fin 8} : peFields op [(f.val, 23), (g.val, 20), (h.val, 17), (i.val, 14)] = w ↔
    w / 2 ^ 26 = op ∧ reg3 w 23 = f ∧ reg3 w 20 = g ∧ reg3 w 17 = h ∧ reg3 w 14 = i ∧ zeroBits w 0 14 = true := by
  simp only [peFields_eq_place, place_cons, place_nil, reg3_eq_iff, zeroBits_iff]
  omega

theorem fields_d : peFields op [(a.val, 22)] = w ↔ w / 2 ^ 26 = op ∧ reg4 w 22 = a ∧ zeroBits w 0 22 = true := by
  simp only [peFields_eq_place, place_cons, place_nil, reg4_eq_iff, zeroBits_iff]
  omega

theorem fields_a : peFields op [(a.val, 18)] = w ↔
    w / 2 ^ 26 = op ∧ reg4 w 18 = a ∧ zeroBits w 22 4 = true ∧ zeroBits w 0 18 = true := by
  simp only [peFields_eq_place, place_cons, place_nil, reg4_eq_iff, zeroBits_iff]
  omega

theorem fields_accLane : peFields op [(f.val, 23), (a.val, 18), (l.val, 16)] = w ↔
    w / 2 ^ 26 = op ∧ reg3 w 23 = f ∧ reg4 w 18 = a ∧ lane2 w 16 = l ∧ zeroBits w 22 1 = true ∧ zeroBits w 0 16 = true := by
  simp only [peFields_eq_place, place_cons, place_nil, reg4_eq_iff, reg3_eq_iff, lane2_eq_iff, zeroBits_iff]
  omega

theorem fields_accReg : peFields op [(f.val, 23), (a.val, 18)] = w ↔
    w / 2 ^ 26 = op ∧ reg3 w 23 = f ∧ reg4 w 18 = a ∧ zeroBits w 22 1 = true ∧ zeroBits w 0 18 = true := by
  simp only [peFields_eq_place, place_cons, place_nil, reg4_eq_iff, reg3_eq_iff, zeroBits_iff]
  omega

theorem fields_accMem : peFields op ((f.val, 23) :: memFields m) = w ↔
    w / 2 ^ 26 = op ∧ reg3 w 23 = f ∧ memOf w = m ∧ zeroBits w 22 1 = true := by
  simp only [peFields_eq_place, memFields, place_cons, place_nil, reg3_eq_iff, memOf_eq_iff, zeroBits_iff]
  omega

theorem fields_aseti : peFields op [(f.val, 23), (imm.toNat, 0)] = w ↔
    w / 2 ^ 26 = op ∧ reg3 w 23 = f ∧ BitVec.ofNat 14 w = imm ∧ zeroBits w 14 9 = true := by
  simp only [peFields_eq_place, place_cons, place_nil, reg3_eq_iff, ofNat_eq_iff, zeroBits_iff]
  omega

theorem fields_acmp : peFields op [(f.val, 23), (g.val, 20), (h.val, 17), (condCode e, 11)] = w ↔
    w / 2 ^ 26 = op ∧ reg3 w 23 = f ∧ reg3 w 20 = g ∧ reg3 w 17 = h ∧ condOf (w / 2 ^ 11 % 8) = some e ∧
      zeroBits w 14 3 = true ∧ zeroBits w 0 11 = true := by
  have := condCode_lt e
  simp only [peFields_eq_place, place_cons, place_nil, reg3_eq_iff, condOf_eq_some_iff, zeroBits_iff]
  omega

theorem fields_aflt : peFields op [(a.val, 22), (g.val, 17)] = w ↔
    w / 2 ^ 26 = op ∧ reg4 w 22 = a ∧ reg3 w 17 = g ∧ zeroBits w 20 2 = true ∧ zeroBits w 0 17 = true := by
  simp only [peFields_eq_place, place_cons, place_nil, reg4_eq_iff, reg3_eq_iff, zeroBits_iff]
  omega

theorem fields_amov : peFields op [(f.val, 23), (g.val, 17)] = w ↔
    w / 2 ^ 26 = op ∧ reg3 w 23 = f ∧ reg3 w 17 = g ∧ zeroBits w 20 3 = true ∧ zeroBits w 0 17 = true := by
  simp only [peFields_eq_place, place_cons, place_nil, reg3_eq_iff, zeroBits_iff]
  omega

theorem fields_acc : peFields op [(f.val, 23)] = w ↔ w / 2 ^ 26 = op ∧ reg3 w 23 = f ∧ zeroBits w 0 23 = true := by
  simp only [peFields_eq_place, place_cons, place_nil, reg3_eq_iff, zeroBits_iff]
  omega

theorem fields_brf {sense : Bool} : peFields op [(f.val, 23), (sense.toNat, 22), (imm.toNat, 0)] = w ↔
    w / 2 ^ 26 = op ∧ reg3 w 23 = f ∧ (w / 2 ^ 22 % 2 == 1) = sense ∧ BitVec.ofNat 14 w = imm ∧ zeroBits w 14 8 = true := by
  have := sense.toNat_lt
  simp only [peFields_eq_place, place_cons, place_nil, reg3_eq_iff, bit_eq_iff, ofNat_eq_iff, zeroBits_iff]
  omega

theorem fields_bra : peFields op [(imm.toNat, 0)] = w ↔ w / 2 ^ 26 = op ∧ BitVec.ofNat 14 w = imm ∧ zeroBits w 14 12 = true := by
  simp only [peFields_eq_place, place_cons, place_nil, ofNat_eq_iff, zeroBits_iff]
  omega

theorem fields_loop {i : BitVec 12} : peFields op [(i.toNat, 14), (imm.toNat, 0)] = w ↔
    w / 2 ^ 26 = op ∧ BitVec.ofNat 12 (w / 2 ^ 14) = i ∧ BitVec.ofNat 14 w = imm := by
  simp only [peFields_eq_place, place_cons, place_nil, ofNat_eq_iff]
  omega

theorem fields_lidx : peFields op [(a.val, 22), (l.val, 16)] = w ↔
    w / 2 ^ 26 = op ∧ reg4 w 22 = a ∧ lane2 w 16 = l ∧ zeroBits w 18 4 = true ∧ zeroBits w 0 16 = true := by
  simp only [peFields_eq_place, place_cons, place_nil, reg4_eq_iff, lane2_eq_iff, zeroBits_iff]
  omega

theorem fields_trp {k : Nat} (hk : k < 32) : peFields op [(k, 21), (f.val, 18)] = w ↔
    w / 2 ^ 26 = op ∧ w / 2 ^ 21 % 32 = k ∧ reg3 w 18 = f ∧ zeroBits w 0 18 = true := by
  simp only [peFields_eq_place, place_cons, place_nil, reg3_eq_iff, zeroBits_iff]
  omega

theorem fields_trg : peFields op [(f.val, 23), (g.val, 20)] = w ↔
    w / 2 ^ 26 = op ∧ reg3 w 23 = f ∧ reg3 w 20 = g ∧ zeroBits w 0 20 = true := by
  simp only [peFields_eq_place, place_cons, place_nil, reg3_eq_iff, zeroBits_iff]
  omega

end

/-! ### From words to operations -/

/-! A decoder answers with a chain of conditions: these two rules turn what it answers into what the conditions imply. -/

theorem forall_ite_some {α : Type} {c : Prop} [Decidable c] {x : Option α} {P : α → Prop} :
    (∀ v, (if c then x else none) = some v → P v) ↔ (c → ∀ v, x = some v → P v) := by
  split <;> simp [*]

theorem forall_bind_some {α β : Type} {x : Option α} {f : α → Option β} {P : β → Prop} :
    (∀ v, x.bind f = some v → P v) ↔ ∀ c, x = some c → ∀ v, f c = some v → P v := by cases x <;> simp

theorem opcode_eq {w c : Nat} (hw : w < 2 ^ 32) (h : w / 2 ^ 26 % 64 = c) : w / 2 ^ 26 = c := by omega

theorem encodeSlot_of_decodeSlot {w : Nat} (hw : w < 2 ^ 32) : ∀ o, decodeSlot w = some o → encodeSlot o = w := by
  unfold decodeSlot
  dsimp only
  split
  case h_51 => exact nofun
  all_goals
    have hop := opcode_eq hw ‹w / 2 ^ 26 % 64 = _›
    simp +contextual only [forall_ite_some, forall_bind_some, Option.some.injEq, forall_eq', Bool.and_eq_true, encodeSlot,
      encodeScalar, encodeAccumulator, sIntCode, sShiftCode, sFloatCode, sUnaryCode, zero_eq_iff, fields_none, fields_rrr,
      fields_shift (Nat.mod_lt w (by decide)), fields_rri, fields_slih, fields_cmp, fields_rr, fields_flop, fields_d, fields_a,
      fields_mem, fields_accLane, fields_accReg, fields_accMem, fields_aseti, fields_acmp, fields_aflt, fields_amov, fields_acc,
      fields_brf, fields_bra, fields_loop, fields_lidx, fields_trp (Nat.mod_lt (w / 2 ^ 21) (by decide)), fields_trg, hop,
      and_self, implies_true]

theorem slotDefined_of_decodeSlot {w : Nat} : ∀ o, decodeSlot w = some o → slotDefined o = true := by
  unfold decodeSlot
  dsimp only
  split
  case h_51 => exact nofun
  all_goals
    simp +contextual only [forall_ite_some, forall_bind_some, Option.some.injEq, forall_eq', Bool.and_eq_true, slotDefined,
      memOf_off_even, ofNat_bne_zero, and_self, implies_true]

theorem encodeVector_of_decodeVector {w : Nat} (hw : w < 2 ^ 32) : ∀ v, decodeVector w = some v → encodeVector v = w := by
  unfold decodeVector
  dsimp only
  split
  case h_23 => exact nofun
  case h_20 =>
    split
    · next c hc =>
      have hop := opcode_eq hw ‹w / 2 ^ 26 % 64 = _›
      simp +contextual only [forall_ite_some, Option.some.injEq, forall_eq', encodeVector, fields_vcmp, hop, hc, and_self,
        implies_true]
    · exact nofun
  all_goals
    have hop := opcode_eq hw ‹w / 2 ^ 26 % 64 = _›
    simp +contextual only [forall_ite_some, Option.some.injEq, forall_eq', Bool.and_eq_true, encodeVector, vArithCode,
      zero_eq_iff, fields_rrrr, fields_perm, fields_rr, fields_lane, fields_mem, hop, and_self, implies_true]

theorem vectorDefined_of_decodeVector {w : Nat} : ∀ v, decodeVector w = some v → vectorDefined v = true := by
  unfold decodeVector
  dsimp only
  split
  case h_23 => exact nofun
  case h_20 =>
    split
    · simp only [forall_ite_some, Option.some.injEq, forall_eq', vectorDefined, implies_true]
    · exact nofun
  all_goals
    simp +contextual only [forall_ite_some, Option.some.injEq, forall_eq', Bool.and_eq_true, Bool.or_eq_true, bne_iff_ne, ne_eq,
      reduceCtorEq, not_false_eq_true, Bool.not_true, Bool.not_false, Bool.true_or, Bool.false_or, true_or, or_true,
      vectorDefined, vArithCode, reg4_beq_zero, reg4_lt_eight, and_self, implies_true]

/-! ### From operations to words -/

theorem decodeVector_encodeVector {v : PeVectorSlot} (h : vectorDefined v = true) :
    encodeVector v < 2 ^ 32 ∧ decodeVector (encodeVector v) = some v := by
  generalize hw : encodeVector v = w
  cases v with
  | op o =>
    cases o with
    | arith o vd va vb vc =>
      rw [encodeVector, fields_rrrr] at hw
      obtain ⟨hop, rfl, rfl, rfl, rfl, hz⟩ := hw
      cases o
      all_goals
        simp only [vArithCode, vectorDefined, reg4_beq_zero, reg4_lt_eight, Bool.true_or, Bool.false_or, Bool.true_and,
          Bool.and_true, Bool.and_eq_true, bne_self_eq_false] at hop h
        refine ⟨by omega, ?_⟩
        simp only [decodeVector, hop, hz, h, Nat.reduceMod, Bool.not_true, Bool.not_false, Bool.true_or, Bool.false_or,
          Bool.and_self, if_true]
    | _ =>
      simp only [encodeVector, zero_eq_iff, fields_perm, fields_rr, fields_lane, fields_vcmp] at hw
      refine ⟨by omega, ?_⟩
      simp only [decodeVector, hw, Nat.reduceMod, Bool.and_self, if_true]
  | vld vd m | vst vs m =>
    simp only [encodeVector, fields_mem] at hw
    simp only [vectorDefined] at h
    refine ⟨by omega, ?_⟩
    simp only [decodeVector, hw, h, Nat.reduceMod, if_true]

theorem decodeSlot_encodeScalar (o : PeScalar) : encodeScalar o < 2 ^ 32 ∧ decodeSlot (encodeScalar o) = some (.scalar o) := by
  generalize hw : encodeScalar o = w
  cases o with
  | int op | float op | unary op =>
    cases op
    all_goals
      simp only [encodeScalar, sIntCode, sFloatCode, sUnaryCode, fields_rrr, fields_rr] at hw
      refine ⟨by omega, ?_⟩
      simp only [decodeSlot, hw, Nat.reduceMod, if_true]
  | shift op sd sa n =>
    cases op
    all_goals
      simp only [encodeScalar, sShiftCode, fields_shift n.isLt] at hw
      refine ⟨by omega, ?_⟩
      simp only [decodeSlot, hw, Nat.reduceMod, if_true]
  | _ =>
    simp only [encodeScalar, zero_eq_iff, fields_rri, fields_slih, fields_cmp, fields_flop, fields_d, fields_a] at hw
    refine ⟨by omega, ?_⟩
    simp only [decodeSlot, hw, Nat.reduceMod, Option.bind_some, Bool.and_self, if_true]

theorem decodeSlot_encodeAccumulator {o : PeAccumulator} (h : slotDefined (.acc o) = true) :
    encodeAccumulator o < 2 ^ 32 ∧ decodeSlot (encodeAccumulator o) = some (.acc o) := by
  generalize hw : encodeAccumulator o = w
  cases o with
  | ald ad m | ast ad m =>
    rw [encodeAccumulator, fields_accMem] at hw
    obtain ⟨hop, rfl, rfl, hz⟩ := hw
    simp only [slotDefined, memOf_off_even] at h
    refine ⟨by omega, ?_⟩
    simp only [decodeSlot, hop, hz, h, Nat.reduceMod, Bool.true_and, if_true]
  | _ =>
    simp only [encodeAccumulator, fields_accLane, fields_accReg, fields_aseti, fields_acmp, fields_aflt, fields_amov,
      fields_acc] at hw
    refine ⟨by omega, ?_⟩
    simp only [decodeSlot, hw, Nat.reduceMod, Option.bind_some, Bool.and_self, if_true]

theorem decodeSlot_encodeSlot {o : PeSlot} (h : slotDefined o = true) :
    encodeSlot o < 2 ^ 32 ∧ decodeSlot (encodeSlot o) = some o := by
  cases o with
  | scalar o => exact decodeSlot_encodeScalar o
  | acc o => exact decodeSlot_encodeAccumulator h
  | brf | bra =>
    generalize hw : encodeSlot _ = w
    simp only [encodeSlot, fields_brf, fields_bra] at hw
    simp only [slotDefined, ← hw, ofNat_bne_zero] at h
    refine ⟨by omega, ?_⟩
    simp only [decodeSlot, hw, h, Nat.reduceMod, Bool.and_self, if_true]
  | trp k =>
    generalize hw : encodeSlot _ = w
    simp only [encodeSlot, fields_trp k.isLt] at hw
    refine ⟨by omega, ?_⟩
    simp only [decodeSlot, hw, Nat.reduceMod, if_true]
  | _ =>
    generalize hw : encodeSlot _ = w
    simp only [encodeSlot, fields_none, fields_mem, fields_loop, fields_lidx, fields_trg] at hw
    simp only [slotDefined] at h
    refine ⟨by omega, ?_⟩
    simp only [decodeSlot, hw, h, Nat.reduceMod, Bool.and_self, if_true]

/-! ### Bundles -/

theorem refuse_eq_some_iff {α : Type} {c : Bool} {x y : α} : (if c = true then none else some x) = some y ↔ x = y ∧ c = false := by
  cases c <;> simp

/-- A bundle decodes where each of its words does and the pair is allowed. -/
theorem decodeBundle_eq_some_iff {hi lo : Word} {v : PeVectorSlot} {o : PeSlot} : decodeBundle hi lo = some (v, o) ↔
    decodeVector hi.toNat = some v ∧ decodeSlot lo.toNat = some o ∧ bundleAllowed v o = true := by
  unfold decodeBundle
  rcases decodeVector hi.toNat with _ | v'
  · simp only [reduceCtorEq, false_and]
  rcases decodeSlot lo.toNat with _ | o'
  · simp only [reduceCtorEq, false_and, and_false]
  simp only [refuse_eq_some_iff, Prod.mk.injEq, Option.some.injEq, and_assoc]
  refine and_congr_right fun hv => and_congr_right fun ho => ?_
  subst hv ho
  unfold bundleAllowed
  rcases vectorMem v' with _ | ⟨a, -⟩
  · simp
  rcases slotMem o' with _ | ⟨b, -⟩
  · simp
  · simp [bne]

/-- Settles O58: each slot's words and operations correspond one to one, and the rules of a bundle are those of `decodeBundle`. -/
theorem peBundlesDecodeAsTheyEncode : Obligations.PeBundlesDecodeAsTheyEncode := by
  unfold Obligations.PeBundlesDecodeAsTheyEncode
  refine ⟨fun v o hv ho hvo => ?_, fun hi lo v o h => ?_⟩
  · obtain ⟨hhi, hdv⟩ := decodeVector_encodeVector hv
    obtain ⟨hlo, hdo⟩ := decodeSlot_encodeSlot ho
    rw [decodeBundle_eq_some_iff, BitVec.toNat_ofNat, BitVec.toNat_ofNat, Nat.mod_eq_of_lt hhi, Nat.mod_eq_of_lt hlo]
    exact ⟨hdv, hdo, hvo⟩
  · obtain ⟨hdv, hdo, hvo⟩ := decodeBundle_eq_some_iff.mp h
    exact ⟨vectorDefined_of_decodeVector v hdv, slotDefined_of_decodeSlot o hdo, hvo,
      encodeVector_of_decodeVector hi.isLt v hdv, encodeSlot_of_decodeSlot lo.isLt o hdo⟩

end Sys2Proof.Machine.PeEncoding
end


section
/-!
SUPPORT. The bundle of PE (07 R244 to R251, R255; for O36 and O37): what the instructions of an evaluation make of the state,
loads and stores of the PE memories, lanes of a vector register.
-/

namespace Sys2Proof.Machine.PeEvaluation

/-! ### The instruction of a running evaluation -/

/-- While a context runs, no other begins and the slot does not end. -/
theorem peSettle_running {s : State} {r : PeRun} (h : s.pe.run = some r) (n : Nat) : peSettle n s = s := by
  cases n with
  | zero => rfl
  | succ n => simp only [peSettle, h, Option.isSome_some, or_true, if_true]

section

variable {s : State} {r : PeRun} (hrun : s.pe.run = some r) (hleft : s.exhausted r = false)
include hrun hleft

theorem peVectorSlot_eq (v : PeVectorSlot) : s.peVectorSlot v = s.withRun (some { r with vector := some v }) := by
  simp only [State.peVectorSlot, State.peInstruction, hrun, hleft, Bool.false_eq_true, if_false]
  exact peSettle_running rfl 65

theorem peScalarSlot_eq {v : PeVectorSlot} (hv : r.vector.getD (.op .vnop) = v) (o : PeSlot) :
    s.peScalarSlot o = peSettle 65 (s.peBundle r v o) := by
  simp only [State.peScalarSlot, State.peInstruction, hrun, hleft, Bool.false_eq_true, if_false, hv]

/-- A bundle after which the context still runs is the whole step. -/
theorem peScalarSlot_running {v : PeVectorSlot} (hv : r.vector.getD (.op .vnop) = v) {o : PeSlot} {t : State} {x : PeRun}
    (ht : s.peBundle r v o = t) (hx : t.pe.run = some x) : s.peScalarSlot o = t := by
  rw [peScalarSlot_eq hrun hleft hv, ht, peSettle_running hx]

end

/-! ### What a bundle leaves -/

/-- The evaluation after a bundle with S-slot operation `o` that leaves these registers. -/
def runAfter (r : PeRun) (o : PeSlot) (regs : PeRegs) : PeRun :=
  { r with regs, pc := (peNext r o).1, loops := (peNext r o).2, count := r.count + 1, vector := none }

/-- The state after such a bundle: one PX cycle has passed. -/
def bundled (s : State) (r : PeRun) (o : PeSlot) (regs : PeRegs) : State :=
  { s with pe := { s.pe with cycles := s.pe.cycles + 1, run := some (runAfter r o regs) } }

/-- The registers after two operations without memory: both read what stood before the bundle. -/
def regsAfter (r : PeRun) (v : PeVector) (o : PeSlot) : PeRegs :=
  peSlotRegs o r.regs r.loops [] (peVector v r.regs r.regs)

/-- The evaluation END hands on: its PC stays at END. -/
def endRun (r : PeRun) (v : PeVector) : PeRun := { runAfter r .end_ (regsAfter r v .end_) with pc := r.pc }

section

variable (s : State) (r : PeRun) (v : PeVector)

theorem peBundle_scalar (o : PeScalar) : s.peBundle r (.op v) (.scalar o) = bundled s r (.scalar o) (regsAfter r v (.scalar o)) := rfl

theorem peBundle_acc {o : PeAccumulator} (hald : ∀ a m, o ≠ .ald a m) (hast : ∀ a m, o ≠ .ast a m) :
    s.peBundle r (.op v) (.acc o) = bundled s r (.acc o) (regsAfter r v (.acc o)) := by
  cases o with
  | ald a m => exact absurd rfl (hald a m)
  | ast a m => exact absurd rfl (hast a m)
  | _ => rfl

theorem peBundle_brf (f : PeFlag) (sense : Bool) (off : BitVec 14) :
    s.peBundle r (.op v) (.brf f sense off) = bundled s r (.brf f sense off) (regsAfter r v (.brf f sense off)) := rfl

theorem peBundle_bra (off : BitVec 14) : s.peBundle r (.op v) (.bra off) = bundled s r (.bra off) (regsAfter r v (.bra off)) := rfl

theorem peBundle_loop (k : BitVec 12) (m : BitVec 14) :
    s.peBundle r (.op v) (.loop k m) = bundled s r (.loop k m) (regsAfter r v (.loop k m)) := rfl

theorem peBundle_lidx (d : PeReg) (l : Fin 4) :
    s.peBundle r (.op v) (.lidx d l) = bundled s r (.lidx d l) (regsAfter r v (.lidx d l)) := rfl

theorem peBundle_end :
    s.peBundle r (.op v) .end_ = (bundled s r .end_ (regsAfter r v .end_)).endEntry (endRun r v) := rfl

theorem peBundle_trp (k : Fin 32) (f : PeFlag) : s.peBundle r (.op v) (.trp k f) =
    (bundled s r (.trp k f) (regsAfter r v (.trp k f))).trp r k.val (r.regs.fl f.val) := rfl

theorem peBundle_trg (j : Fin 8) (f : PeFlag) : s.peBundle r (.op v) (.trg j f) =
    (bundled s r (.trg j f) (regsAfter r v (.trg j f))).trg r j.val (r.regs.fl f.val) := rfl

end

/-! ### The PE memories -/

theorem peMem_peStore (s : State) (off o : Nat) (d : Word) :
    (s.peStore off d).peMem o = if o = off then peWord d else s.peMem o := CMap.lookup_put ..

theorem peMem_peStores_outside {ws : List Word} {s : State} {off o : Nat} (h : ∀ i < ws.length, o ≠ off + 4 * i) :
    (s.peStores off ws).peMem o = s.peMem o := by
  induction ws generalizing s off with
  | nil => rfl
  | cons w ws ih =>
    have hrest : ∀ i < ws.length, o ≠ off + 4 + 4 * i := fun i hi => by
      have := h (i + 1) (Nat.succ_lt_succ hi); omega
    have hfirst : o ≠ off := h 0 (Nat.zero_lt_succ _)
    rw [State.peStores, ih hrest, peMem_peStore, if_neg hfirst]

theorem peMem_peStores {ws : List Word} {s : State} {off i : Nat} (hi : i < ws.length) :
    (s.peStores off ws).peMem (off + 4 * i) = peWord ws[i] := by
  induction ws generalizing s off i with
  | nil => exact absurd hi (Nat.not_lt_zero i)
  | cons w ws ih =>
    cases i with
    | zero =>
      have hrest : ∀ j < ws.length, off ≠ off + 4 + 4 * j := fun j _ => by omega
      rw [Nat.mul_zero, Nat.add_zero, State.peStores, peMem_peStores_outside hrest, peMem_peStore, if_pos rfl]; rfl
    | succ i =>
      rw [State.peStores, show off + 4 * (i + 1) = off + 4 + 4 * i by omega, ih (Nat.lt_of_succ_lt_succ hi)]; rfl

/-- Stores change the PE memories only. -/
theorem peStores_cases (ws : List Word) (s : State) (off : Nat) :
    ∃ m, s.peStores off ws = { s with pe := { s.pe with mem := m } } := by
  induction ws generalizing s off with
  | nil => exact ⟨_, rfl⟩
  | cons w ws ih => obtain ⟨m, h⟩ := ih (s.peStore off w) (off + 4); exact ⟨m, h⟩

/-- Stores do not see the PX cycles counted. -/
theorem peStores_cycles (ws : List Word) (s : State) (off : Nat) :
    (s.withPe fun p => { p with cycles := p.cycles + 1 }).peStores off ws =
      (s.peStores off ws).withPe fun p => { p with cycles := p.cycles + 1 } := by
  induction ws generalizing s off with
  | nil => rfl
  | cons w ws ih => exact ih (s.peStore off w) (off + 4)

/-- Words that need no correction are read as they stand. -/
theorem peReads_clean {ws : List Word} {s : State} {off : Nat}
    (h : ∀ i, (hi : i < ws.length) → peDecode (s.peMem (off + 4 * i)) = some (ws[i], none)) :
    peReads ws.length off s = (s, ws, none) := by
  induction ws generalizing off with
  | nil => rfl
  | cons w ws ih =>
    have hrest : ∀ i, (hi : i < ws.length) → peDecode (s.peMem (off + 4 + 4 * i)) = some (ws[i], none) := fun i hi => by
      have := h (i + 1) (Nat.succ_lt_succ hi)
      rwa [show off + 4 * (i + 1) = off + 4 + 4 * i by omega] at this
    have hread : s.peRead off = (s, some w) := by
      simp only [State.peRead, show peDecode (s.peMem off) = some (w, none) from h 0 (Nat.zero_lt_succ _)]
    simp only [List.length_cons, peReads, hread, ih hrest]

/-- A load outside the history space of words that need no correction. -/
theorem peLoad_clean {s : State} {r : PeRun} {m : PeMem} {vector : Bool} {words off : Nat} {ws : List Word}
    (ha : s.peAddress r m vector false words = some off) (hspace : vector = false ∨ m.space.val ≠ 1)
    (hlen : (if vector then 4 else words) = ws.length)
    (h : ∀ i, (hi : i < ws.length) → peDecode (s.peMem (off + 4 * i)) = some (ws[i], none)) :
    s.peLoad r m vector words = (s, .words ws) := by
  have hno : ¬ (m.space.val = 1 ∧ vector = true) := by
    rintro ⟨h1, h2⟩
    rcases hspace with h | h
    · rw [h] at h2; contradiction
    · exact h h1
  simp only [State.peLoad, ha, if_neg hno, hlen, peReads_clean h]

/-! ### Lanes -/

theorem lane_setLane (r : PeRegs) {v i u j : Nat} (w : Word) (hi : i < 4) (hj : j < 4) :
    (r.setLane v i w).lane u j = if u = v ∧ j = i then w else r.lane u j := by
  have hkey : 4 * u + j = 4 * v + i ↔ u = v ∧ j = i := by omega
  rw [PeRegs.setLane, PeRegs.lane, CMap.lookup_put]
  simp only [hkey, PeRegs.lane]

theorem lane_setVec (r : PeRegs) (v : Nat) (f : Nat → Word) {u j : Nat} (hj : j < 4) :
    (r.setVec v f).lane u j = if u = v then f j else r.lane u j := by
  have hcases : j = 0 ∨ j = 1 ∨ j = 2 ∨ j = 3 := by omega
  simp only [PeRegs.setVec, lane_setLane _ _ (by decide : 0 < 4) hj, lane_setLane _ _ (by decide : 1 < 4) hj,
    lane_setLane _ _ (by decide : 2 < 4) hj, lane_setLane _ _ (by decide : 3 < 4) hj]
  rcases hcases with rfl | rfl | rfl | rfl <;> simp

/-! ### Bundles with an access -/

/-- Only the registers say which word an operand names. -/
theorem peAddress_withPe (s : State) (f : PeBlock → PeBlock) (r : PeRun) (m : PeMem) (vector store : Bool) (n : Nat) :
    (s.withPe f).peAddress r m vector store n = s.peAddress r m vector store n := rfl

section

variable {s : State} {r : PeRun} {m : PeMem} {off : Nat}

theorem peBundle_lds {d : PeReg} {w : Word} (ha : s.peAddress r m false false 1 = some off)
    (hw : peDecode (s.peMem off) = some (w, none)) :
    s.peBundle r (.op .vnop) (.lds d m) = bundled s r (.lds d m) (r.regs.setSc d.val w) := by
  have hload := peLoad_clean (s := s.withPe fun p => { p with cycles := p.cycles + 1 }) (ws := [w]) ha (.inl rfl) rfl
    (fun i hi => by obtain rfl : i = 0 := Nat.lt_one_iff.mp hi; exact hw)
  simp only [State.peBundle, slotMem, State.slotLoad, vectorMem, Option.map_none, hload]
  rfl

theorem peBundle_ald {d : PeAcc} {lo hi : Word} (ha : s.peAddress r m false false 2 = some off)
    (hlo : peDecode (s.peMem off) = some (lo, none)) (hhi : peDecode (s.peMem (off + 4)) = some (hi, none)) :
    s.peBundle r (.op .vnop) (.acc (.ald d m)) = bundled s r (.acc (.ald d m)) (r.regs.setAc d.val (hi ++ lo)) := by
  have hload := peLoad_clean (s := s.withPe fun p => { p with cycles := p.cycles + 1 }) (ws := [lo, hi]) ha (.inl rfl) rfl
    (fun i hi => match i, hi with
      | 0, _ => hlo
      | 1, _ => hhi)
  simp only [State.peBundle, slotMem, State.slotLoad, vectorMem, Option.map_none, hload]
  rfl

theorem peBundle_vld {d : PeReg} {w : Fin 4 → Word} (ha : s.peAddress r m true false 4 = some off) (hspace : m.space.val ≠ 1)
    (hw : ∀ i, peDecode (s.peMem (off + 4 * i.val)) = some (w i, none)) :
    s.peBundle r (.vld d m) (.scalar .snop) =
      bundled s r (.scalar .snop) (r.regs.setVec d.val fun i => ((List.ofFn w)[i]?).getD 0#32) := by
  have hload := peLoad_clean (s := s.withPe fun p => { p with cycles := p.cycles + 1 }) (ws := List.ofFn w) ha (.inr hspace)
    (List.length_ofFn ..).symm (fun i hi => by rw [List.getElem_ofFn]; exact hw ⟨i, _⟩)
  simp only [State.peBundle, slotMem, State.slotLoad, vectorMem, Option.map_some, hload]
  rfl

theorem peBundle_sts {d : PeReg} (ha : s.peAddress r m false true 1 = some off) :
    s.peBundle r (.op .vnop) (.sts d m) = bundled (s.peStores off [r.regs.sc d.val]) r (.sts d m) r.regs := by
  simp only [State.peBundle, slotMem, State.slotLoad, State.slotStore, vectorMem, Option.map_none, peAddress_withPe, ha,
    peSlotData, peStores_cycles]
  generalize s.peStores off _ = t
  rfl

theorem peBundle_ast {d : PeAcc} (ha : s.peAddress r m false true 2 = some off) :
    s.peBundle r (.op .vnop) (.acc (.ast d m)) =
      bundled (s.peStores off [(r.regs.ac d.val).extractLsb' 0 32, (r.regs.ac d.val).extractLsb' 32 32]) r (.acc (.ast d m))
        r.regs := by
  simp only [State.peBundle, slotMem, State.slotLoad, State.slotStore, vectorMem, Option.map_none, peAddress_withPe, ha,
    peSlotData, peStores_cycles]
  generalize s.peStores off _ = t
  rfl

theorem peBundle_vst {d : PeReg} (ha : s.peAddress r m true true 4 = some off) :
    s.peBundle r (.vst d m) (.scalar .snop) =
      bundled (s.peStores off ((List.range 4).map (r.regs.lane d.val))) r (.scalar .snop) r.regs := by
  simp only [State.peBundle, slotMem, State.slotLoad, State.slotStore, vectorMem, Option.map_some, peAddress_withPe, ha,
    peStores_cycles]
  generalize s.peStores off _ = t
  rfl

/-- A load outside the allowed areas cuts the context. -/
theorem peBundle_lds_outside {d : PeReg} (ha : s.peAddress r m false false 1 = none) :
    s.peBundle r (.op .vnop) (.lds d m) = (s.withPe fun p => { p with cycles := p.cycles + 1 }).cutContext r := by
  simp only [State.peBundle, slotMem, State.slotLoad, State.peLoad, vectorMem, Option.map_none, peAddress_withPe, ha]

end

end Sys2Proof.Machine.PeEvaluation
end


section
/-!
SUPPORT. What the operations of PE may change (06 R218, R225, R231 to R238; for O36 and O37): trips and triggers reach Girth's
and REC's registers, publication reaches CYC and BRG; no operation of PE reaches a core or a memory word or takes an event back.
-/

namespace Sys2Proof.Machine.PeFrame

open Reg

/-! ### Bits of a mask -/

theorem bitOf_eq_testBit (w i : Nat) : bitOf w i = w.testBit i := by
  rw [bitOf, Nat.testBit_eq_decide_div_mod_eq]; rfl

theorem putBit_eq (w i : Nat) (b : Bool) : putBit w i b = 2 ^ i * (2 * (w / 2 ^ i / 2) + b.toNat) + w % 2 ^ i := by
  have hw : 2 ^ i * (2 * (w / 2 ^ i / 2)) + 2 ^ i * (bitOf w i).toNat + w % 2 ^ i = w := by
    rw [bitOf, ← Sys2Proof.Machine.PeEncoding.bit_eq_iff.mp rfl, ← Nat.mul_add, Nat.div_add_mod, Nat.div_add_mod]
  rw [Nat.mul_add, putBit]
  cases h : bitOf w i <;> cases b
  all_goals
    simp only [h, Bool.toNat_true, Bool.toNat_false, Nat.mul_one, Nat.mul_zero] at hw
    simp only [Bool.toNat_true, Bool.toNat_false, Nat.mul_one, Nat.mul_zero, beq_iff_eq, reduceCtorEq, if_true, if_false]
    omega

theorem testBit_putBit (w i j : Nat) (b : Bool) : (putBit w i b).testBit j = if j = i then b else w.testBit j := by
  have hr : w % 2 ^ i < 2 ^ i := Nat.mod_lt _ (Nat.two_pow_pos i)
  have hw : w.testBit j = if j < i then (w % 2 ^ i).testBit j else (w / 2 ^ i).testBit (j - i) := by
    rw [← Nat.testBit_two_pow_mul_add _ hr, Nat.div_add_mod]
  rw [putBit_eq, Nat.testBit_two_pow_mul_add _ hr, hw]
  rcases Nat.lt_trichotomy j i with h | rfl | h
  · simp only [if_pos h, if_neg (Nat.ne_of_lt h)]
  · rw [if_neg (Nat.lt_irrefl j), if_pos rfl, Nat.sub_self]
    cases b <;> simp
  · simp only [if_neg (Nat.not_lt_of_gt h), if_neg (Nat.ne_of_gt h)]
    obtain ⟨k, hk⟩ : ∃ k, j - i = k + 1 := ⟨j - i - 1, by omega⟩
    have hhalf : (2 * (w / 2 ^ i / 2) + b.toNat) / 2 = w / 2 ^ i / 2 := by have := b.toNat_lt; omega
    rw [hk, Nat.testBit_succ, Nat.testBit_succ, hhalf]

/-! ### Trip outputs -/

/-- Between `s` and `t` only Girth and REC acted: events were added, and no register in PE's window changed. -/
structure TripWork (s t : State) : Prop where
  frame : ∃ (u : State) (l : List Event), t =
    { s with regs := u.regs, girth := u.girth, recb := u.recb, emitted := s.emitted ++ l }
  rd : ∀ k, windowOf k = 0x406 → t.rd k = s.rd k

namespace TripWork

variable {s t u : State}

theorem refl (s : State) : TripWork s s := ⟨⟨s, [], by rw [List.append_nil]⟩, fun _ _ => rfl⟩

theorem trans (h : TripWork s t) (h' : TripWork t u) : TripWork s u := by
  obtain ⟨⟨v, l, rfl⟩, hrd⟩ := h
  obtain ⟨⟨w, l', rfl⟩, hrd'⟩ := h'
  exact ⟨⟨w, l ++ l', by rw [List.append_assoc]⟩, fun k hk => (hrd' k hk).trans (hrd k hk)⟩

theorem set (h : TripWork s t) (f : Fld) (v : Nat) (hf : windowOf f.reg ≠ 0x406 := by decide) : TripWork s (t.set f v) := by
  refine h.trans ⟨⟨t.set f v, [], by rw [List.append_nil]; rfl⟩, fun k hk => State.rd_set_other _ _ _ _ ?_⟩
  rintro rfl
  exact hf hk

theorem setBit (h : TripWork s t) (f : Fld) (b : Bool) (hf : windowOf f.reg ≠ 0x406 := by decide) :
    TripWork s (t.setBit f b) := h.set f b.toNat hf

theorem inc (h : TripWork s t) (f : Fld) (n : Nat := 1) (hf : windowOf f.reg ≠ 0x406 := by decide) : TripWork s (t.inc f n) :=
  h.set f _ hf

theorem withGirth (h : TripWork s t) (g : GirthBlock → GirthBlock) : TripWork s (t.withGirth g) :=
  h.trans ⟨⟨t.withGirth g, [], by rw [List.append_nil]; rfl⟩, fun _ _ => rfl⟩

theorem withRec (h : TripWork s t) (g : RecBlock → RecBlock) : TripWork s (t.withRec g) :=
  h.trans ⟨⟨t.withRec g, [], by rw [List.append_nil]; rfl⟩, fun _ _ => rfl⟩

theorem emit (h : TripWork s t) (c : Nat) (v : List Nat)
    (hf : ∀ f ∈ lastEvtFields (c / 0x1000), windowOf f.reg ≠ 0x406 := by decide) : TripWork s (t.emit c v) := by
  obtain ⟨r, he⟩ := t.emit_cases c v
  refine h.trans ⟨⟨{ t with regs := r }, [⟨c, v, t.mono⟩], he⟩, fun k hk => State.emit_rd _ _ _ _ fun f hmem => ?_⟩
  rintro rfl
  exact hf f hmem hk

theorem ite {c : Prop} [Decidable c] {a b : State} (ha : TripWork s a) (hb : TripWork s b) : TripWork s (if c then a else b) := by
  split
  · exact ha
  · exact hb

theorem foldl {α : Type} {f : State → α → State} (hf : ∀ u a, TripWork u (f u a)) (l : List α) (h : TripWork s t) :
    TripWork s (l.foldl f t) := by
  induction l generalizing t with
  | nil => exact h
  | cons a l ih => exact ih (h.trans (hf t a))

end TripWork

theorem tout_outside : windowOf GIRTH_TOUT ≠ 0x406 := by decide

theorem showSources_work (s : State) (n : Nat) : TripWork s (s.showSources n) :=
  ((((TripWork.refl s).setBit (GIRTH_TOUT_CORE n) _ tout_outside).setBit (GIRTH_TOUT_PE n) _ tout_outside).setBit
    (GIRTH_TOUT_INST n) _ tout_outside).setBit (GIRTH_TOUT_SAFE n) _ tout_outside

theorem showTrip_work (s : State) (n : Nat) : TripWork s (s.showTrip n) :=
  .ite ((showSources_work s n).setBit (GIRTH_TOUT_OVL n) false tout_outside) (showSources_work s n)

theorem frost_work (s : State) (n : Nat) : TripWork s (s.frost n) :=
  .ite (.refl s) (((((TripWork.refl s).setBit REC_STAT_FROZEN true).set REC_STAT_FSRC n).withRec _).emit 0xC006 [n])

theorem energise_work (s : State) (n : Nat) : TripWork s (s.energise n) := by
  unfold State.energise
  extract_lets on _ out conf susp event
  have hon : TripWork s on := ((TripWork.refl s).setBit (GIRTH_TOUT_ON n) true tout_outside).set GIRTH_STAT_TOUTON _
  have hconf : TripWork s conf := (hon.withGirth _).setBit (GIRTH_TOUT_CONF n) false tout_outside
  have hsusp : TripWork s susp := .ite (hconf.setBit (GIRTH_TCS_SUSP n) true (by decide : windowOf GIRTH_TCS ≠ 0x406)) hconf
  have hevent : TripWork s event := hsusp.emit 0x600E _
  exact .ite (hevent.trans (frost_work _ 4)) hevent

theorem driveTrip_work (s : State) (n : Nat) : TripWork s (s.driveTrip n) :=
  .ite ((showTrip_work s n).trans (energise_work _ n)) (showTrip_work s n)

theorem driveTrips_work (s : State) : TripWork s s.driveTrips := .foldl driveTrip_work _ (.refl s)

theorem girthFlags_work (s : State) : TripWork s s.girthFlags :=
  ((TripWork.refl s).set GIRTH_PEFLAGS_FLAG _).trans (driveTrips_work _)

theorem showCaptures_work (s : State) : TripWork s s.showCaptures := ((TripWork.refl s).setBit _ _).set _ _

theorem recTrigger_work (s : State) (source frame : Nat) : TripWork s (s.recTrigger source frame) :=
  .ite (.refl s) (.ite ((TripWork.refl s).withRec _) (.ite (((TripWork.refl s).inc _).emit 0xC004 _)
    (((((TripWork.refl s).set REC_DNUM_NUM _).withRec _).emit 0xC001 _).trans (showCaptures_work _))))

/-! ### PE beside the order of its slot -/

/-- Between `s` and `t` PE wrote registers, its memories and its contexts' states, counted cycles, raised trips and triggers, and
published: events were added; the order of its slot, the items linked into its contexts and all else are as they were. -/
def PeWork (s t : State) : Prop :=
  ∃ (u : State) (l : List Event), t =
    { s with regs := u.regs, girth := u.girth, recb := u.recb, cyc := u.cyc, brg := u.brg, emitted := s.emitted ++ l
             pe := { s.pe with mem := u.pe.mem, contexts := u.pe.contexts, cycles := u.pe.cycles, triggers := u.pe.triggers } }

theorem TripWork.peWork {s t : State} (h : TripWork s t) : PeWork s t := by
  obtain ⟨⟨u, l, rfl⟩, -⟩ := h
  exact ⟨{ s with regs := u.regs, girth := u.girth, recb := u.recb }, l, rfl⟩

namespace PeWork

variable {s t u : State}

theorem refl (s : State) : PeWork s s := (TripWork.refl s).peWork

theorem trans (h : PeWork s t) (h' : PeWork t u) : PeWork s u := by
  obtain ⟨v, l, rfl⟩ := h
  obtain ⟨w, l', rfl⟩ := h'
  exact ⟨w, l ++ l', by rw [List.append_assoc]⟩

/-- A change without events. -/
theorem of_quiet (h : t = { s with regs := t.regs, girth := t.girth, recb := t.recb, cyc := t.cyc, brg := t.brg
                                   pe := { s.pe with mem := t.pe.mem, contexts := t.pe.contexts, cycles := t.pe.cycles
                                                     triggers := t.pe.triggers } }) : PeWork s t :=
  ⟨t, [], by rw [List.append_nil]; exact h⟩

theorem wr (h : PeWork s t) (k : Nat) (v : Word) : PeWork s (t.wr k v) := h.trans (of_quiet rfl)

theorem set (h : PeWork s t) (f : Fld) (v : Nat) : PeWork s (t.set f v) := h.wr _ _

theorem inc (h : PeWork s t) (f : Fld) (n : Nat := 1) : PeWork s (t.inc f n) := h.set _ _

theorem setBit (h : PeWork s t) (f : Fld) (b : Bool) : PeWork s (t.setBit f b) := h.set _ _

theorem emit (h : PeWork s t) (c : Nat) (v : List Nat) : PeWork s (t.emit c v) := by
  obtain ⟨r, he⟩ := t.emit_cases c v
  exact h.trans ⟨{ t with regs := r }, [⟨c, v, t.mono⟩], he⟩

theorem withGirth (h : PeWork s t) (g : GirthBlock → GirthBlock) : PeWork s (t.withGirth g) := h.trans (of_quiet rfl)

theorem withRec (h : PeWork s t) (g : RecBlock → RecBlock) : PeWork s (t.withRec g) := h.trans (of_quiet rfl)

theorem withCyc (h : PeWork s t) (g : CycBlock → CycBlock) : PeWork s (t.withCyc g) := h.trans (of_quiet rfl)

theorem setCxs (h : PeWork s t) (c : Nat) (x : ContextState) : PeWork s (t.setCxs c x) := h.trans (of_quiet rfl)

theorem cycles (h : PeWork s t) (n : Nat) : PeWork s (t.withPe fun p => { p with cycles := p.cycles + n }) := h.trans (of_quiet rfl)

theorem peStore (h : PeWork s t) (off : Nat) (d : Word) : PeWork s (t.peStore off d) := h.trans (of_quiet rfl)

theorem ite {c : Prop} [Decidable c] {a b : State} (ha : PeWork s a) (hb : PeWork s b) : PeWork s (if c then a else b) := by
  split
  · exact ha
  · exact hb

theorem foldl {α : Type} {f : State → α → State} (hf : ∀ u a, PeWork u (f u a)) (l : List α) (h : PeWork s t) :
    PeWork s (l.foldl f t) := by
  induction l generalizing t with
  | nil => exact h
  | cons a l ih => exact ih (h.trans (hf t a))

theorem kept (h : PeWork s t) : CoresAndMemoryKept s t := by
  obtain ⟨u, l, rfl⟩ := h
  exact ⟨rfl, rfl, rfl, rfl, rfl⟩

theorem mono_eq (h : PeWork s t) : t.mono = s.mono := by
  obtain ⟨u, l, rfl⟩ := h; rfl

end PeWork

theorem TripWork.pe_eq {s t : State} (h : TripWork s t) : t.pe = s.pe := by
  obtain ⟨⟨u, l, rfl⟩, -⟩ := h; rfl

/-- The order of the slot is kept: whether it is under way, the context that runs, those that wait. -/
theorem PeWork.order {s t : State} (h : PeWork s t) : t.pe.slot = s.pe.slot ∧ t.pe.run = s.pe.run ∧ t.pe.rest = s.pe.rest := by
  obtain ⟨u, l, rfl⟩ := h; exact ⟨rfl, rfl, rfl⟩

theorem PeWork.scheme_eq {s t : State} (h : PeWork s t) (c : Nat) : t.scheme c = s.scheme c := by
  obtain ⟨u, l, rfl⟩ := h; rfl

theorem PeWork.emitted_prefix {s t : State} (h : PeWork s t) : s.emitted <+: t.emitted := by
  obtain ⟨u, l, rfl⟩ := h
  exact List.prefix_append ..

/-! ### PE's memories -/

theorem peCorrect_work (s : State) (off : Nat) (d : Word) (syn : Nat) : PeWork s (s.peCorrect off d syn) :=
  (((PeWork.refl s).peStore off d).inc PE_CECNT_COUNT).emit 0x500A _

theorem peMend_work (s : State) (offs : List Nat) : PeWork s (s.peMend offs) := by
  refine .foldl (fun u off => ?_) offs (.refl s)
  split
  · exact peCorrect_work ..
  · exact .refl u

theorem peStores_work (ws : List Word) (s : State) (off : Nat) : PeWork s (s.peStores off ws) := by
  induction ws generalizing s off with
  | nil => exact .refl s
  | cons w ws ih => exact ((PeWork.refl s).peStore off w).trans (ih ..)

theorem peRead_work (s : State) (off : Nat) : PeWork s (s.peRead off).1 := by
  unfold State.peRead
  split
  · exact .refl s
  · exact .refl s
  · exact (peCorrect_work ..).cycles 2

theorem peReadAll_work (l : List Nat) (s : State) : PeWork s (peReadAll l s).1 := by
  induction l generalizing s with
  | nil => exact .refl s
  | cons off l ih =>
    have hread := peRead_work s off
    unfold peReadAll
    split
    · next h => rw [h] at hread; exact hread
    · next h => rw [h] at hread; exact hread.trans (ih _)

theorem peReadGroups_work (l : List (List Nat)) (s : State) : PeWork s (peReadGroups l s).1 := by
  induction l generalizing s with
  | nil => exact .refl s
  | cons g l ih =>
    have hread := peReadAll_work g s
    unfold peReadGroups
    split
    · next h => rw [h] at hread; exact hread
    · next h => rw [h] at hread; exact hread.trans (ih _)

/-! ### Contexts -/

/-- The trip matrix follows the contributions: Girth and REC act beside one register of PE. -/
theorem showFlags_work (s : State) : PeWork s s.showFlags :=
  .ite (.refl s) (((PeWork.refl s).set PE_FLAGS_FLAG _).trans (girthFlags_work _).peWork)

theorem setContrib_work (s : State) (c : Nat) (w : Word) : PeWork s (s.setContrib c w) :=
  ((PeWork.refl s).setCxs c _).trans (showFlags_work _)

theorem showFlags_pe (s : State) : s.showFlags.pe = s.pe := by
  unfold State.showFlags
  dsimp only
  split
  · rfl
  · exact (girthFlags_work _).pe_eq

/-- A change of a contribution leaves every other register of PE but PE_FLAGS. -/
theorem setContrib_rd (s : State) (c : Nat) (w : Word) {k : Nat} (hk : windowOf k = 0x406) (hflags : k ≠ PE_FLAGS) :
    (s.setContrib c w).rd k = s.rd k := by
  unfold State.setContrib State.showFlags
  dsimp only
  split
  · rfl
  · rw [(girthFlags_work _).rd k hk, State.rd_set_other _ _ _ _ hflags]; rfl

theorem cxs_setContrib (s : State) (c : Nat) (w : Word) : (s.setContrib c w).cxs c = { s.cxs c with contrib := w } := by
  rw [State.cxs, State.setContrib, showFlags_pe]
  exact (CMap.lookup_put ..).trans (if_pos rfl)

theorem fallbackFlags_work (s : State) (c : Nat) : PeWork s (s.fallbackFlags c) := by
  unfold State.fallbackFlags
  split
  · exact setContrib_work ..
  · exact setContrib_work ..
  · split
    · exact .ite (setContrib_work ..) (.refl s)
    · exact .refl s

theorem noteMissing_work (s : State) (c n st : Nat) : PeWork s (s.noteMissing c n st) := by
  unfold State.noteMissing
  extract_lets x m missed fallback
  have hmissed : PeWork s missed := ((PeWork.refl s).setCxs c _).set _ _
  have hfallback : PeWork s (fallback missed) :=
    (((hmissed.set _ _).inc _).trans (fallbackFlags_work _ c)).emit 0x5003 _
  exact .ite (((hmissed.set _ _).inc _).emit 0x5002 _) (.ite (.ite hfallback ((hmissed.set _ _).inc _))
    (.ite hfallback (hmissed.set _ _)))

theorem stopContext_work (s : State) (c off : Nat) : PeWork s (s.stopContext c off) :=
  (((((PeWork.refl s).inc _).setBit _ _).set _ _).trans (fallbackFlags_work _ c)).emit 0x500B _

theorem writeStatus_work (s : State) (c n before : Nat) (logic : Bool) (runBefore : Nat) :
    PeWork s (s.writeStatus c n before logic runBefore) :=
  ((((PeWork.refl s).peStore _ _).peStore _ _).peStore _ _).peStore _ _

/-! ### Publication -/

theorem queueArrival_work (s : State) (kind index : Nat) (b : InBlock) : PeWork s (s.queueArrival kind index b) :=
  .ite (.refl s) (.ite (.of_quiet rfl) ((PeWork.refl s).emit 0xA00E _))

theorem deliver_work (s : State) (kind index : Nat) (words : List Word) (done arrival : Nat) (safe : Bool) :
    PeWork s (s.deliver kind index words done arrival safe) :=
  ((((PeWork.refl s).withCyc _).setBit _ _).setBit _ _).trans (queueArrival_work ..)

theorem publish_work (s : State) (c n : Nat) (flip logicRan : Bool) : PeWork s (s.publish c n flip logicRan) := by
  unfold State.publish
  extract_lets rlen mended published w0 block
  have hpublished : PeWork s published :=
    .ite (.foldl (fun u i => (PeWork.refl u).peStore _ _) _ (peMend_work s _)) (.refl s)
  exact (hpublished.peStore _ _).trans (deliver_work ..)

/-! ### Trips and triggers -/

theorem trp_work (s : State) (r : PeRun) (k : Nat) (b : Bool) : PeWork s (s.trp r k b) :=
  .ite (setContrib_work ..) ((PeWork.refl s).emit 0x500C _)

theorem trg_work (s : State) (r : PeRun) (j : Nat) (b : Bool) : PeWork s (s.trg r j b) := by
  have hline : PeWork s (s.withPe fun p => { p with triggers := putBit p.triggers j true }) := .of_quiet rfl
  exact .ite (.ite (hline.trans (recTrigger_work ..).peWork) hline) (.refl s)

/-- TRP of a flag in the context's mask sets its bit of the contribution and no other. -/
theorem contrib_trp {s : State} {r : PeRun} {k : Nat} (hmask : bitOf (s.get (PE_CXnFLM_FLAGS r.cx)) k = true) (b : Bool)
    {i : Nat} (hi : i < 32) :
    ((s.trp r k b).cxs r.cx).contrib.getLsbD i = if i = k then b else (s.cxs r.cx).contrib.getLsbD i := by
  rw [State.trp, if_pos hmask, cxs_setContrib]
  simp only [BitVec.getLsbD_ofNat, hi, decide_true, Bool.true_and, testBit_putBit, BitVec.testBit_toNat]

/-- TRG of a set flag for a line in the context's mask raises the line. -/
theorem triggers_trg {s : State} {r : PeRun} {j : Nat} (hmask : bitOf (s.get (PE_CXnCHM_TRIG r.cx)) j = true) :
    bitOf (s.trg r j true).pe.triggers j = true := by
  have hline : (s.trg r j true).pe = (s.withPe fun p => { p with triggers := putBit p.triggers j true }).pe := by
    simp only [State.trg, hmask, Bool.and_self, if_true]
    split
    · exact (recTrigger_work ..).pe_eq
    · rfl
  rw [hline, bitOf_eq_testBit]
  exact (testBit_putBit ..).trans (if_pos rfl)

/-! ### LOGIC begins -/

theorem runItems_of_noItems {s : State} {r : PeRun} (hrun : s.pe.run = some r) (hscheme : s.scheme r.cx = []) (f : LibFrame)
    (meas : Bool) : s.runItems f meas = s := by
  simp only [State.runItems, hrun, State.entryItems, hscheme, List.filter_nil, List.foldl_nil]

/-- The evaluation as LOGIC begins. -/
def logicRun (s : State) (r : PeRun) : PeRun :=
  { r with logic := true, logicNext := false, pc := s.get (PE_CXnPROG_LOGIC r.cx), loops := [], regs := {}, vector := none }

/-- Without library items, LOGIC begins at its first bundle with its registers at 0. -/
theorem beginLogic_of_noItems {s : State} {r : PeRun} (hcx : r.cx < 64) (hscheme : s.scheme r.cx = []) :
    ∃ t, PeWork s t ∧ s.beginLogic r = t.withRun (some (logicRun s r)) := by
  have hkey : windowOf (PE_CXnPROG r.cx) = 0x406 ∧ PE_CXnPROG r.cx ≠ PE_FLAGS := by
    unfold windowOf PE_CXnPROG PE_FLAGS; omega
  unfold State.beginLogic
  extract_lets reset started
  have hreset : PeWork s reset := .ite (setContrib_work ..) (.refl s)
  have hpc : reset.get (PE_CXnPROG_LOGIC r.cx) = s.get (PE_CXnPROG_LOGIC r.cx) := by
    have hrd : reset.rd (PE_CXnPROG r.cx) = s.rd (PE_CXnPROG r.cx) := by
      show State.rd (if _ then _ else _) _ = _
      split
      · exact setContrib_rd _ _ _ hkey.1 hkey.2
      · rfl
    exact congrArg (fieldGet · 16 15) hrd
  refine ⟨reset, hreset, ?_⟩
  rw [runItems_of_noItems (s := started) rfl ((hreset.scheme_eq r.cx).trans hscheme)]
  simp only [started, hpc, logicRun]

/-! ### The end of an evaluation -/

theorem finishContext_work (s : State) (r : PeRun) (logicRan : Bool) :
    ∃ t, PeWork s t ∧ s.finishContext r logicRan = t.withRun none := by
  refine ⟨_, ?_, rfl⟩
  refine PeWork.trans (.ite ?_ (.set ?_ _ _)) (publish_work ..)
  all_goals exact (PeWork.ite ((PeWork.refl s).emit 0x5004 _) (.refl s)).setCxs _ _

theorem cutContext_work (s : State) (r : PeRun) :
    ∃ t, PeWork s t ∧ s.cutContext r = t.withRun none ∧
      ⟨0x5005, [r.cx, r.frame, 0x50000000 + bundleAt r.pc], s.mono⟩ ∈ t.emitted := by
  unfold State.cutContext
  extract_lets c cut missed _ counted
  have hback : PeWork s ((s.inc (PE_CXnCUT_CUTS c)).setContrib c r.contribBefore) :=
    ((PeWork.refl s).inc _).trans (setContrib_work ..)
  have hlater : PeWork cut (counted.publish c r.frame false false) :=
    ((PeWork.ite (.refl cut) (noteMissing_work ..)).setCxs _ _).trans (publish_work ..)
  refine ⟨_, (hback.emit ..).trans hlater, rfl, hlater.emitted_prefix.subset ?_⟩
  rw [State.emit_emitted, hback.mono_eq]
  exact List.mem_append_right _ (List.mem_singleton_self _)

theorem finishStopped_work (s : State) (r : PeRun) :
    ∃ t, PeWork s t ∧ s.finishStopped r = t.withRun none :=
  ⟨_, ((PeWork.ite (.refl s) (noteMissing_work ..)).setCxs _ _).trans (publish_work ..), rfl⟩

/-! ### The end of a slot -/

theorem binaryTriggers_work (s : State) (now frame : Nat) : PeWork s (s.binaryTriggers now frame) :=
  .foldl (fun u _ => .ite (recTrigger_work ..).peWork (.refl u)) _ (.refl s)

theorem slotBinary_work (s : State) (frame lines missing ovr : Nat) : PeWork s (s.slotBinary frame lines missing ovr) :=
  (binaryTriggers_work ..).withRec fun b =>
    { b with lastBinary := _, coreTrigger := false, slots := b.slots ++ [_] }

theorem peScrub_work (s : State) : PeWork s s.peScrub := by
  refine .foldl (fun u off => ?_) _ (.refl s)
  split
  · exact .refl u
  · exact peCorrect_work ..
  · exact .foldl (fun v c => stopContext_work ..) _ (.refl u)

/-- The slot is over: PE's work before its end and the scrub after it leave the order of the slot to the end itself. -/
theorem endSlot_work (s : State) :
    ∃ t, PeWork s t ∧ PeWork (t.withPe fun p => { p with slot := false, triggers := 0 }) s.endSlot :=
  ⟨_, ((((PeWork.refl s).set PE_SLOT_LAST _).set PE_SLOT_MAX _).withGirth _).trans (slotBinary_work ..), peScrub_work _⟩

/-- With no context left to evaluate, the slot ends. -/
theorem peSettle_last {s : State} (hrun : s.pe.run = none) (hrest : s.pe.rest = []) (n : Nat) :
    (peSettle (n + 1) s).pe.run = none ∧ (peSettle (n + 1) s).pe.slot = false := by
  rw [peSettle]
  split
  · next h =>
    refine ⟨hrun, ?_⟩
    simpa [hrun] using h
  · obtain ⟨t, hbefore, hafter⟩ := endSlot_work s
    simp only [hrest]
    exact ⟨hafter.order.2.1.trans (hbefore.order.2.1.trans hrun), hafter.order.1⟩

/-! ### Events are never taken back -/

/-- What was emitted before `s` still waits for REC in `t`. -/
def EventsKept (s t : State) : Prop := s.emitted <+: t.emitted

namespace EventsKept

variable {s t u : State}

theorem refl (s : State) : EventsKept s s := List.prefix_refl _

theorem trans (h : EventsKept s t) (h' : EventsKept t u) : EventsKept s u := List.IsPrefix.trans h h'

theorem work (h : EventsKept s t) (h' : PeWork t u) : EventsKept s u := h.trans h'.emitted_prefix

theorem withPe (h : EventsKept s t) (f : PeBlock → PeBlock) : EventsKept s (t.withPe f) := h

theorem ite {c : Prop} [Decidable c] {a b : State} (ha : EventsKept s a) (hb : EventsKept s b) :
    EventsKept s (if c then a else b) := by
  split
  · exact ha
  · exact hb

theorem foldl {α : Type} {f : State → α → State} (hf : ∀ u a, EventsKept u (f u a)) (l : List α) (h : EventsKept s t) :
    EventsKept s (l.foldl f t) := by
  induction l generalizing t with
  | nil => exact h
  | cons a l ih => exact ih (h.trans (hf t a))

theorem cut (h : EventsKept s t) (r : PeRun) : EventsKept s (t.cutContext r) := by
  obtain ⟨u, hu, he, -⟩ := cutContext_work t r
  rw [he]; exact (h.work hu).withPe _

theorem stop (h : EventsKept s t) (r : PeRun) (off : Nat) : EventsKept s ((t.stopContext r.cx off).finishStopped r) := by
  obtain ⟨u, hu, he⟩ := finishStopped_work (t.stopContext r.cx off) r
  rw [he]; exact ((h.work (stopContext_work ..)).work hu).withPe _

end EventsKept

theorem endItem_work (s : State) (r : PeRun) (x : LibItem) (old b : List Word) (mean : Word) :
    PeWork s (s.endItem r x old b mean) := by
  unfold State.endItem
  extract_lets stored stepped on sealed
  have hstep : PeWork s stepped := (peStores_work ..).trans (.ite ((PeWork.refl stored).peStore _ _) (.refl stored))
  have hseal : PeWork s sealed := hstep.trans (.ite (trp_work ..) (.refl stepped))
  split
  · exact .ite hseal (hseal.trans (trg_work ..))
  · exact hseal

theorem runItem_events (s : State) (r : PeRun) (f : LibFrame) (x : LibItem) : EventsKept s (s.runItem r f x) := by
  unfold State.runItem
  extract_lets c cost counted r'
  have hcounted : EventsKept s counted := .refl s
  refine .ite (.cut (.refl s) r) ?_
  split
  · next own ins sel _ _ _ =>
    have hblocks := peReadGroups_work (own :: (ins ++ sel)) counted
    split
    · next h => rw [h] at hblocks; exact (hcounted.work hblocks).stop r' _
    · next read _ h =>
      rw [h] at hblocks
      dsimp only
      split
      · exact (hcounted.work hblocks).cut r'
      · next offs _ =>
        have hextra := peReadGroups_work offs read
        split
        · next h => rw [h] at hextra; exact ((hcounted.work hblocks).work hextra).stop r' _
        · next h => rw [h] at hextra; exact ((hcounted.work hblocks).work hextra).work (endItem_work ..)
  · exact hcounted.cut r'

theorem runItems_events (s : State) (f : LibFrame) (meas : Bool) : EventsKept s (s.runItems f meas) := by
  unfold State.runItems
  split
  · exact .refl s
  · refine .foldl (fun u x => ?_) _ (.refl s)
    split
    · exact runItem_events ..
    · exact .refl u

theorem beginLogic_events (s : State) (r : PeRun) : EventsKept s (s.beginLogic r) :=
  (((EventsKept.refl s).work (.ite (setContrib_work ..) (.refl s))).withPe _).trans (runItems_events ..)

theorem beginMeas_events (s : State) (r : PeRun) (gap : Nat) : EventsKept s (s.beginMeas r gap) :=
  ((EventsKept.refl s).withPe _).trans (runItems_events ..)

theorem beginContext_events (s : State) (c n : Nat) : EventsKept s (s.beginContext c n) := by
  unfold State.beginContext
  extract_lets started before x missing runBefore r noted _ counted _ status
  have hnoted : EventsKept s noted := (((EventsKept.refl s).withPe _).work (noteMissing_work ..) : EventsKept s _)
  have hstatus : EventsKept s status := hnoted.work (writeStatus_work ..)
  refine .ite ?stopped (.ite (.ite (hstatus.trans (beginLogic_events ..)) (.ite (hstatus.trans (beginMeas_events ..)) ?_)) ?_)
  case stopped => exact ((hnoted.work ((PeWork.refl noted).setCxs _ _)).work (writeStatus_work ..)).work (publish_work ..)
  · exact (hstatus.work ((PeWork.refl status).setCxs _ _)).work (publish_work ..)
  · split
    next st good _ =>
    extract_lets ready _ filled shown
    have hready : PeWork started ready := ((PeWork.refl started).set _ _).setCxs _ _
    have hfilled : PeWork started filled := .ite (hready.trans (fallbackFlags_work ..)) hready
    exact (((EventsKept.refl s).withPe _).work (hfilled.trans (writeStatus_work ..))).trans (beginMeas_events ..)

theorem peSettle_events (n : Nat) (s : State) : EventsKept s (peSettle n s) := by
  induction n generalizing s with
  | zero => exact .refl s
  | succ n ih =>
    refine .ite (.refl s) ?_
    split
    · obtain ⟨t, hbefore, hafter⟩ := endSlot_work s
      exact (((EventsKept.refl s).work hbefore).withPe _).work hafter
    · exact (((EventsKept.refl s).withPe _).trans (beginContext_events ..)).trans (ih _)

end Sys2Proof.Machine.PeFrame
end


section
/-!
SUPPORT. The bundles of PE act, its loads and stores reach their words (O36, O37).
-/

namespace Sys2Proof.Machine.PeEvaluation

open Reg PeFrame

/-- An instruction with time finds the evaluation as it stood. -/
theorem advance_running {s : State} {r : PeRun} (hrun : s.pe.run = some r) (hleft : s.exhausted r = false) (n : Nat) :
    (s.advance n).pe.run = some r ∧ (s.advance n).exhausted r = false := by
  refine ⟨by rw [State.advance_pe, hrun], ?_⟩
  rw [State.exhausted, State.advance_get]
  exact hleft

theorem kept_advance (s : State) (n : Nat) : CoresAndMemoryKept s (s.advance n) :=
  ⟨s.advance_cx n, s.advance_sc0 n, s.advance_sc1 n, s.advance_mem n, s.advance_memb n⟩

theorem kept_trans {s t u : State} (h : CoresAndMemoryKept s t) (h' : CoresAndMemoryKept t u) : CoresAndMemoryKept s u := by
  obtain ⟨hcx, hsc0, hsc1, hmem, hmemb⟩ := h
  obtain ⟨hcx', hsc0', hsc1', hmem', hmemb'⟩ := h'
  exact ⟨hcx'.trans hcx, hsc0'.trans hsc0, hsc1'.trans hsc1, hmem'.trans hmem, hmemb'.trans hmemb⟩

theorem endEntry_of_logic {s : State} {r : PeRun} (h : r.logic = true) : s.endEntry r = s.finishContext r true := if_pos h

theorem endEntry_of_logicNext {s : State} {r : PeRun} (h : r.logic = false) (hnext : r.logicNext = true) :
    s.endEntry r = s.beginLogic r := by
  rw [State.endEntry, if_neg (ne_true_of_eq_false h), if_pos hnext]

section

variable {s : State} {r : PeRun} (hrun : s.pe.run = some r) (hleft : s.exhausted r = false) {v : PeVector}
  (hv : r.vector.getD (.op .vnop) = .op v)
include hrun hleft hv

/-- END of MEAS, with LOGIC to follow and no library items, starts LOGIC. -/
theorem endMeas (hcx : r.cx < 64) (hlogic : r.logic = false) (hnext : r.logicNext = true) (hscheme : s.scheme r.cx = []) :
    ∃ t, s.peScalarSlot .end_ = t ∧ t.pe.run = some (logicRun s (endRun r v)) ∧ CoresAndMemoryKept s t := by
  obtain ⟨u, hu, hbegin⟩ :=
    beginLogic_of_noItems (s := bundled s r .end_ (regsAfter r v .end_)) (r := endRun r v) hcx hscheme
  have hbundle : s.peBundle r (.op v) .end_ = u.withRun (some (logicRun s (endRun r v))) := by
    rw [peBundle_end, endEntry_of_logicNext (r := endRun r v) hlogic hnext, hbegin]
    rfl
  exact ⟨_, peScalarSlot_running hrun hleft hv hbundle rfl, rfl, hu.kept⟩

/-- END of LOGIC ends the evaluation, and the slot where no context is left. -/
theorem endLogic (hlogic : r.logic = true) (hrest : s.pe.rest = []) :
    ∃ t, s.peScalarSlot .end_ = t ∧ t.pe.run = none ∧ t.pe.slot = false := by
  obtain ⟨u, hu, hfinish⟩ := finishContext_work (bundled s r .end_ (regsAfter r v .end_)) (endRun r v) true
  obtain ⟨-, -, hurest⟩ := hu.order
  refine ⟨_, rfl, ?_⟩
  rw [peScalarSlot_eq hrun hleft hv, peBundle_end, endEntry_of_logic (r := endRun r v) hlogic, hfinish]
  exact peSettle_last (s := u.withRun none) rfl (hurest.trans hrest) 64

/-- TRP sets the contribution's bit of its flag. -/
theorem trp_acts (k : Fin 32) (f : PeFlag) (hmask : bitOf (s.get (PE_CXnFLM_FLAGS r.cx)) k.val = true) :
    ∃ t, s.peScalarSlot (.trp k f) = t ∧ CoresAndMemoryKept s t ∧ ∀ i < 32,
      (t.cxs r.cx).contrib.getLsbD i = if i = k.val then r.regs.fl f.val else (s.cxs r.cx).contrib.getLsbD i := by
  have hwork := trp_work (bundled s r (.trp k f) (regsAfter r v (.trp k f))) r k.val (r.regs.fl f.val)
  obtain ⟨-, hurun, -⟩ := hwork.order
  have hbits {i : Nat} (hi : i < 32) :=
    contrib_trp (s := bundled s r (.trp k f) (regsAfter r v (.trp k f))) hmask (r.regs.fl f.val) hi
  exact ⟨_, peScalarSlot_running hrun hleft hv (peBundle_trp ..) hurun, hwork.kept, fun i => hbits⟩

/-- TRG of a set flag raises its line. -/
theorem trg_acts (j : Fin 8) (f : PeFlag) (hmask : bitOf (s.get (PE_CXnCHM_TRIG r.cx)) j.val = true)
    (hflag : r.regs.fl f.val = true) :
    ∃ t, s.peScalarSlot (.trg j f) = t ∧ CoresAndMemoryKept s t ∧ bitOf t.pe.triggers j.val = true := by
  have hwork := trg_work (bundled s r (.trg j f) (regsAfter r v (.trg j f))) r j.val (r.regs.fl f.val)
  obtain ⟨-, hurun, -⟩ := hwork.order
  refine ⟨_, peScalarSlot_running hrun hleft hv (peBundle_trg ..) hurun, hwork.kept, ?_⟩
  rw [hflag]
  exact triggers_trg hmask

end

/-- Settles O36: each bundle without memory is one rule of `peBundle`, END, TRP and TRG go on from it within PE's frame. -/
theorem peOperationsAct : Obligations.PeOperationsAct := by
  unfold Obligations.PeOperationsAct
  intro s r hrun hcx hleft
  refine ⟨fun v => ?_, fun v hv => ?_⟩
  · intro w
    have hw : s.peVectorSlot v = w := peVectorSlot_eq hrun hleft v
    refine ⟨?_, ?_, ?_⟩
    · rintro o rfl; exact ⟨_, rfl, hw⟩
    · rintro d m rfl; exact ⟨_, rfl, hw⟩
    · rintro d m rfl; exact ⟨_, rfl, hw⟩
  · have hget : r.vector.getD (.op .vnop) = .op v := by
      rcases hv with h | ⟨h, rfl⟩ <;> rw [h] <;> rfl
    have bundle {o : PeSlot} (ho : s.peBundle r (.op v) o = bundled s r o (regsAfter r v o)) :=
      peScalarSlot_running hrun hleft hget ho rfl
    intro w
    refine ⟨fun o => ⟨_, rfl, bundle (peBundle_scalar s r v o)⟩,
      fun o hald hast => ⟨_, rfl, bundle (peBundle_acc s r v hald hast)⟩,
      fun f b off => ⟨_, rfl, bundle (peBundle_brf s r v f b off)⟩,
      fun off => ⟨_, rfl, bundle (peBundle_bra s r v off)⟩, fun k m => ⟨_, rfl, bundle (peBundle_loop s r v k m)⟩,
      fun d l => ⟨_, rfl, bundle (peBundle_lidx s r v d l)⟩, ?_, ?_, ?_, ?_⟩
    · intro hlogic hnext hscheme
      obtain ⟨t, ht, htrun, hkept⟩ := endMeas hrun hleft hget hcx hlogic hnext hscheme
      exact ⟨t, _, congrArg _ ht, htrun, rfl, rfl, rfl, rfl, hkept⟩
    · intro hlogic hrest
      obtain ⟨t, ht, hend⟩ := endLogic hrun hleft hget hlogic hrest
      exact ⟨t, congrArg _ ht, hend⟩
    · intro n k f hmask
      obtain ⟨hrun', hleft'⟩ := advance_running hrun hleft n
      obtain ⟨t, ht, hkept, hbits⟩ := trp_acts hrun' hleft' hget k f (by rwa [State.advance_get])
      refine ⟨t, congrArg _ ht, (hbits k.val k.isLt).trans (if_pos rfl), fun i hi => ?_, kept_trans (kept_advance s n) hkept⟩
      have hsame : (s.advance n).cxs r.cx = s.cxs r.cx := by rw [State.cxs, State.advance_pe]; rfl
      by_cases hi32 : i < 32
      · rw [hbits i hi32, if_neg hi, hsame]
      · rw [BitVec.getLsbD_of_ge _ _ (Nat.le_of_not_lt hi32), BitVec.getLsbD_of_ge _ _ (Nat.le_of_not_lt hi32)]
    · intro n j f hmask hflag
      obtain ⟨hrun', hleft'⟩ := advance_running hrun hleft n
      obtain ⟨t, ht, hkept, hline⟩ := trg_acts hrun' hleft' hget j f (by rwa [State.advance_get]) hflag
      exact ⟨t, congrArg _ ht, hline, kept_trans (kept_advance s n) hkept⟩

end Sys2Proof.Machine.PeEvaluation
end


section
/-!
SUPPORT. A bundle with an access of the PE memories, as one step (07 R246, R247, R250; for O37).
-/

namespace Sys2Proof.Machine.PeEvaluation

open PeFrame

/-! ### What a bundle with a store leaves -/

section

variable (s : State) (r : PeRun) (o : PeSlot) {off : Nat} {ws : List Word}

/-- A bundle whose access stores changes only the PE block. -/
theorem bundled_peStores_onlyPe :
    bundled (s.peStores off ws) r o r.regs = { s with pe := (bundled (s.peStores off ws) r o r.regs).pe } := by
  obtain ⟨m, h⟩ := peStores_cases ws s off
  rw [h]; rfl

theorem peMem_bundled (u : State) : (bundled u r o r.regs).peMem = u.peMem := rfl

theorem peMem_stored {i : Nat} (hi : i < ws.length) :
    (bundled (s.peStores off ws) r o r.regs).peMem (off + 4 * i) = peWord ws[i] := by
  rw [peMem_bundled, peMem_peStores hi]

theorem peMem_stored_outside {a : Nat} (h : ∀ i < ws.length, a ≠ off + 4 * i) :
    (bundled (s.peStores off ws) r o r.regs).peMem a = s.peMem a := by
  rw [peMem_bundled, peMem_peStores_outside h]

end

/-- The lanes of a register four words were loaded to. -/
theorem lane_setVec_ofFn (r : PeRegs) (v : Nat) (w : Fin 4 → Word) (i : Fin 4) :
    (r.setVec v fun i => ((List.ofFn w)[i]?).getD 0#32).lane v i.val = w i := by
  rw [lane_setVec _ _ _ i.isLt, if_pos rfl, List.getElem?_ofFn, dif_pos i.isLt]; rfl

/-! ### The steps of the accesses -/

section

variable {s : State} {r : PeRun} (hrun : s.pe.run = some r) (hleft : s.exhausted r = false) {m : PeMem} {off : Nat}
include hrun hleft

/-- A bundle of S-slot operation `o` and the waiting vector operation, after which the evaluation goes on. -/
theorem peScalarSlot_bundled {v : PeVectorSlot} (hv : r.vector.getD (.op .vnop) = v) {o : PeSlot} {u : State} {regs : PeRegs}
    (ho : s.peBundle r v o = bundled u r o regs) : s.peScalarSlot o = bundled u r o regs :=
  peScalarSlot_running hrun hleft hv ho rfl

/-- An LDS outside the allowed areas shows its context's cut, which no later work of the step takes back. -/
theorem lds_outside_cuts (hv : r.vector.getD (.op .vnop) = .op .vnop) {d : PeReg}
    (ha : s.peAddress r m false false 1 = none) :
    ⟨0x5005, [r.cx, r.frame, 0x50000000 + bundleAt r.pc], s.mono⟩ ∈ (s.peScalarSlot (.lds d m)).emitted := by
  obtain ⟨t, -, hcut, hevent⟩ := cutContext_work (s.withPe fun p => { p with cycles := p.cycles + 1 }) r
  rw [peScalarSlot_eq hrun hleft hv, peBundle_lds_outside ha, hcut]
  exact (peSettle_events 65 (t.withRun none)).subset hevent

end

/-- Settles O37: each access is one rule of `peBundle`, and what a store leaves is read off `State.peStores`. -/
theorem peLoadsAndStoresReachTheirWords : Obligations.PeLoadsAndStoresReachTheirWords := by
  unfold Obligations.PeLoadsAndStoresReachTheirWords
  intro s r hrun hleft
  have noVector (h : r.vector = none) : r.vector.getD (.op .vnop) = .op .vnop := by rw [h]; rfl
  have vectorWaits {v : PeVectorSlot} (h : r.vector = some v) : r.vector.getD (.op .vnop) = v := by rw [h]; rfl
  have bundle {v : PeVectorSlot} (hv : r.vector.getD (.op .vnop) = v) {o : PeSlot} {u : State} {regs : PeRegs}
      (ho : s.peBundle r v o = bundled u r o regs) :
      (.next (s.peScalarSlot o) : Host.Outcome State Fault Refusal) = .next (bundled u r o regs) :=
    congrArg _ (peScalarSlot_bundled hrun hleft hv ho)
  refine ⟨?lds, ?sts, fun d m off lo hi hv => ⟨?ald, ?ast⟩, ?vld, ?vst, ?outside⟩
  case lds =>
    intro d m off hv ha w hw
    exact ⟨_, _, bundle (noVector hv) (peBundle_lds ha hw), rfl, rfl, rfl, rfl, rfl, rfl⟩
  case sts =>
    intro d m off hv ha
    refine ⟨_, _, bundle (noVector hv) (peBundle_sts ha), rfl, rfl, rfl, ?word, fun a ha => ?others,
      bundled_peStores_onlyPe s r _⟩
    case word => exact peMem_stored s r _ (ws := [_]) (i := 0) Nat.zero_lt_one
    case others =>
      refine peMem_stored_outside s r _ fun i hi => ?_
      rwa [Nat.lt_one_iff.mp hi]
  case ald =>
    intro ha hlo hhi
    exact ⟨_, _, bundle (noVector hv) (peBundle_ald ha hlo hhi), rfl, rfl, rfl, rfl, rfl⟩
  case ast =>
    intro ha
    rw [BitVec.setWidth_eq_extractLsb' (by decide), BitVec.setWidth_ushiftRight_eq_extractLsb]
    refine ⟨_, _, bundle (noVector hv) (peBundle_ast ha), rfl, rfl, rfl, ?low, ?high, fun a hlo hhi => ?others,
      bundled_peStores_onlyPe s r _⟩
    case low => exact peMem_stored s r _ (ws := [_, _]) (i := 0) Nat.two_pos
    case high => exact peMem_stored s r _ (ws := [_, _]) (i := 1) Nat.one_lt_two
    case others =>
      refine peMem_stored_outside s r _ fun i hi => ?_
      match i, hi with
      | 0, _ => exact hlo
      | 1, _ => exact hhi
  case vld =>
    intro d m off hv hspace ha w hw
    exact ⟨_, _, bundle (vectorWaits hv) (peBundle_vld ha hspace hw), rfl, lane_setVec_ofFn _ _ w,
      fun v i hother hi => (lane_setVec _ _ _ hi).trans (if_neg hother), rfl, rfl⟩
  case vst =>
    intro d m off hv ha
    refine ⟨_, _, bundle (vectorWaits hv) (peBundle_vst ha), rfl, rfl, fun i => ?word, fun a ha => ?others,
      bundled_peStores_onlyPe s r _⟩
    case word =>
      rw [peMem_stored s r _ (show i.val < ((List.range 4).map (r.regs.lane d.val)).length from i.isLt), List.getElem_map,
        List.getElem_range]
    case others => exact peMem_stored_outside s r _ fun i hi => ha ⟨i, hi⟩
  case outside =>
    intro d m hv ha
    exact ⟨_, rfl, lds_outside_cuts hrun hleft (noVector hv) ha⟩

end Sys2Proof.Machine.PeEvaluation
end
